-- ==== Sys2Proof/Machine/Wire.lean ====
section
/-! DEFINITION. What travels between units and is an operand of a command: requests at a home, Rhavemo frames, observations
of boot. Plain data shared by the syntax of commands and the state. -/

namespace Sys2Proof

/-- Kinds of request at a home (R377). -/
inductive ReqKind where
  | rdShared | rdOwn | upgrade | rdCur | wrFull | wrPart | atomic
  deriving DecidableEq, Repr

/-- Atomic operations performed at a home (R325, R326). -/
inductive AtomOp where
  /-- addition of elements: format code of R325 -/
  | add (fmt : Nat)
  /-- INT64 addition -/
  | fetchAdd
  /-- compare with the first 8 bytes, store the next 8 -/
  | cmpSwap
  deriving DecidableEq, Repr

/-- A request of a port for a line (R368, R377). -/
structure Req where
  port : Nat
  kind : ReqKind
  /-- line number, address ÷ 64 -/
  line : Nat
  /-- bytes to write from offset `off` of the line, or an atomic's operand -/
  off : Nat := 0
  data : List Byte := []
  op : AtomOp := .fetchAdd
  poison : Bool := false
  deriving DecidableEq, Repr

/-- A snoop response (R377): not held; held clean; dirty data attached; evicted with the writeback in flight. -/
inductive SnoopRsp where
  | miss | clean | data | evicting
  deriving DecidableEq, Repr

/-- A Rhavemo frame: the fields of its header (R303), its payload and ICRC. -/
structure Frame where
  ver : Nat := 1
  /-- bits [27:24] of word 0 and FLAGS bit 15 -/
  resv : Nat := 0
  opc : Nat := 0
  first : Bool := false
  last : Bool := false
  fence : Bool := false
  ordered : Bool := false
  poison : Bool := false
  tag : Bool := false
  retx : Bool := false
  gen : BitVec 8 := 0
  srcNode : Nat := 0
  dstNode : Nat := 0
  dstFlow : Nat := 0
  epoch : BitVec 16 := 0
  psn : W32 := 0
  msgId : BitVec 16 := 0
  len : Nat := 0
  addr : W64 := 0
  attr : W32 := 0
  ts : W32 := 0
  aux : W32 := 0
  payload : List Byte := []
  icrc : W32 := 0
  /-- of the packet around it: congestion experienced in the IP header (R319); sound FCS, Ethernet, IP and UDP headers (R306) -/
  ce : Bool := false
  sound : Bool := true
  /-- priority of its 802.1Q tag, and the bytes of that priority in the receive buffer of its port, itself included; 0: it finds the buffer empty
  (R295) -/
  prio : Nat := 0
  queued : Nat := 0
  deriving DecidableEq, Repr

/-- How the flash answers a firmware or config update in the cycle of a command: the write and its read-back are done and good, they fail, or they
still run (R439). -/
inductive FlashRun where
  | done | fails | runs
  deriving DecidableEq, Repr

/-- What a boot stage finds outside the part: external outcomes of training and bring-up (R430). -/
structure BootObs where
  /-- per CXL port: bring-up succeeded, installed capacity in bytes (R188) -/
  cxl : List (Bool × Nat) := []
  /-- the same of the second device of a port with SPLIT = 2 × 8 (R188) -/
  cxlB : List (Bool × Nat) := []
  /-- segment headers that the scan of a retained table finds other than they were last written, after a buffer lost power: segment
  identifier and 4,096 bytes (R191, R198) -/
  found : List (Nat × List Byte) := []
  /-- per VDD_BAY regulator: MFR_IOUT_MAX in 0.01 A, none if it does not answer (R512) -/
  iout : List (Option Nat) := []
  /-- Ethernet lanes whose SerDes did not calibrate (R294) -/
  lanes : W64 := 0
  /-- pseudo-channels that did not train (R430 stage 6) -/
  pcs : List Nat := []
  /-- stage 3: the other slot passes its own limit of 1 s (R430) -/
  otherLate : Bool := false
  deriving DecidableEq, Repr

end Sys2Proof
end

