-- ==== Sys2Proof/Syntax.lean ====
section
/-! DEFINITION. The commands of the block: one constructor for each row of the opcode table, with the row's operands. A unit
is a `Fin` of its range (R4); `tie` is the arrival in the same cycle as a time-out (R24); `same` lists the requests for the
same line that reach the home in the same cycle (R382). -/

namespace Sys2Proof

/-- A command or event of the C96, whole and indivisible. -/
inductive Instr where
  /-- PWR_OK_RISE, R430 -/
  | pwrOkRise
  /-- PWR_OK_FALL, R501 -/
  | pwrOkFall
  /-- SYS_RST_N_ASSERT, R430 -/
  | sysRstNAssert
  /-- SYS_RST_N_RELEASE, R430 -/
  | sysRstNRelease
  /-- INTERNAL_RESET_RELEASE, R500 -/
  | internalResetRelease
  /-- BOOT_STAGE_END, R430 -/
  | bootStageEnd (obs : BootObs)
  /-- BOOT_STAGE_LIMIT_EXPIRY, R430 -/
  | bootStageLimitExpiry (obs : BootObs) (tie : Bool := false)
  /-- PERST_N0_RELEASE, R432 -/
  | perstN0Release
  /-- PERST_N0_ASSERT, R394 -/
  | perstN0Assert
  /-- UPSTREAM_HOT_RESET, R394 -/
  | upstreamHotReset
  /-- UPSTREAM_LINK_TRAINED, R394 -/
  | upstreamLinkTrained
  /-- UPSTREAM_LINK_RECOVERY, R394 -/
  | upstreamLinkRecovery
  /-- UPSTREAM_LINK_L0, R394 -/
  | upstreamLinkL0
  /-- UPSTREAM_LINK_DOWN, R394 -/
  | upstreamLinkDown
  /-- PWRBRK_N_ASSERT, R515 -/
  | pwrbrkNAssert
  /-- BRAKE_END, R515 -/
  | brakeEnd
  /-- BRAKE_RECOVERY_STEP, R515 -/
  | brakeRecoveryStep
  /-- PMB_ALERT_N_FALL, R499 -/
  | pmbAlertNFall (rail : Fin 10) (fault : Bool)
  /-- PMBUS_POLL, R499 -/
  | pmbusPoll (rail : Fin 10) (reading : Option (Nat × Nat)) (fault : Bool)
  /-- REFCLK_LOSS, R506 -/
  | refclkLoss
  /-- PLL_UNLOCK, R506 -/
  | pllUnlock
  /-- ETH_REFCLK_LOSS, R506 -/
  | ethRefclkLoss
  /-- ETH_REFCLK_RETURN, R506 -/
  | ethRefclkReturn
  /-- OSC_SWITCHOVER, R507 -/
  | oscSwitchover
  /-- DIE_SENSOR_READ, R516 -/
  | dieSensorRead (die : Fin 5) (temp : BitVec 16)
  /-- THERMTRIP_ASSERT, R517 -/
  | thermtripAssert
  /-- HBM_TEMP_READ, R149 -/
  | hbmTempRead (stack : Fin 8) (temp : BitVec 16)
  /-- THERMAL_LOOP_TICK, R516 -/
  | thermalLoopTick
  /-- POWER_LIMIT_EVAL, R509 -/
  | powerLimitEval (mw : W32) (p0 p1 p2 p3 : Nat)
  /-- WAKE_REQUEST, R513 -/
  | wakeRequest (bench : Fin 132)
  /-- WAKE_ADMIT, R513 -/
  | wakeAdmit (bay : Fin 4)
  /-- WAKE_RESERVATION_RELEASE, R513 -/
  | wakeReservationRelease (bench : Fin 132)
  /-- WAKE_RAMP_STEP, R514 -/
  | wakeRampStep (bench : Fin 132)
  /-- JTAG_TRST, R519 -/
  | jtagTrst (low : Bool)
  /-- JTAG_UNLOCK_RESP, R520 -/
  | jtagUnlockResp (signature : BitVec 768)
  /-- MBX_CMD_WRITE, R407 -/
  | mbxCmdWrite (k : Fin 16) (port : Fin 16) (off : Fin 4096) (data : List Byte)
  /-- MBX_DOORBELL, R407 -/
  | mbxDoorbell (k : Fin 16) (port : Fin 16) (value : W32)
  /-- MBX_COMMAND_TAKE, R410 -/
  | mbxCommandTake (flash : FlashRun := .done)
  /-- MBX_WAITING_COMMAND_END, R411 -/
  | mbxWaitingCommandEnd (k : Fin 16) (flash : FlashRun := .done)
  /-- MBX_WAIT_LIMIT_EXPIRY, R411 -/
  | mbxWaitLimitExpiry (k : Fin 16) (tie : Bool)
  /-- MBX_JIG_GO, R413 -/
  | mbxJigGo (k : Fin 16) (port : Fin 16) (step : W64)
  /-- TELEMETRY_REWRITE, R404 -/
  | telemetryRewrite
  /-- ND_HELLO, R417 -/
  | ndHello (k : Fin 16) (payload : List Byte)
  /-- ND_QUERY_SUMMARY, R417 -/
  | ndQuerySummary (k : Fin 16) (payload : List Byte)
  /-- ND_QUERY_BENCHES, R417 -/
  | ndQueryBenches (k : Fin 16) (payload : List Byte)
  /-- ND_QUERY_NEAR, R417 -/
  | ndQueryNear (k : Fin 16) (payload : List Byte)
  /-- ND_QUERY_FAR, R417 -/
  | ndQueryFar (k : Fin 16) (payload : List Byte)
  /-- ND_QUERY_ETHERNET, R417 -/
  | ndQueryEthernet (k : Fin 16) (payload : List Byte)
  /-- ND_TIER_MODE, R215 -/
  | ndTierMode (k : Fin 16) (payload : List Byte)
  /-- ND_ALLOC, R418 -/
  | ndAlloc (k : Fin 16) (payload : List Byte)
  /-- ND_FREE, R418 -/
  | ndFree (k : Fin 16) (payload : List Byte)
  /-- ND_REGION_REGISTER, R418 -/
  | ndRegionRegister (k : Fin 16) (payload : List Byte)
  /-- ND_REGION_UNREGISTER, R418 -/
  | ndRegionUnregister (k : Fin 16) (payload : List Byte)
  /-- ND_JIG_LOAD, R420 -/
  | ndJigLoad (k : Fin 16) (payload : List Byte)
  /-- ND_JIG_START, R421 -/
  | ndJigStart (k : Fin 16) (payload : List Byte)
  /-- ND_JIG_STOP, R422 -/
  | ndJigStop (k : Fin 16) (payload : List Byte)
  /-- ND_PANEL_DEFINE_TABLE, R423 -/
  | ndPanelDefineTable (k : Fin 16) (payload : List Byte)
  /-- ND_PANEL_DEFINE_DEFINE, R423 -/
  | ndPanelDefineDefine (k : Fin 16) (payload : List Byte)
  /-- ND_OPT_CONFIG_JOB, R423 -/
  | ndOptConfigJob (k : Fin 16) (payload : List Byte)
  /-- ND_OPT_CONFIG_ENTRY, R278 -/
  | ndOptConfigEntry (k : Fin 16) (payload : List Byte)
  /-- ND_FAB_JOIN, R424 -/
  | ndFabJoin (k : Fin 16) (payload : List Byte)
  /-- ND_FAB_LEAVE, R426 -/
  | ndFabLeave (k : Fin 16) (payload : List Byte)
  /-- ND_FLOW_OPEN, R307 -/
  | ndFlowOpen (k : Fin 16) (payload : List Byte)
  /-- ND_FLOW_CLOSE, R308 -/
  | ndFlowClose (k : Fin 16) (payload : List Byte)
  /-- ND_COLL_GROUP_DEFINE, R337 -/
  | ndCollGroupDefine (k : Fin 16) (payload : List Byte)
  /-- ND_COLL_GROUP_DELETE, R426 -/
  | ndCollGroupDelete (k : Fin 16) (payload : List Byte)
  /-- ND_RESHARD_BUILD, R472 -/
  | ndReshardBuild (k : Fin 16) (payload : List Byte)
  /-- ND_RESHARD_BUILD_RUN, R473 -/
  | ndReshardBuildRun (k : Fin 16) (payload : List Byte)
  /-- ND_RESHARD_RUN, R473 -/
  | ndReshardRun (k : Fin 16) (payload : List Byte)
  /-- ND_SNAPSHOT, R481 -/
  | ndSnapshot (k : Fin 16) (payload : List Byte)
  /-- ND_SNAPSHOT_UNPIN, R482 -/
  | ndSnapshotUnpin (k : Fin 16) (payload : List Byte)
  /-- ND_RESTORE, R488 -/
  | ndRestore (k : Fin 16) (payload : List Byte)
  /-- ND_REPLAY_VERIFY, R490 -/
  | ndReplayVerify (k : Fin 16) (payload : List Byte)
  /-- ND_FAULT_CFG_SOURCE, R450 -/
  | ndFaultCfgSource (k : Fin 16) (payload : List Byte)
  /-- ND_FAULT_CFG_PIN, R457 -/
  | ndFaultCfgPin (k : Fin 16) (payload : List Byte)
  /-- ND_FAULT_LOG_FAULTS, R451 -/
  | ndFaultLogFaults (k : Fin 16) (payload : List Byte)
  /-- ND_FAULT_LOG_ORPHANS, R453 -/
  | ndFaultLogOrphans (k : Fin 16) (payload : List Byte)
  /-- ND_FAULT_LOG_REPAIRS, R453 -/
  | ndFaultLogRepairs (k : Fin 16) (payload : List Byte)
  /-- ND_RETIRE_BENCH, R5 -/
  | ndRetireBench (k : Fin 16) (payload : List Byte)
  /-- ND_RETIRE_PC_RETRAIN, R170 -/
  | ndRetirePcRetrain (k : Fin 16) (payload : List Byte)
  /-- ND_RETIRE_PC_RETIRE, R176 -/
  | ndRetirePcRetire (k : Fin 16) (payload : List Byte)
  /-- ND_RETIRE_ETH_LANE, R294 -/
  | ndRetireEthLane (k : Fin 16) (payload : List Byte)
  /-- ND_POWER_LIMIT, R510 -/
  | ndPowerLimit (k : Fin 16) (payload : List Byte)
  /-- ND_FW_UPDATE_FIRMWARE, R439 -/
  | ndFwUpdateFirmware (k : Fin 16) (payload : List Byte) (flash : FlashRun := .done)
  /-- ND_FW_UPDATE_CONFIG, R439 -/
  | ndFwUpdateConfig (k : Fin 16) (payload : List Byte) (flash : FlashRun := .done)
  /-- ND_TELEMETRY_KERF, R429 -/
  | ndTelemetryKerf (k : Fin 16) (payload : List Byte)
  /-- ND_TELEMETRY_PERIOD, R404 -/
  | ndTelemetryPeriod (k : Fin 16) (payload : List Byte)
  /-- ND_TELEMETRY_REWRITE, R404 -/
  | ndTelemetryRewrite (k : Fin 16) (payload : List Byte)
  /-- REGISTER_WRITE, R16 -/
  | registerWrite (port : Fin 16) (addr : BitVec 48) (width : Nat) (value : W64)
  /-- REGISTER_LOW_HALF_WRITE, R524 -/
  | registerLowHalfWrite (port : Fin 16) (addr : BitVec 48) (value : W32)
  /-- COUNTER_LOW_HALF_READ, R20 -/
  | counterLowHalfRead (port : Fin 16) (addr : BitVec 48) (width : Nat := 4)
  /-- SPAD_OWNER_WRITE, R117 -/
  | spadOwnerWrite (bench : Fin 132) (bank : Fin 16) (value : W32) (port : Fin 16 := 15)
  /-- SPAD_OWNER_SET_WRITE, R118 -/
  | spadOwnerSetWrite (bench : Fin 132) (value : W32) (port : Fin 16 := 15)
  /-- SPAD_PAIR_WRITE, R109 -/
  | spadPairWrite (bench : Fin 132) (value : W32) (port : Fin 16 := 15)
  /-- SPAD_STAT_OWNER_WRITE, R135 -/
  | spadStatOwnerWrite (bench : Fin 132) (value : W32) (port : Fin 16 := 15)
  /-- SPAD_HANDOVER_END, R117 -/
  | spadHandoverEnd (bench : Fin 132) (bank : Fin 17)
  /-- SPAD_ACCESS, R114 -/
  | spadAccess (bench : Fin 132) (master : Fin 5) (write : Bool) (off : BitVec 21) (data : List Byte) (len : Nat) (ecc : Fin 3)
  /-- SPAD_ACCESS_ACCEPT, R114 -/
  | spadAccessAccept (bench : Fin 132) (master : Fin 5) (clocks : Nat)
  /-- SPAD_WAIT_LIMIT_EXPIRY, R115 -/
  | spadWaitLimitExpiry (bench : Fin 132) (master : Fin 5) (tie : Bool) (held : Nat := 0)
  /-- SPAD_WINDOW_ACCESS, R64 -/
  | spadWindowAccess (port : Fin 16) (bench : Fin 132) (write : Bool) (off : BitVec 21) (data : List Byte) (len : Nat)
  /-- STRM_SUBMIT_WRITE, R214 -/
  | strmSubmitWrite (bay : Fin 4) (port : Fin 16) (value : W64)
  /-- JIG_CTR_ADD_WRITE, R234 -/
  | jigCtrAddWrite (jig : Fin 5) (port : Fin 16) (value : W64)
  /-- COH_DIR_PROBE_WRITE, R370 -/
  | cohDirProbeWrite (home : Fin 8) (port : Fin 16) (value : W64)
  /-- BAY_CACHE_DISABLE, R181 -/
  | bayCacheDisable (home : Fin 8)
  /-- BAY_CACHE_INVALIDATE_DONE, R181 -/
  | bayCacheInvalidateDone (home : Fin 8)
  /-- BAY_CACHE_ENABLE, R181 -/
  | bayCacheEnable (home : Fin 8)
  /-- COH_ORPHAN_CLEAR, R396 -/
  | cohOrphanClear
  /-- FC_HEARTBEAT_WRITE, R458 -/
  | fcHeartbeatWrite (port : Fin 16) (tie : Bool)
  /-- FC_PIN_CFG_WRITE, R457 -/
  | fcPinCfgWrite (port : Fin 16) (value : W32)
  /-- FC_SEVERITY_WRITE, R450 -/
  | fcSeverityWrite (port : Fin 16) (source : Fin 480) (value : W32) (raised : List (Fin 480 × Nat × W64) := [])
  /-- PT_LOCK_SET, R18 -/
  | ptLockSet (port : Fin 16)
  /-- PT_ENTRY_WRITE, R438 -/
  | ptEntryWrite (port : Fin 16) (cls : Fin 4) (index : Fin 32) (high : Bool) (value : W64)
  /-- FAB_WIN_WRITE, R321 -/
  | fabWinWrite (entry : Fin 4096) (high : Bool) (value : W64) (port : Fin 16 := 15)
  /-- MX_TASK_ISSUE, R86 -/
  | mxTaskIssue (bench : Fin 132)
  /-- MX_PARTIAL_WAIT_RELEASE, R95 -/
  | mxPartialWaitRelease (bench : Fin 132)
  /-- MX_TASK_COMPLETE, R103 -/
  | mxTaskComplete (bench : Fin 132) (clocks : Nat)
  /-- LOAD, R121 -/
  | load (bench : Fin 132)
  /-- STORE, R121 -/
  | store (bench : Fin 132)
  /-- STAT_SAVE, R121 -/
  | statSave (bench : Fin 132) (ecc : Option (Fin 8192 × Bool) := none)
  /-- STAT_LOAD, R121 -/
  | statLoad (bench : Fin 132)
  /-- DMA_DESC_COMPLETE, R123 -/
  | dmaDescComplete (bench : Fin 132)
  /-- COPY, R129 -/
  | copy (bench : Fin 132)
  /-- FILL, R128 -/
  | fill (bench : Fin 132)
  /-- BCAST, R128 -/
  | bcast (bench : Fin 132)
  /-- ADD, R128 -/
  | add (bench : Fin 132)
  /-- SUB, R128 -/
  | sub (bench : Fin 132)
  /-- MUL, R128 -/
  | mul (bench : Fin 132)
  /-- FMA, R128 -/
  | fma (bench : Fin 132)
  /-- MIN, R129 -/
  | min (bench : Fin 132)
  /-- MAX, R129 -/
  | max (bench : Fin 132)
  /-- ABS, R128 -/
  | abs (bench : Fin 132)
  /-- NEG, R128 -/
  | neg (bench : Fin 132)
  /-- COL_ADD, R128 -/
  | colAdd (bench : Fin 132)
  /-- ROW_MUL, R128 -/
  | rowMul (bench : Fin 132)
  /-- CMP_GT, R128 -/
  | cmpGt (bench : Fin 132)
  /-- SELECT, R128 -/
  | select (bench : Fin 132)
  /-- DIV, R129 -/
  | div (bench : Fin 132)
  /-- RECIP, R129 -/
  | recip (bench : Fin 132)
  /-- SQRT, R129 -/
  | sqrt (bench : Fin 132)
  /-- RSQRT, R129 -/
  | rsqrt (bench : Fin 132)
  /-- LOG, R129 -/
  | log (bench : Fin 132)
  /-- FUNC, R96 -/
  | func (bench : Fin 132)
  /-- DFUNC, R96 -/
  | dfunc (bench : Fin 132)
  /-- ROW_SUM, R130 -/
  | rowSum (bench : Fin 132)
  /-- ROW_MAX, R129 -/
  | rowMax (bench : Fin 132)
  /-- ROW_TOPK, R133 -/
  | rowTopk (bench : Fin 132)
  /-- COMPRESS, R131 -/
  | compress (bench : Fin 132)
  /-- EXPAND, R131 -/
  | expand (bench : Fin 132)
  /-- GATHER, R128 -/
  | gather (bench : Fin 132)
  /-- VEC_TASK_COMPLETE, R134 -/
  | vecTaskComplete (bench : Fin 132)
  /-- LN_FWD, R138 -/
  | lnFwd (bench : Fin 132)
  /-- RMS_FWD, R138 -/
  | rmsFwd (bench : Fin 132)
  /-- SM_FIN, R138 -/
  | smFin (bench : Fin 132)
  /-- LN_BWD, R138 -/
  | lnBwd (bench : Fin 132) (ecc : Option (Fin 8192 × Bool) := none)
  /-- RMS_BWD, R138 -/
  | rmsBwd (bench : Fin 132) (ecc : Option (Fin 8192 × Bool) := none)
  /-- SM_BWD, R138 -/
  | smBwd (bench : Fin 132) (ecc : Option (Fin 8192 × Bool) := none)
  /-- ROW_TASK_COMPLETE, R141 -/
  | rowTaskComplete (bench : Fin 132)
  /-- NOP, R231 -/
  | nop (jig : Fin 5) (queue : Nat)
  /-- JIG_MX, R231 -/
  | jigMx (bay : Fin 4) (queue : Nat)
  /-- JIG_VEC, R231 -/
  | jigVec (bay : Fin 4) (queue : Nat)
  /-- JIG_ROW, R231 -/
  | jigRow (bay : Fin 4) (queue : Nat)
  /-- JIG_DMA, R231 -/
  | jigDma (bay : Fin 4) (queue : Nat)
  /-- HANDOVER, R231 -/
  | handover (bay : Fin 4) (queue : Nat)
  /-- STAGER, R231 -/
  | stager (jig : Fin 5) (queue : Nat)
  /-- GATE, R248 -/
  | gate (bay : Fin 4) (queue : Nat)
  /-- PHASE, R241 -/
  | phase (jig : Fin 5) (queue : Nat)
  /-- LOOP, R237 -/
  | loop (jig : Fin 5) (queue : Nat)
  /-- RELEASE, R255 -/
  | release (jig : Fin 5) (queue : Nat)
  /-- COLL, R340 -/
  | coll (queue : Nat)
  /-- END, R242 -/
  | endRec (jig : Fin 5) (queue : Nat)
  /-- JIG_RECORD_COMPLETE, R235 -/
  | jigRecordComplete (jig : Fin 5) (queue : Nat) (serial : Nat)
  /-- JIG_WAIT_TIMEOUT_EXPIRY, R240 -/
  | jigWaitTimeoutExpiry (jig : Fin 5) (queue : Nat) (tie : Bool)
  /-- JIG_PHASE_BOUNDARY_PASS, R241 -/
  | jigPhaseBoundaryPass
  /-- JIG_HOIST_ISSUE, R253 -/
  | jigHoistIssue (jig : Fin 5) (queue : Nat)
  /-- STREAM_FILL_START, R246 -/
  | streamFillStart (bay : Fin 4)
  /-- STREAM_BLOCK_ARRIVAL, R246 -/
  | streamBlockArrival (bay : Fin 4) (slot : Nat)
  /-- STREAM_SLOT_FULL, R247 -/
  | streamSlotFull (bay : Fin 4) (slot : Nat)
  /-- STREAM_WATCHDOG_EXPIRY, R251 -/
  | streamWatchdogExpiry (pos : Nat) (tie : Bool)
  /-- GET, R209 -/
  | get (bay : Fin 4)
  /-- PUT, R210 -/
  | put (bay : Fin 4)
  /-- SEGMENT_SEAL, R197 -/
  | segmentSeal (bay : Fin 4) (segment : Nat)
  /-- STAGER_DESC_COMPLETE, R212 -/
  | stagerDescComplete (bay : Fin 4)
  /-- FAR_REPAIR_FETCH_DONE, R221 -/
  | farRepairFetchDone (entry : Nat) (block : Option (List Byte))
  /-- FAR_SEGMENT_REWRITE_DONE, R223 -/
  | farSegmentRewriteDone (entry : Nat)
  /-- PAGE_PROMOTE_START, R218 -/
  | pagePromoteStart (page : Nat)
  /-- PAGE_PROMOTE_DONE, R219 -/
  | pagePromoteDone (page : Nat)
  /-- PAGE_DEMOTE_START, R218 -/
  | pageDemoteStart
  /-- PAGE_DEMOTE_DONE, R218 -/
  | pageDemoteDone (page : Nat)
  /-- STRM_EPOCH_END, R218 -/
  | strmEpochEnd
  /-- CXL_LINK_RETRAIN, R190 -/
  | cxlLinkRetrain (cxl : Fin 4)
  /-- CXL_LINK_DOWN, R190 -/
  | cxlLinkDown (cxl : Fin 4)
  /-- FAR_TIMEOUT, R226 -/
  | farTimeout (cxl : Fin 4) (addr : BitVec 48) (tie : Bool)
  /-- MEMORY_DATA_RETURN, R380 -/
  | memoryDataReturn (home : Fin 8) (line : Nat) (ecc : Fin 7)
  /-- NEAR_CE_WRITEBACK, R154 -/
  | nearCeWriteback (stack : Fin 8) (line : Nat)
  /-- WRITE_QUEUE_AGE_EXPIRY, R152 -/
  | writeQueueAgeExpiry (pc : Fin 512)
  /-- REFRESH_DUE, R150 -/
  | refreshDue (pc : Fin 512) (busy : Bool)
  /-- SCRUB_READ, R162 -/
  | scrubRead (line : Nat) (ecc : Fin 3)
  /-- SOFT_PPR_START, R165 -/
  | softPprStart (stack : Fin 8)
  /-- SOFT_PPR_DONE, R165 -/
  | softPprDone (stack : Fin 8)
  /-- PC_STAGING_DONE, R176 -/
  | pcStagingDone (pc : Fin 512)
  /-- PC_RETRAIN_DONE, R170 -/
  | pcRetrainDone (pc : Fin 512) (pass : Bool)
  /-- PC_RESTORE_DONE, R176 -/
  | pcRestoreDone (pc : Fin 512)
  /-- PC_RETIREMENT_START, R176 -/
  | pcRetirementStart (pc : Fin 512)
  /-- PC_SACRIFICED_RANGE_EMPTY, R172 -/
  | pcSacrificedRangeEmpty
  /-- PC_RETIREMENT_COPY_DONE, R173 -/
  | pcRetirementCopyDone (pc : Fin 512)
  /-- PLANE_UPDATE_START, R283 -/
  | planeUpdateStart (plane : Fin 8)
  /-- PLANE_COMMIT, R283 -/
  | planeCommit (plane : Fin 8)
  /-- PLANE_COMMIT_ACK, R283 -/
  | planeCommitAck (plane : Fin 8)
  /-- PLANE_PUBLISH_ACK, R283 -/
  | planePublishAck (plane : Fin 8)
  /-- PLANE_RELEASE_ACK, R283 -/
  | planeReleaseAck (plane : Fin 8)
  /-- PLANE_TWIN_TIMEOUT_EXPIRY, R288 -/
  | planeTwinTimeoutExpiry (plane : Fin 8) (tie : Bool)
  /-- SEAL_PUT_DONE, R273 -/
  | sealPutDone (panel : Nat) (slot : Fin 5)
  /-- WRITE, R324 -/
  | write (port : Fin 64) (frame : Frame)
  /-- READ_REQ, R324 -/
  | readReq (port : Fin 64) (frame : Frame)
  /-- READ_RESP, R324 -/
  | readResp (port : Fin 64) (frame : Frame)
  /-- ATOMIC_ADD, R325 -/
  | atomicAdd (port : Fin 64) (frame : Frame)
  /-- FETCH_ADD, R326 -/
  | fetchAdd (port : Fin 64) (frame : Frame)
  /-- CMP_SWAP, R326 -/
  | cmpSwap (port : Fin 64) (frame : Frame)
  /-- ATOMIC_RESP, R326 -/
  | atomicResp (port : Fin 64) (frame : Frame)
  /-- SIGNAL, R327 -/
  | signal (port : Fin 64) (frame : Frame)
  /-- PANEL_ADD, R328 -/
  | panelAdd (port : Fin 64) (frame : Frame)
  /-- MIRROR, R329 -/
  | mirror (port : Fin 64) (frame : Frame)
  /-- MIRROR_CREDIT, R329 -/
  | mirrorCredit (port : Fin 64) (frame : Frame)
  /-- TWIN_DONE, R329 -/
  | twinDone (port : Fin 64) (frame : Frame)
  /-- ACK, R311 -/
  | ack (port : Fin 64) (frame : Frame)
  /-- STATUS, R317 -/
  | status (port : Fin 64) (frame : Frame)
  /-- RNR, R313 -/
  | rnr (port : Fin 64) (frame : Frame)
  /-- HEARTBEAT, R334 -/
  | heartbeat (port : Fin 64) (frame : Frame)
  /-- FLOW_OPEN, R309 -/
  | flowOpen (port : Fin 64) (frame : Frame)
  /-- RAW_FRAME_RECEIVE, R297 -/
  | rawFrameReceive (port : Fin 64) (data : List Byte) (queued : Nat := 0)
  /-- PFC_FRAME_RECEIVE, R295 -/
  | pfcFrameReceive (port : Fin 64) (prio : Fin 8) (pause : Bool)
  /-- FRAME_LOSS_TIMEOUT, R312 -/
  | frameLossTimeout (flow : Fin 65536) (psn : W32) (tie : Bool)
  /-- ACK_DELAY_EXPIRY, R311 -/
  | ackDelayExpiry (flow : Fin 65536)
  /-- CC_PERIOD_TICK, R318 -/
  | ccPeriodTick (flow : Fin 65536)
  /-- FLOW_OPEN_RESEND, R309 -/
  | flowOpenResend (flow : Fin 65536)
  /-- HEARTBEAT_SEND, R334 -/
  | heartbeatSend
  /-- PEER_LOSS_EXPIRY, R335 -/
  | peerLossExpiry (node : Fin 65536) (tie : Bool)
  /-- PATH_PENALTY_EXPIRY, R299 -/
  | pathPenaltyExpiry (flow : Fin 65536) (path : Nat)
  /-- RNR_RETRANSMIT, R313 -/
  | rnrRetransmit (flow : Fin 65536)
  /-- RAW_TX_POLL, R425 -/
  | rawTxPoll
  /-- FABRIC_WINDOW_ACCESS, R322 -/
  | fabricWindowAccess (port : Fin 16) (kind : Fin 4) (addr : BitVec 48) (data : List Byte) (len : Nat)
  /-- ETH_LANE_FAIL, R294 -/
  | ethLaneFail (lane : Fin 64)
  /-- ETH_PORT_RETRAIN_DONE, R294 -/
  | ethPortRetrainDone (port : Fin 64) (ok : Bool)
  /-- ETH_PORT_LINK_UP, R430 -/
  | ethPortLinkUp (port : Fin 64)
  /-- GRAD_SEND, R345 -/
  | gradSend
  /-- REDUCE_SCATTER, R343 -/
  | reduceScatter
  /-- ALL_GATHER, R341 -/
  | allGather
  /-- ALL_REDUCE, R343 -/
  | allReduce
  /-- BROADCAST, R341 -/
  | broadcast
  /-- BARRIER, R341 -/
  | barrier
  /-- CLAMP, R350 -/
  | clamp
  /-- DOVETAIL, R361 -/
  | dovetail
  /-- COLL_DATA, R348 -/
  | collData (port : Fin 64) (frame : Frame)
  /-- BARRIER_UP, R348 -/
  | barrierUp (port : Fin 64) (frame : Frame)
  /-- BARRIER_DOWN, R348 -/
  | barrierDown (port : Fin 64) (frame : Frame)
  /-- DOVE_PULL, R348 -/
  | dovePull (port : Fin 64) (frame : Frame)
  /-- DOVE_WAVE_BARRIER_DONE, R361 -/
  | doveWaveBarrierDone
  /-- COLL_OP_COMPLETE, R344 -/
  | collOpComplete (seq : Nat)
  /-- CLAMP_RECORD_READY, R352 -/
  | clampRecordReady
  /-- CLAMP_WAIT_EXPIRY, R352 -/
  | clampWaitExpiry (tie : Bool := false)
  /-- CLAMP_PART, R351 -/
  | clampPart (port : Fin 64) (frame : Frame)
  /-- CLAMP_CHILD_DEADLINE, R353 -/
  | clampChildDeadline (tie : Bool)
  /-- CLAMP_RESULT, R357 -/
  | clampResult (port : Fin 64) (frame : Frame)
  /-- CLAMP_ACK, R355 -/
  | clampAck (port : Fin 64) (frame : Frame)
  /-- CLAMP_QUERY, R356 -/
  | clampQuery (port : Fin 64) (frame : Frame)
  /-- CLAMP_NONE, R356 -/
  | clampNone (port : Fin 64) (frame : Frame)
  /-- CLAMP_RESULT_WAIT_EXPIRY, R356 -/
  | clampResultWaitExpiry (tie : Bool)
  /-- CORE_LOAD, R378 -/
  | coreLoad (cluster : Fin 8) (addr : BitVec 48)
  /-- CORE_STORE, R378 -/
  | coreStore (cluster : Fin 8) (addr : BitVec 48) (data : List Byte) (amo : Bool := false)
  /-- CACHE_REPLACEMENT, R378 -/
  | cacheReplacement (cluster : Fin 8) (addr : BitVec 48)
  /-- RETRY_BACKOFF_EXPIRY, R374 -/
  | retryBackoffExpiry (cluster : Fin 8) (addr : BitVec 48)
  /-- RDSHARED, R379 -/
  | rdshared (port : Fin 16) (line : Nat) (same : List Req)
  /-- RDOWN, R379 -/
  | rdown (port : Fin 16) (line : Nat) (same : List Req)
  /-- UPGRADE, R379 -/
  | upgrade (port : Fin 16) (line : Nat) (same : List Req)
  /-- WBDIRTY, R381 -/
  | wbdirty (agent : Fin 9) (line : Nat) (data : List Byte) (same : List Req)
  /-- RDCUR, R384 -/
  | rdcur (port : Fin 16) (line : Nat) (same : List Req)
  /-- WRFULL, R385 -/
  | wrfull (port : Fin 16) (line : Nat) (data : List Byte) (same : List Req)
  /-- WRPART, R385 -/
  | wrpart (port : Fin 16) (line : Nat) (off : Fin 64) (data : List Byte) (same : List Req)
  /-- ATOMIC, R385 -/
  | atomic (port : Fin 16) (line : Nat) (off : Fin 64) (op : AtomOp) (data : List Byte) (same : List Req)
  /-- MEMCLNEVCT, R372 -/
  | memclnevct (line : Nat)
  /-- SNPINV, R378 -/
  | snpinv (cluster : Fin 8) (line : Nat)
  /-- SNPDATA, R378 -/
  | snpdata (cluster : Fin 8) (line : Nat)
  /-- SNPCUR, R378 -/
  | snpcur (cluster : Fin 8) (line : Nat)
  /-- SNOOP_RESPONSE, R380 -/
  | snoopResponse (agent : Fin 9) (line : Nat) (rsp : SnoopRsp) (data : List Byte) (poison : Bool)
  /-- GRANT, R378 -/
  | grant (cluster : Fin 8) (line : Nat) (state : Fin 3) (data : Option (List Byte)) (poison : Bool)
  /-- GRANTACK, R380 -/
  | grantack (port : Fin 9) (line : Nat) (same : List Req)
  /-- WBACK, R378 -/
  | wback (cluster : Fin 8) (line : Nat)
  /-- RETRY, R374 -/
  | retry (cluster : Fin 8) (line : Nat)
  /-- COH_SNOOP_TIMEOUT_EXPIRY, R380 -/
  | cohSnoopTimeoutExpiry (agent : Fin 9) (line : Nat) (tie : Bool)
  /-- BICONFLICT, R392 -/
  | biconflict (line : Nat)
  /-- HOST_H2D_SNOOP, R393 -/
  | hostH2dSnoop (line : Nat) (kind : Fin 3)
  /-- ALIAS_READ, R389 -/
  | aliasRead (addr : BitVec 39) (len : Nat)
  /-- FAULT_RAISE, R444 -/
  | faultRaise (raises : List (Fin 480 × Nat × W64))
  /-- SAFE_STATE_COMPLETE, R461 -/
  | safeStateComplete (refreshOnly : Bool := false)
  /-- NOTIFICATION_DELIVER, R446 -/
  | notificationDeliver (path : Fin 2)
  /-- COLLECTOR_SWEEP, R459 -/
  | collectorSweep (logCe : List (Fin 1024)) (failure : Option (Bool × BitVec 20))
  /-- SILKAI_HEARTBEAT_EXPIRY, R458 -/
  | silkaiHeartbeatExpiry (tie : Bool)
  /-- FLT_N_PULSE_END, R455 -/
  | fltNPulseEnd (tie : Bool)
  /-- SPDM_REQUEST, R440 -/
  | spdmRequest (code : BitVec 8) (param1 param2 : BitVec 8) (data : List Byte) (privateRead : Bool := false)
  /-- COLLECTIVE_PART_TIMEOUT, R344 -/
  | collectivePartTimeout (seq : Nat) (tie : Bool)
  /-- HOST_COMPLETION, R387 -/
  | hostCompletion (write : Bool) (data : List Byte) (tie : Bool)
  /-- CONFIGURATION_REQUEST, R432 -/
  | configurationRequest (write : Bool) (reg : BitVec 12) (value : W32)
  /-- JTAG_INSTRUCTION_UPDATE, R519 -/
  | jtagInstructionUpdate (instr : Nat)
  deriving DecidableEq, Repr

end Sys2Proof
end

