-- ==== Sys2Proof/Decode.lean ====
section
/-! DEFINITION. The table of the block's commands gives no row any bits: no word spells a command. -/

namespace Sys2Proof

/-- The command a word of the table spells: no row gives bits, so none. -/
def decodeTableWord (_nbits _w : Nat) : Option Instr := none

end Sys2Proof
end

