-- ==== Sys2Proof/Config.lean ====
section
/-! DEFINITION. What the spec leaves open: the free values. None has a body, so no proof can see what one is. -/

namespace Sys2Proof

/-- What a byte of near memory or GDDR holds before anything wrote it after the reset `era` (R523), by address. -/
opaque Config.unwrittenByte : Nat → Nat → Byte

/-- Whether a line of near memory or GDDR that nothing has written since the reset `era` reads as poisoned (R523). -/
opaque Config.unwrittenPoison : Nat → Nat → Bool

/-- A fresh undefined byte: the contents of a span that the spec leaves undefined (R87, R109, R126, R134, R135), by the
value of the model's free counter and the index of the byte in the span. -/
opaque Config.undefByte : Nat → Nat → Byte

/-- The set of a bay-cache half in which a line lies (R177): the spec gives no index. Only its residue modulo 32,768 is used. -/
opaque Config.bcSet : Nat → Nat

/-- Which of old and new an abandoned store leaves in a line (R126), by the free counter and the line's index. -/
opaque Config.lineLanded : Nat → Nat → Bool

/-- Which of the FP32 values within its bound a bounded-error function returns (R96, R129), by function, operand and bound. Only its
residue modulo the number of those values is used. -/
opaque Config.ulpOffset : Nat → Nat → Nat → Nat

/-- The MAC address of an Ethernet port, which the spec does not give (R298). -/
opaque Config.portMac : Nat → BitVec 48

/-- What host memory holds, by host physical address and the free counter: the host is outside the part. -/
opaque Config.hostByte : Nat → Nat → Byte

/-- A choice the spec leaves to the device or to firmware, by the free counter and the number of possibilities. -/
opaque Config.choice : Nat → Nat → Nat

/-- The micro-batch index of the tasks of a jig record (R79, R477): the spec names no place it is read from. By jig, queue,
record index and loop registers. -/
opaque Config.microBatch : Nat → Nat → Nat → List Nat → BitVec 16

/-- A random number of the root of trust (a JTAG nonce, an SPDM nonce), by the free counter (R440, R520). -/
opaque Config.nonce : Nat → BitVec 384

/-- A value that cryptography of the root of trust produces: a signature, a digest or a certificate whose algorithm's
result the spec names but does not tabulate (R434, R440), by what is asked and the free counter. -/
opaque Config.crypto : Nat → Nat → Nat

/-- SHA-384 of a string of bytes, as a number: the standard names it, the spec tabulates no value (R434, R440, R520). -/
opaque Config.sha384 : List Byte → Nat

/-- Does an ECDSA P-384 signature verify: key digest, message digest, signature (R434, R520)? -/
opaque Config.ecdsaOk : Nat → Nat → Nat → Bool

/-- Haldotte's JEP106 identity code, which the spec names without a value (R519). -/
opaque Config.jep106 : BitVec 11

/-- Register number of the dword with Message Control in the MSI-X capability of upstream port 0: the spec places no
configuration register (R390, R432). -/
opaque Config.msixCap : BitVec 12

end Sys2Proof
end

