-- ==== Sys2Proof/Machine/Bits.lean ====
section
/-! DEFINITION. Bit fields, byte order, pitches and saturating counters: the helpers every layout of the spec uses. -/

namespace Sys2Proof.Machine

open Sys2Proof

/-- Field of `n` bits of `w` whose least significant bit is `lo` (R11). -/
def bits (w lo n : Nat) : Nat := (w >>> lo) % 2 ^ n

/-- Bit `i` of `w`. -/
def bitAt (w i : Nat) : Bool := (w >>> i) % 2 = 1

/-- `w` with the field of `n` bits at `lo` replaced by `v`. -/
def setBits (w lo n v : Nat) : Nat :=
  (w >>> (lo + n)) <<< (lo + n) + (v % 2 ^ n) <<< lo + w % 2 ^ lo

/-- `w` with bit `i` set to `b`. -/
def setBit (w i : Nat) (b : Bool) : Nat := setBits w i 1 (if b then 1 else 0)

/-- 1 for true. -/
def b2n (b : Bool) : Nat := if b then 1 else 0

/-- The number whose little-endian bytes are given (R12). -/
def leNat : List Byte → Nat
  | [] => 0
  | b :: bs => b.toNat + 256 * leNat bs

/-- The `n` little-endian bytes of a number (R12). -/
def natLE : Nat → Nat → List Byte
  | 0, _ => []
  | n + 1, v => BitVec.ofNat 8 v :: natLE n (v / 256)

/-- The number whose big-endian bytes are given (fields of IP and UDP headers). -/
def beNat (bs : List Byte) : Nat := leNat bs.reverse

/-- The 16-, 32- or 64-bit field at byte `off` of a structure held as bytes. -/
def leAt (bs : List Byte) (off len : Nat) : Nat := leNat ((bs.drop off).take len)

/-- A number read as two's complement of `n` bits (R11). -/
def signed (n v : Nat) : Int :=
  if v % 2 ^ n < 2 ^ (n - 1) then ((v % 2 ^ n : Nat) : Int) else ((v % 2 ^ n : Nat) : Int) - 2 ^ n

/-- The `n`-bit two's complement encoding of an integer. -/
def unsigned (n : Nat) (v : Int) : Nat := (v % (2 ^ n : Nat)).toNat

/-- Quotient rounded up. -/
def ceilDiv (a b : Nat) : Nat := (a + b - 1) / b

/-- `a` rounded up to a multiple of `b`. -/
def roundUp (a b : Nat) : Nat := ceilDiv a b * b

/-- A counter saturates at all ones (R21). -/
def cntAdd {w : Nat} (c : BitVec w) (n : Nat) : BitVec w := BitVec.ofNat w (min (c.toNat + n) (2 ^ w - 1))

/-- A counter counts one event (R21). -/
def cntInc {w : Nat} (c : BitVec w) : BitVec w := cntAdd c 1

/-- A counter counts one event if the condition holds. -/
def cntIf {w : Nat} (b : Bool) (c : BitVec w) : BitVec w := if b then cntInc c else c

/-- Do the byte spans `[a, a + la)` and `[b, b + lb)` share a byte? -/
def overlaps (a la b lb : Nat) : Bool := decide (0 < la) && decide (0 < lb) && decide (a < b + lb) && decide (b < a + la)

/-- Does `[a, a + la)` lie within `[b, b + lb)`? -/
def spanIn (a la b lb : Nat) : Bool := decide (b ≤ a) && decide (a + la ≤ b + lb)

/-- The indices of the set bits of `w` among `0 … n - 1`, ascending. -/
def setBitsOf (w n : Nat) : List Nat := (List.range n).filter (bitAt w)

/-- The number of set bits of `w` among `0 … n - 1`. -/
def popcount (w n : Nat) : Nat := (setBitsOf w n).length

/-- A number with exactly the listed bits set. -/
def maskOf (l : List Nat) : Nat := l.foldl (fun a i => a ||| 2 ^ i) 0

/-- Replace element `i` of a list, if it exists. -/
def setAt {α : Type} : List α → Nat → α → List α
  | [], _, _ => []
  | _ :: xs, 0, v => v :: xs
  | x :: xs, i + 1, v => x :: setAt xs i v

/-- Change element `i` of a list, if it exists. -/
def modAt {α : Type} (f : α → α) : List α → Nat → List α
  | [], _ => []
  | x :: xs, 0 => f x :: xs
  | x :: xs, i + 1 => x :: modAt f xs i

/-- The least element of a list by a measure. -/
def minBy {α : Type} (f : α → Nat) : List α → Option α
  | [] => none
  | x :: xs => match minBy f xs with
    | none => some x
    | some y => if f x ≤ f y then some x else some y

/-- Left fold over `0 … n - 1`. -/
def foldRange {σ : Type} (n : Nat) (s : σ) (f : Nat → σ → σ) : σ := (List.range n).foldl (fun s i => f i s) s

end Sys2Proof.Machine
end

