-- ==== Sys2Proof/Machine/Num.lean ====
section
/-! DEFINITION. The number formats of R69, their encodings, rounding (R77 to R80) and exact arithmetic on their values.
A value is held exactly, as a dyadic number, and rounded where the spec rounds. -/

namespace Sys2Proof.Machine

open Sys2Proof

/-- A value of a number format: not a number, an infinity, or `(-1)^neg * m * 2^e`. -/
inductive Fl where
  | nan
  | inf (neg : Bool)
  | fin (neg : Bool) (m : Nat) (e : Int)
  deriving DecidableEq, Repr

/-- The layout of a format: exponent and mantissa widths, bias, and how non-finite values are encoded. -/
structure FmtSpec where
  /-- exponent bits -/
  eb : Nat
  /-- mantissa bits -/
  mb : Nat
  /-- exponent bias -/
  bias : Nat
  /-- 0: IEEE infinities and NaN; 1: NaN only, all ones (E4M3); 2: neither (E2M1) -/
  kind : Nat
  deriving DecidableEq, Repr

/-- FP32 (R69 code 0). -/
def fp32 : FmtSpec := ⟨8, 23, 127, 0⟩
/-- FP16 (R69 code 1). -/
def fp16 : FmtSpec := ⟨5, 10, 15, 0⟩
/-- BF16 (R69 code 2). -/
def bf16 : FmtSpec := ⟨8, 7, 127, 0⟩
/-- E4M3 (R69 code 3). -/
def e4m3 : FmtSpec := ⟨4, 3, 7, 1⟩
/-- E5M2 (R69 code 4). -/
def e5m2 : FmtSpec := ⟨5, 2, 15, 0⟩
/-- The E2M1 element of MXFP4 (R69 code 7). -/
def e2m1 : FmtSpec := ⟨2, 1, 1, 2⟩
/-- FP64, of the clamp record's sum of squares (R350). -/
def fp64 : FmtSpec := ⟨11, 52, 1023, 0⟩

/-- The element layout of a format code (R69). -/
def fmtSpec (code : Nat) : FmtSpec :=
  match code with
  | 0 => fp32 | 1 => fp16 | 2 => bf16 | 3 => e4m3 | 4 => e5m2 | 5 => e4m3 | 6 => e5m2 | 7 => e2m1 | _ => fp32

/-- The element width of a format code in bits (R69). -/
def fmtBits (code : Nat) : Nat :=
  match code with
  | 0 => 32 | 1 => 16 | 2 => 16 | 7 => 4 | _ => 8

/-- Is the format a microscaling block format (R69 codes 5 to 7)? -/
def fmtMx (code : Nat) : Bool := code == 5 || code == 6 || code == 7

/-- The value an encoding stands for (R69 to R71). -/
def decodeFl (f : FmtSpec) (w : Nat) : Fl :=
  let s := bitAt w (f.eb + f.mb)
  let e := bits w f.mb f.eb
  let m := bits w 0 f.mb
  let top := 2 ^ f.eb - 1
  if f.kind = 0 ∧ e = top then (if m = 0 then .inf s else .nan)
  else if f.kind = 1 ∧ e = top ∧ m = 2 ^ f.mb - 1 then .nan
  else if e = 0 then .fin s m (1 - (f.bias : Int) - f.mb)
  else .fin s (m + 2 ^ f.mb) ((e : Int) - f.bias - f.mb)

/-- The canonical NaN of a format (R71). -/
def nanBits (f : FmtSpec) : Nat :=
  if f.kind = 0 then (2 ^ f.eb - 1) * 2 ^ f.mb + 2 ^ (f.mb - 1) else 2 ^ (f.eb + f.mb) - 1

/-- The magnitude encoding of the largest finite value of a format. -/
def maxFinite (f : FmtSpec) : Nat :=
  match f.kind with
  | 0 => (2 ^ f.eb - 1) * 2 ^ f.mb - 1
  | 1 => 2 ^ (f.eb + f.mb) - 2
  | _ => 2 ^ (f.eb + f.mb) - 1

/-- The magnitude encoding of an overflow: infinity, or NaN where there is none (R80). -/
def overBits (f : FmtSpec) : Nat := if f.kind = 0 then (2 ^ f.eb - 1) * 2 ^ f.mb else nanBits f

/-- The magnitude encoding nearest to `m * 2^e` in the direction the rounding takes: round to nearest, ties to even
(`w = none`, R77), or stochastic rounding by the random word (`w = some`, R78). Overflow follows R80. -/
def roundMag (f : FmtSpec) (w : Option Nat) (m : Nat) (e : Int) : Nat :=
  if m = 0 then 0 else
  let qmin : Int := 1 - (f.bias : Int) - f.mb
  let q : Int := max ((Nat.log2 m : Int) + e - f.mb) qmin
  let enc (n : Nat) : Nat := (q - qmin).toNat * 2 ^ f.mb + n
  if q ≤ e then
    let b := enc (m <<< (e - q).toNat)
    if maxFinite f < b then overBits f else b
  else
    let d := (q - e).toNat
    let n := m >>> d
    let r := m % 2 ^ d
    match w with
    | none =>
      let up := decide (2 ^ d < 2 * r) || (decide (2 ^ d = 2 * r) && n % 2 == 1)
      let b := enc (if up then n + 1 else n)
      if maxFinite f < b then overBits f else b
    | some w =>
      let lo := enc n
      if maxFinite f < lo ∨ (lo = maxFinite f ∧ r ≠ 0) then overBits f
      else if r ≠ 0 ∧ 2 ^ 32 ≤ (r * 2 ^ 32) >>> d + w then lo + 1 else lo

/-- The conversion of a value to a format (R77 to R80); zero keeps its sign (R72). -/
def encodeFl (f : FmtSpec) (w : Option Nat) : Fl → Nat
  | .nan => nanBits f
  | .inf s => if f.kind = 0 then b2n s * 2 ^ (f.eb + f.mb) + overBits f else nanBits f
  | .fin s m e =>
    let b := roundMag f w m e
    if f.kind ≠ 0 ∧ maxFinite f < b then nanBits f else b2n s * 2 ^ (f.eb + f.mb) + b

/-- A value rounded to a format, RNE. -/
def rnd (f : FmtSpec) (x : Fl) : Fl := decodeFl f (encodeFl f none x)

/-- A value rounded to FP32, RNE (R77). -/
def r32 (x : Fl) : Fl := rnd fp32 x

/-- The FP32 value of an encoding. -/
def f32 (w : Nat) : Fl := decodeFl fp32 w

/-- The FP32 encoding of a value. -/
def to32 (x : Fl) : Nat := encodeFl fp32 none x

/-- +0. -/
def Fl.zero : Fl := .fin false 0 0
/-- 1. -/
def Fl.one : Fl := .fin false 1 0
/-- A natural number as a value. -/
def Fl.ofNat (n : Nat) : Fl := .fin false n 0
/-- The integer `v` times `2^e` as a value, zero positive. -/
def Fl.ofInt (v : Int) (e : Int) : Fl := .fin (decide (v < 0)) v.natAbs e

/-- Sign change. -/
def Fl.neg : Fl → Fl
  | .nan => .nan
  | .inf s => .inf (!s)
  | .fin s m e => .fin (!s) m e

/-- Magnitude. -/
def Fl.abs : Fl → Fl
  | .nan => .nan
  | .inf _ => .inf false
  | .fin _ m e => .fin false m e

/-- Is the value NaN? -/
def Fl.isNan : Fl → Bool
  | .nan => true
  | _ => false

/-- Is the value infinite or NaN? -/
def Fl.nonFinite : Fl → Bool
  | .fin _ _ _ => false
  | _ => true

/-- Is the value a zero? -/
def Fl.isZero : Fl → Bool
  | .fin _ 0 _ => true
  | _ => false

/-- The signed integer `v` with `v * 2^e0` the value, for `e0 ≤ e`. -/
def scaled (s : Bool) (m : Nat) (e e0 : Int) : Int :=
  let v : Int := (m <<< (e - e0).toNat : Nat)
  if s then -v else v

/-- Exact sum; opposite infinities give NaN and `x + (-x)` is +0 (R72, R92). -/
def Fl.add : Fl → Fl → Fl
  | .nan, _ => .nan
  | _, .nan => .nan
  | .inf a, .inf b => if a = b then .inf a else .nan
  | .inf a, _ => .inf a
  | _, .inf b => .inf b
  | .fin s m e, .fin s' m' e' =>
    if m = 0 ∧ m' = 0 then .fin (s && s') 0 0
    else if m = 0 then .fin s' m' e'
    else if m' = 0 then .fin s m e
    else
      let e0 := min e e'
      Fl.ofInt (scaled s m e e0 + scaled s' m' e' e0) e0

/-- Exact difference. -/
def Fl.sub (x y : Fl) : Fl := x.add y.neg

/-- Exact product; infinity times zero is NaN (R72). -/
def Fl.mul : Fl → Fl → Fl
  | .nan, _ => .nan
  | _, .nan => .nan
  | .inf a, .inf b => .inf (a != b)
  | .inf a, .fin s m _ => if m = 0 then .nan else .inf (a != s)
  | .fin s m _, .inf b => if m = 0 then .nan else .inf (s != b)
  | .fin s m e, .fin s' m' e' => .fin (s != s') (m * m') (e + e')

/-- The value times a power of two. -/
def Fl.scale2 : Fl → Int → Fl
  | .fin s m e, k => .fin s m (e + k)
  | x, _ => x

/-- `x < y` for values neither of which is NaN; the zeros are equal. -/
def Fl.lt : Fl → Fl → Bool
  | .nan, _ => false
  | _, .nan => false
  | .inf a, .inf b => a && !b
  | .inf a, _ => a
  | _, .inf b => !b
  | .fin s m e, .fin s' m' e' =>
    let e0 := min e e'
    decide (scaled s m e e0 < scaled s' m' e' e0)

/-- Larger of two values: NaN if either is NaN, +0 above -0 (R129). -/
def Fl.max (x y : Fl) : Fl :=
  if x.isNan || y.isNan then .nan
  else if x.isZero && y.isZero then (match x with | .fin true _ _ => y | _ => x)
  else if x.lt y then y else x

/-- Smaller of two values: NaN if either is NaN, -0 below +0 (R129). -/
def Fl.min (x y : Fl) : Fl :=
  if x.isNan || y.isNan then .nan
  else if x.isZero && y.isZero then (match x with | .fin true _ _ => x | _ => y)
  else if y.lt x then y else x

/-- FP32 sum, one RNE rounding. -/
def add32 (x y : Fl) : Fl := r32 (x.add y)
/-- FP32 difference, one RNE rounding. -/
def sub32 (x y : Fl) : Fl := r32 (x.sub y)
/-- FP32 product, one RNE rounding. -/
def mul32 (x y : Fl) : Fl := r32 (x.mul y)
/-- FP32 fused multiply-add, one RNE rounding. -/
def fma32 (x y z : Fl) : Fl := r32 ((x.mul y).add z)

/-- A ratio of naturals times `2^e`, as a dyadic number that rounds as the ratio does in every format of at most 60
significant bits: 128 quotient bits and a sticky bit. -/
def ratio (s : Bool) (n d : Nat) (e : Int) : Fl :=
  if d = 0 then .inf s else if n = 0 then .fin s 0 0 else
  let k := 128 + Nat.log2 d
  let q := (n <<< k) / d
  let r := (n <<< k) % d
  .fin s (2 * q + (if r = 0 then 0 else 1)) (e - k - 1)

/-- Quotient to be rounded; the special cases are those of R133. -/
def Fl.div : Fl → Fl → Fl
  | .nan, _ => .nan
  | _, .nan => .nan
  | .inf _, .inf _ => .nan
  | .inf a, .fin s _ _ => .inf (a != s)
  | .fin s _ _, .inf b => .fin (s != b) 0 0
  | .fin s m e, .fin s' m' e' =>
    if m' = 0 then (if m = 0 then .nan else .inf (s != s')) else ratio (s != s') m m' (e - e')

/-- Correctly rounded FP32 quotient. -/
def div32 (x y : Fl) : Fl := r32 (x.div y)

/-- Integer square root, one result bit a round. -/
def isqrtGo (n : Nat) : Nat → Nat → Nat
  | 0, r => r
  | i + 1, r => let c := r + 2 ^ i; isqrtGo n i (if c * c ≤ n then c else r)

/-- The largest number whose square is at most `n`. -/
def isqrt (n : Nat) : Nat := isqrtGo n (Nat.log2 n / 2 + 1) 0

/-- Square root to be rounded; the special cases are those of R133. -/
def Fl.sqrt : Fl → Fl
  | .nan => .nan
  | .inf s => if s then .nan else .inf false
  | .fin s m e =>
    if m = 0 then .fin s 0 0 else if s then .nan else
    let m' := if e % 2 = 0 then m else 2 * m
    let e' := if e % 2 = 0 then e else e - 1
    let n := m' <<< 128
    let r := isqrt n
    .fin false (2 * r + (if r * r = n then 0 else 1)) ((e' - 128) / 2 - 1)

/-- Reciprocal square root to be rounded, before the error of R129; the special cases are those of R133. -/
def Fl.rsqrt : Fl → Fl
  | .nan => .nan
  | .inf s => if s then .nan else .fin false 0 0
  | .fin s m e =>
    if m = 0 then .inf s else if s then .nan else
    let m' := if e % 2 = 0 then m else 2 * m
    let e' := if e % 2 = 0 then e else e - 1
    let k := 2 * (Nat.log2 m' + 64)
    let r := isqrt ((1 <<< (2 * k)) / m')
    .fin false (2 * r + (if m' * (r * r) = 1 <<< (2 * k) then 0 else 1)) (-(k : Int) - e' / 2 - 1)

/-! ### Bounded-error functions: an FP32 value within the bound of the exact one, chosen by nothing the spec fixes. -/

/-- Place on the line of FP32 values of the largest magnitude at most `m * 2^e`, and whether it is smaller. The infinity takes the
place after the largest finite value, as 2^128. -/
def magPlace (m : Nat) (e : Int) : Nat × Bool :=
  if m = 0 then (0, false) else
  let q : Int := max ((Nat.log2 m : Int) + e - 23) (-149)
  let p : Nat × Bool := if q ≤ e then (m <<< (e - q).toNat, false) else (m >>> (q - e).toNat, m % 2 ^ (q - e).toNat != 0)
  let b := (q + 149).toNat * 2 ^ 23 + p.1
  if overBits fp32 ≤ b then (overBits fp32, false) else (b, p.2)

/-- Place of the largest FP32 value at most `x`; the infinities and NaN do not occur. -/
def floorPlace : Fl → Int
  | .fin false m e => ((magPlace m e).1 : Int)
  | .fin true m e => -(((magPlace m e).1 + b2n (magPlace m e).2 : Nat) : Int)
  | _ => 0

/-- The encoding at a place; the zero takes the sign given. -/
def placeEnc (neg : Bool) (k : Int) : Nat := if k = 0 then b2n neg * 2 ^ 31 else if k < 0 then 2 ^ 31 + k.natAbs else k.natAbs

/-- The larger of `ulp` units in the last place of `m * 2^e` and an absolute bound `2^-ab` (0: none) (R96). -/
def errBound (ulp ab m : Nat) (e : Int) : Fl :=
  let u : Fl := .fin false ulp ((if m = 0 then -126 else max ((Nat.log2 m : Int) + e) (-126)) - 23)
  if ab = 0 then u else u.max (.fin false 1 (-(ab : Int)))

/-- A result within the bounds of the exact value `y` (R96, R129): any FP32 value there, chosen by nothing the spec fixes. A value that
is too large is an infinity (R72, R80). -/
def withinBounds (fn ulp ab x : Nat) (y : Fl) : Fl :=
  match r32 y, y with
  | .fin _ _ _, .fin s m e =>
    let b := errBound ulp ab m e
    let lo := -(floorPlace (y.sub b).neg)
    let n := (floorPlace (y.add b) - lo + 1).toNat
    f32 (placeEnc s (lo + ((Config.ulpOffset fn x ulp % max 1 n : Nat) : Int)))
  | r, _ => r

/-- A result within `bound` units of the exact value (R129). -/
def withinUlp (fn bound x : Nat) (y : Fl) : Fl := withinBounds fn bound 0 x y

/-- RECIP, within 1 unit (R129); special cases exact (R133). -/
def recip32 (x : Fl) : Fl :=
  match x with
  | .fin _ (_ + 1) _ => withinUlp 1 1 (to32 x) (Fl.one.div x)
  | _ => r32 (Fl.one.div x)

/-- RSQRT, within 1 unit (R129); special cases exact (R133). -/
def rsqrt32 (x : Fl) : Fl :=
  match x with
  | .fin false (_ + 1) _ => withinUlp 2 1 (to32 x) x.rsqrt
  | _ => r32 x.rsqrt

/-- DIV, within 2 units (R129); special cases exact (R133). -/
def divVec32 (x y : Fl) : Fl :=
  match x, y with
  | .fin _ (_ + 1) _, .fin _ (_ + 1) _ => withinUlp 3 2 (to32 x * 2 ^ 32 + to32 y) (x.div y)
  | _, _ => r32 (x.div y)

/-- SQRT, correctly rounded (R129). -/
def sqrt32 (x : Fl) : Fl := r32 x.sqrt

/-! ### Reference values of the transcendental functions in fixed point of 160 fraction bits. -/

/-- Fraction bits of the fixed point. -/
def fxP : Nat := 160
/-- One. -/
def fxOne : Int := ((1 <<< 160 : Nat) : Int)
/-- ln 2. -/
def fxLn2 : Int := 1013035739299659071135698605846798551586536899366
/-- The density of the standard normal distribution at 0. -/
def fxPhi0 : Int := 583054796007218040734191730443699882195345907504
/-- The square root of 2. -/
def fxSqrt2 : Int := 2066875436943847413332748968013809022504194195829
/-- Twice the reciprocal square root of π. -/
def fxErfC : Int := 1649128000240172121335468122222580532118151184855

/-- Product in fixed point. -/
def fxMul (a b : Int) : Int := a * b / fxOne
/-- Quotient in fixed point. -/
def fxDiv (a b : Int) : Int := if b = 0 then 0 else a * fxOne / b

/-- A finite value in fixed point, clamped to magnitude 2^10. -/
def toFx : Fl → Int
  | .fin s m e =>
    if m = 0 then 0 else
    let v : Int := if 10 < (Nat.log2 m : Int) + e then ((1 <<< 170 : Nat) : Int)
      else
        let k := e + fxP
        if 0 ≤ k then ((m <<< k.toNat : Nat) : Int) else ((m >>> (-k).toNat : Nat) : Int)
    if s then -v else v
  | .inf s => if s then -((1 <<< 170 : Nat) : Int) else ((1 <<< 170 : Nat) : Int)
  | .nan => 0

/-- A fixed-point number as a value. -/
def ofFx (v : Int) : Fl := Fl.ofInt v (-(fxP : Int))

/-- The Taylor sum of `e^r`, terms `n … n + fuel`. -/
def expTaylor (r : Int) : Nat → Nat → Int → Int → Int
  | 0, _, _, acc => acc
  | k + 1, n, t, acc => let t' := fxMul t r / (n : Int); expTaylor r k (n + 1) t' (acc + t')

/-- `e^x` for fixed-point `x`: a fixed-point mantissa and a power of two. -/
def fxExp (x : Int) : Int × Int :=
  let n := x / fxLn2
  let r := x - n * fxLn2
  (expTaylor r 40 1 fxOne fxOne, n)

/-- `e^x` as a fixed-point number. -/
def fxExpFx (x : Int) : Int :=
  let p := fxExp x
  if 0 ≤ p.2 then p.1 * ((1 <<< p.2.toNat : Nat) : Int) else p.1 / ((1 <<< (-p.2).toNat : Nat) : Int)

/-- Is the magnitude of a finite value below `2^k`? -/
def below2 (x : Fl) (k : Int) : Bool :=
  match x with
  | .fin _ m e => m = 0 || decide ((Nat.log2 m : Int) + e < k)
  | _ => false

/-- `e^x` to be rounded. -/
def Fl.exp (x : Fl) : Fl :=
  match x with
  | .nan => .nan
  | .inf s => if s then .fin false 0 0 else .inf false
  | .fin _ _ _ => let p := fxExp (toFx x); Fl.ofInt p.1 (p.2 - fxP)

/-- The sum of the odd series of the logarithm. -/
def logSeries (y2 : Int) : Nat → Nat → Int → Int → Int
  | 0, _, _, acc => acc
  | k + 1, n, t, acc => logSeries y2 k (n + 2) (fxMul t y2) (acc + t / (n : Int))

/-- `ln x` to be rounded; the special cases are those of R133. -/
def Fl.ln : Fl → Fl
  | .nan => .nan
  | .inf s => if s then .nan else .inf false
  | .fin s m e =>
    if m = 0 then .inf true else if s then .nan else
    let l := Nat.log2 m
    let v : Int := if l ≤ fxP then ((m <<< (fxP - l) : Nat) : Int) else ((m >>> (l - fxP) : Nat) : Int)
    let k : Int := (l : Int) + e
    let v' := if 2 * v > 3 * fxOne then v / 2 else v
    let k' := if 2 * v > 3 * fxOne then k + 1 else k
    let y := fxDiv (v' - fxOne) (v' + fxOne)
    ofFx (2 * logSeries (fxMul y y) 80 1 y 0 + k' * fxLn2)

/-- The standard logistic function of a fixed-point number, as a ratio of positive numbers. -/
def fxSigmoid (x : Int) : Fl :=
  let c := 200 * fxOne
  let x := max (-c) (min c x)
  let d := fxOne + fxExpFx (-x)
  ratio false fxOne.natAbs d.natAbs 0

/-- The error-function series. -/
def erfSeries (z2 : Int) : Nat → Nat → Int → Int → Int
  | 0, _, _, acc => acc
  | k + 1, n, t, acc => erfSeries z2 k (n + 1) (-(fxMul t z2 / ((n : Int) + 1))) (acc + t / (2 * (n : Int) + 1))

/-- The standard normal distribution function: 0 or 1 beyond 8 (R96). -/
def fxPhi (x : Int) : Int :=
  if 8 * fxOne < x then fxOne else if x < -(8 * fxOne) then 0 else
  let z := fxDiv x fxSqrt2
  (fxOne + fxMul fxErfC (erfSeries (fxMul z z) 200 0 z 0)) / 2

/-- The standard normal density. -/
def fxDens (x : Int) : Int :=
  if 16 * fxOne < x.natAbs then 0 else fxMul fxPhi0 (fxExpFx (-(fxMul x x) / 2))

/-- The hyperbolic tangent in fixed point. -/
def fxTanh (x : Int) : Int :=
  let c := 100 * fxOne
  let x := max (-c) (min c x)
  let u := fxExpFx (-2 * (x.natAbs : Int))
  let t := fxDiv (fxOne - u) (fxOne + u)
  if x < 0 then -t else t

/-- Is the exponent of a finite value so small that the leading terms of a series give every bit? -/
def tiny (x : Fl) : Bool := below2 x (-30)

/-- `x (1 - x^2 / 3)`, the leading terms of the hyperbolic tangent. -/
def tanhSmall (x : Fl) : Fl := x.sub ((x.mul (x.mul x)).div (Fl.ofNat 3))

/-- The constant c of GELU_TANH (R96). -/
def geluC : Fl := f32 0x3F4C422A

/-- An FP32 constant of a function's definition: the decimal `n / d` rounded to FP32 (R96). -/
def dec32 (n d : Nat) : Fl := r32 (ratio false n d 0)

/-- The reference value of f of R96 at a finite FP32 input, to be rounded; `leak` is the slope of LEAKY_RELU. -/
def fnRef (fn : Nat) (leak x : Fl) : Fl :=
  let pos := Fl.zero.lt x
  let fx := toFx x
  match fn with
  | 0 => x
  | 1 => if pos then x else .zero
  | 2 => if pos then x else leak.mul x
  | 3 => if pos then x.mul x else .zero
  | 4 => x.exp
  | 5 => fxSigmoid fx
  | 6 => if tiny x then tanhSmall x else ofFx (fxTanh fx)
  | 7 => x.mul (fxSigmoid fx)
  | 8 => x.mul (ofFx (fxPhi fx))
  | 9 =>
    let v := (geluC.mul (x.add ((dec32 44715 1000000).mul (x.mul (x.mul x)))))
    (x.mul (ofFx (fxOne + fxTanh (toFx v)))).scale2 (-1)
  | _ => .nan

/-- The reference value of f′ of R96 at a finite FP32 input, to be rounded. -/
def fnDerRef (fn : Nat) (leak x : Fl) : Fl :=
  let pos := Fl.zero.lt x
  let fx := toFx x
  match fn with
  | 0 => .one
  | 1 => if pos then .one else .zero
  | 2 => if pos then .one else leak
  | 3 => if pos then x.scale2 1 else .zero
  | 4 => x.exp
  | 5 => (fxSigmoid fx).mul (fxSigmoid (-fx))
  | 6 => let u := fxExpFx (-2 * (min (200 * fxOne) (fx.natAbs : Int)))
         let d := fxOne + u
         ratio false (4 * u * fxOne).natAbs (d * d).natAbs 0
  | 7 => (fxSigmoid fx).mul (Fl.one.add (x.mul (fxSigmoid (-fx))))
  | 8 => (ofFx (fxPhi fx)).add (x.mul (ofFx (fxDens fx)))
  | 9 =>
    let v := (geluC.mul (x.add ((dec32 44715 1000000).mul (x.mul (x.mul x)))))
    let t := fxTanh (toFx v)
    let s2 := ofFx (fxOne - fxMul t t)
    ((ofFx (fxOne + t)).add (if s2.isZero then .zero else
      (x.mul s2).mul (geluC.mul (Fl.one.add ((dec32 134145 1000000).mul (x.mul x)))))).scale2 (-1)
  | _ => .nan

/-- The bound of f in units (R96). -/
def fnUlp (fn : Nat) : Nat :=
  match fn with
  | 4 => 2 | 5 => 3 | 6 => 4 | 7 => 4 | 8 => 4 | 9 => 6 | _ => 0

/-- The bound of f′ in units (R96). -/
def fnDerUlp (fn : Nat) : Nat :=
  match fn with
  | 4 => 2 | 5 => 7 | 6 => 6 | 7 => 8 | 8 => 6 | 9 => 8 | _ => 0

/-- The absolute bound of f, as a negated power of two; 0 where there is none that could exceed the bound in units (R96). -/
def fnAbs (fn : Nat) : Nat :=
  match fn with
  | 7 => 147 | 8 => 24 | 9 => 23 | _ => 0

/-- The absolute bound of f′ (R96). -/
def fnDerAbs (fn : Nat) : Nat :=
  match fn with
  | 5 => 147 | 6 => 147 | 7 => 22 | 8 => 22 | 9 => 22 | _ => 0

/-- f of R96 with its non-finite inputs (R97). -/
def applyFn (fn : Nat) (leak x : Fl) : Fl :=
  match x with
  | .nan => .nan
  | .inf false => (match fn with | 5 => .one | 6 => .one | _ => .inf false)
  | .inf true =>
    (match fn with
     | 0 => .inf true | 2 => r32 (leak.mul (.inf true)) | 6 => Fl.one.neg
     | 7 => .fin true 0 0 | 8 => .fin true 0 0 | 9 => .fin true 0 0 | _ => .zero)
  | .fin _ _ _ =>
    if fn < 4 then r32 (fnRef fn leak x) else withinBounds (16 + fn) (fnUlp fn) (fnAbs fn) (to32 x) (fnRef fn leak x)

/-- f′ of R96 with its non-finite inputs (R97). -/
def applyFnDer (fn : Nat) (leak x : Fl) : Fl :=
  match x with
  | .nan => .nan
  | .inf false => (match fn with | 3 => .inf false | 4 => .inf false | 5 => .zero | 6 => .zero | _ => .one)
  | .inf true => (match fn with | 0 => .one | 2 => leak | _ => .zero)
  | .fin _ _ _ =>
    if fn < 4 then r32 (fnDerRef fn leak x)
    else withinBounds (32 + fn) (fnDerUlp fn) (fnDerAbs fn) (to32 x) (fnDerRef fn leak x)

/-- EXP as the drain and the row engine use it (R96, R99, R138). -/
def exp32 (x : Fl) : Fl := applyFn 4 .zero x

/-- LOG, within 2 units, exact at 1 and in the special cases (R129, R133). -/
def log32 (x : Fl) : Fl :=
  match x with
  | .fin false (_ + 1) _ => if to32 x = 0x3F800000 then .zero else withinUlp 4 2 (to32 x) x.ln
  | _ => r32 x.ln

/-! ### Sums in a fixed order -/

/-- One level of the pairwise tree: adjacent values added, FP32 RNE. -/
def pairLevel : List Fl → List Fl
  | x :: y :: t => add32 x y :: pairLevel t
  | l => l

/-- `n` levels of the pairwise tree. -/
def pairTree : Nat → List Fl → List Fl
  | 0, l => l
  | n + 1, l => pairTree n (pairLevel l)

/-- The sum of at most 64 values in the pairwise tree of R99, missing positions +0. -/
def sum64 (l : List Fl) : Fl := ((pairTree 6 (l ++ List.replicate (64 - l.length) .zero)).head?).getD .zero

/-- Cut a list into chunks of `n`. -/
def chunksOf {α : Type} (n : Nat) : Nat → List α → List (List α)
  | 0, _ => []
  | _, [] => []
  | f + 1, l => l.take n :: chunksOf n f (l.drop n)

/-- The row summation order of R130. -/
def rowSum (l : List Fl) : Fl :=
  match (chunksOf 64 (l.length + 1) l).map sum64 with
  | [] => .zero
  | c :: cs => cs.foldl add32 c

/-- The largest of a list, NaN if any is NaN; -∞ for the empty list (R99). -/
def maxOf (l : List Fl) : Fl := l.foldl Fl.max (.inf true)

/-! ### Microscaling blocks -/

/-- The value of an E8M0 scale (R69, R73). -/
def scaleVal (b : Nat) : Option Int := if b = 0xFF then none else some ((b : Int) - 127)

/-- The value of an MX element under its block scale (R73). -/
def mxValue (code elem scale : Nat) : Fl :=
  match scaleVal scale with
  | none => .nan
  | some k => (decodeFl (fmtSpec code) elem).scale2 k

/-- Is `amax * 2^-x` at most the largest finite element value? -/
def mxFits (f : FmtSpec) (m : Nat) (e x : Int) : Bool :=
  match decodeFl f (maxFinite f) with
  | .fin _ mm me => !(Fl.lt (.fin false mm me) (.fin false m (e - x)))
  | _ => false

/-- The block's scale exponent: the smallest that fits, not below -127 (R75); found among the two candidates that the
leading bits leave. -/
def mxScaleExp (f : FmtSpec) (m : Nat) (e : Int) : Int :=
  let top : Int := match decodeFl f (maxFinite f) with
    | .fin _ mm me => (Nat.log2 mm : Int) + me
    | _ => 0
  let x := (Nat.log2 m : Int) + e - top
  max (-127) (if mxFits f m e x then x else x + 1)

/-- An output block of at most 32 values: its scale byte and element encodings (R75). -/
def mxBlock (code : Nat) (rndW : Nat → Option Nat) (vs : List Fl) : Nat × List Nat :=
  let f := fmtSpec code
  if vs.any Fl.nonFinite then (0xFF, vs.map (fun _ => 0)) else
  match maxOf (vs.map Fl.abs) with
  | .fin _ (m + 1) e =>
    let x := mxScaleExp f (m + 1) e
    ((x + 127).toNat, vs.mapIdx (fun i v => encodeFl f (rndW i) (v.scale2 (-x))))
  | _ => (0, vs.map (fun v => encodeFl f none v))

end Sys2Proof.Machine
end

