-- ==== Sys2Proof/Machine/Operands.lean ====
section
/-! DEFINITION. The operand layouts of the bench engines: the descriptors of R85, R120, R127 and R136 and the matrix
layouts of R88, read from little-endian words (R12). -/

namespace Sys2Proof.Machine

open Sys2Proof

/-- Row pitch of a matrix of `cols` elements of a format (R88). -/
def pitchOf (fmt cols : Nat) : Nat := roundUp (ceilDiv (cols * fmtBits fmt) 8) 64

/-- Row pitch of the scale array of a microscaling matrix (R88). -/
def scalePitch (cols : Nat) : Nat := roundUp (ceilDiv cols 32) 64

/-- Bytes of a matrix with its scale array, blocks along rows (R88). -/
def matLen (fmt rows cols : Nat) : Nat :=
  rows * pitchOf fmt cols + (if fmtMx fmt then rows * scalePitch cols else 0)

/-- Bytes of a B operand with its scale array, blocks along columns (R88). -/
def matLenB (fmt k n : Nat) : Nat :=
  k * pitchOf fmt n + (if fmtMx fmt then ceilDiv k 32 * roundUp n 64 else 0)

/-- The encoding of an element of a matrix at `base` with the given row pitch (R88). -/
def elemBits (rd : Nat → Byte) (fmt base pitch r c : Nat) : Nat :=
  let row := base + r * pitch
  match fmtBits fmt with
  | 4 => let b := (rd (row + c / 2)).toNat; if c % 2 = 0 then b % 16 else b / 16
  | 8 => (rd (row + c)).toNat
  | 16 => leNat [rd (row + 2 * c), rd (row + 2 * c + 1)]
  | _ => leNat [rd (row + 4 * c), rd (row + 4 * c + 1), rd (row + 4 * c + 2), rd (row + 4 * c + 3)]

/-- The value of an element of a matrix whose blocks, if any, run along rows (R73, R88). -/
def matVal (rd : Nat → Byte) (fmt base rows cols r c : Nat) : Fl :=
  let p := pitchOf fmt cols
  let b := elemBits rd fmt base p r c
  if fmtMx fmt then mxValue fmt b (rd (base + rows * p + r * scalePitch cols + c / 32)).toNat
  else decodeFl (fmtSpec fmt) b

/-- The value of an element of a B operand, whose blocks, if any, run along columns (R73, R88). -/
def matValB (rd : Nat → Byte) (fmt base k n r c : Nat) : Fl :=
  let p := pitchOf fmt n
  let b := elemBits rd fmt base p r c
  if fmtMx fmt then mxValue fmt b (rd (base + k * p + (r / 32) * roundUp n 64 + c)).toNat
  else decodeFl (fmtSpec fmt) b

/-- The word `i` of a structure of 64-bit words. -/
def wordAt (ws : List Nat) (i : Nat) : Nat := ws.getD i 0

/-- The 64-bit words of a structure held as bytes. -/
def wordsOf (bs : List Byte) : List Nat := (chunksOf 8 (bs.length + 1) bs).map leNat

/-- The matrix descriptor (R85). -/
structure MxDesc where
  fmtA : Nat
  fmtB : Nat
  fmtOut : Nat
  fmtAux : Nat
  func : Nat
  dmode : Nat
  sr : Bool
  partialOut : Bool
  biasEn : Bool
  biasFp32 : Bool
  residEn : Bool
  auxEn : Bool
  discardEn : Bool
  maskEn : Bool
  nPart : Nat
  m : Nat
  n : Nat
  k : Nat
  aOff : Nat
  bOff : Nat
  outOff : Nat
  biasOff : Nat
  auxOff : Nat
  residOff : Nat
  partOff : Nat
  discOff : Nat
  statsOff : Nat
  alpha : Nat
  leak : Nat
  partCtr : Nat
  maskOff : Int
  streamId : Nat
  /-- every reserved bit is zero -/
  resvOk : Bool
  deriving DecidableEq, Repr

/-- The matrix descriptor read from its words (R85). -/
def mxDescOf (ws : List Nat) : MxDesc :=
  let w := wordAt ws
  { fmtA := bits (w 0) 0 4, fmtB := bits (w 0) 4 4, fmtOut := bits (w 0) 8 4, fmtAux := bits (w 0) 12 4
    func := bits (w 0) 16 4, dmode := bits (w 0) 20 2, sr := bitAt (w 0) 22, partialOut := bitAt (w 0) 23
    biasEn := bitAt (w 0) 24, biasFp32 := bitAt (w 0) 25, residEn := bitAt (w 0) 26, auxEn := bitAt (w 0) 27
    discardEn := bitAt (w 0) 29, maskEn := bitAt (w 0) 30, nPart := bits (w 0) 32 4
    m := bits (w 1) 0 20, n := bits (w 1) 20 20, k := bits (w 1) 40 24
    aOff := bits (w 2) 0 21, bOff := bits (w 2) 21 21, outOff := bits (w 2) 42 21
    biasOff := bits (w 3) 0 21, auxOff := bits (w 3) 21 21, residOff := bits (w 3) 42 21
    partOff := bits (w 4) 0 21, discOff := bits (w 4) 21 21, statsOff := bits (w 4) 42 21
    alpha := bits (w 5) 0 32, leak := bits (w 5) 32 16, partCtr := bits (w 5) 48 10
    maskOff := signed 32 (bits (w 6) 0 32), streamId := bits (w 6) 32 16
    resvOk := !bitAt (w 0) 28 && !bitAt (w 0) 31 && bits (w 0) 36 28 == 0 && !bitAt (w 2) 63 && !bitAt (w 3) 63 &&
      !bitAt (w 4) 63 && bits (w 5) 58 6 == 0 && bits (w 6) 48 16 == 0 && w 7 == 0 }

/-- The bench DMA descriptor (R120). -/
structure DmaDesc where
  kind : Nat
  transpose : Bool
  elemW : Nat
  fmtSrc : Nat
  dowelChk : Bool
  dowelGen : Bool
  sigEn : Bool
  sigTgt : Nat
  sigCtr : Nat
  memAddr : Nat
  spadOff : Nat
  h : Nat
  w : Nat
  memPitch : Nat
  resvOk : Bool
  deriving DecidableEq, Repr

/-- The bench DMA descriptor read from its words (R120). -/
def dmaDescOf (ws : List Nat) : DmaDesc :=
  let w := wordAt ws
  { kind := bits (w 0) 0 4, transpose := bitAt (w 0) 4, elemW := bits (w 0) 5 2, fmtSrc := bits (w 0) 8 4
    dowelChk := bitAt (w 0) 12, dowelGen := bitAt (w 0) 13, sigEn := bitAt (w 0) 14, sigTgt := bits (w 0) 16 3
    sigCtr := bits (w 0) 19 12, memAddr := bits (w 1) 0 48, spadOff := bits (w 2) 0 21
    h := bits (w 3) 0 20, w := bits (w 3) 20 20, memPitch := bits (w 3) 40 24
    resvOk := !bitAt (w 0) 7 && !bitAt (w 0) 15 && bits (w 0) 31 33 == 0 && bits (w 1) 48 16 == 0 &&
      bits (w 2) 21 43 == 0 && w 4 == 0 && w 5 == 0 && w 6 == 0 && w 7 == 0 }

/-- The vector descriptor (R127). -/
structure VecDesc where
  op : Nat
  fmtA : Nat
  fmtB : Nat
  fmtC : Nat
  fmtD : Nat
  func : Nat
  sr : Bool
  maskFmt : Bool
  rowwise : Bool
  streamId : Nat
  rows : Nat
  cols : Nat
  aOff : Nat
  bOff : Nat
  cOff : Nat
  dOff : Nat
  maskOff : Nat
  cntOff : Nat
  scalar0 : Nat
  leak : Nat
  topkK : Nat
  listLen : Nat
  aRows : Nat
  resvOk : Bool
  deriving DecidableEq, Repr

/-- The vector descriptor read from its words (R127). -/
def vecDescOf (ws : List Nat) : VecDesc :=
  let w := wordAt ws
  { op := bits (w 0) 0 8, fmtA := bits (w 0) 8 4, fmtB := bits (w 0) 12 4, fmtC := bits (w 0) 16 4
    fmtD := bits (w 0) 20 4, func := bits (w 0) 24 4, sr := bitAt (w 0) 28, maskFmt := bitAt (w 0) 29
    rowwise := bitAt (w 0) 30, streamId := bits (w 0) 32 16, rows := bits (w 1) 0 20, cols := bits (w 1) 20 20
    aOff := bits (w 2) 0 21, bOff := bits (w 2) 21 21, cOff := bits (w 2) 42 21
    dOff := bits (w 3) 0 21, maskOff := bits (w 3) 21 21, cntOff := bits (w 3) 42 21
    scalar0 := bits (w 4) 0 32, leak := bits (w 4) 32 16, topkK := bits (w 4) 48 4
    listLen := bits (w 5) 0 32, aRows := bits (w 5) 32 20
    resvOk := !bitAt (w 0) 31 && bits (w 0) 48 16 == 0 && bits (w 1) 40 24 == 0 && !bitAt (w 2) 63 &&
      !bitAt (w 3) 63 && bits (w 4) 52 12 == 0 && bits (w 5) 52 12 == 0 && w 6 == 0 && w 7 == 0 }

/-- The row-engine descriptor (R136). -/
structure RowDesc where
  op : Nat
  fmtX : Nat
  fmtY : Nat
  fmtDy : Nat
  fmtG : Nat
  sr : Bool
  affine : Bool
  dgEn : Bool
  pIn : Bool
  streamId : Nat
  rows : Nat
  cols : Nat
  statBase : Nat
  xOff : Nat
  yOff : Nat
  dyOff : Nat
  gOff : Nat
  betaOff : Nat
  dgOff : Nat
  statsOff : Nat
  eps : Nat
  resvOk : Bool
  deriving DecidableEq, Repr

/-- The row-engine descriptor read from its words (R136). -/
def rowDescOf (ws : List Nat) : RowDesc :=
  let w := wordAt ws
  { op := bits (w 0) 0 4, fmtX := bits (w 0) 4 4, fmtY := bits (w 0) 8 4, fmtDy := bits (w 0) 12 4
    fmtG := bits (w 0) 16 4, sr := bitAt (w 0) 20, affine := bitAt (w 0) 21, dgEn := bitAt (w 0) 22
    pIn := bitAt (w 0) 23, streamId := bits (w 0) 32 16, rows := bits (w 1) 0 20, cols := bits (w 1) 20 20
    statBase := bits (w 1) 40 13, xOff := bits (w 2) 0 21, yOff := bits (w 2) 21 21, dyOff := bits (w 2) 42 21
    gOff := bits (w 3) 0 21, betaOff := bits (w 3) 21 21, dgOff := bits (w 3) 42 21, statsOff := bits (w 4) 0 21
    eps := bits (w 5) 0 32
    resvOk := bits (w 0) 24 8 == 0 && bits (w 0) 48 16 == 0 && bits (w 1) 53 11 == 0 && !bitAt (w 2) 63 &&
      !bitAt (w 3) 63 && bits (w 4) 21 43 == 0 && bits (w 5) 32 32 == 0 && w 6 == 0 && w 7 == 0 }

/-- A byte span of a scratchpad: offset and length. -/
abbrev Span := Nat × Nat

/-- Does a span lie within the 2 MiB scratchpad? -/
def spanFits (s : Span) : Bool := decide (s.1 + s.2 ≤ 0x200000)

/-- Do two spans share a byte? -/
def spansMeet (a b : Span) : Bool := overlaps a.1 a.2 b.1 b.2

/-- Does no written span meet a read span, but for the permitted pairs, nor another written span? -/
def spansApart (written reads : List Span) (permit : Span → Span → Bool) : Bool :=
  written.all (fun w => reads.all (fun r => !spansMeet w r || permit w r)) &&
  (List.range written.length).all (fun i => (List.range written.length).all (fun j =>
    i == j || !spansMeet (written.getD i (0, 0)) (written.getD j (0, 0))))

/-- Bytes of a row in memory: MX sources hold packed elements (R94, R121). -/
def dmaRowLen (d : DmaDesc) : Nat := if d.fmtSrc = 7 then ceilDiv d.w 2 else d.w * 2 ^ d.elemW

/-- The scratchpad span of a LOAD or STORE (R88, R93, R94, R121). -/
def dmaSpadSpan (d : DmaDesc) : Span :=
  if d.transpose then (d.spadOff, d.w * roundUp (d.h * (if d.fmtSrc = 0 then 2 ^ d.elemW else 2)) 64)
  else (d.spadOff, d.h * roundUp (d.w * 2 ^ d.elemW) 64)

/-- The scale rows of an MX source: their length and pitch (R94). -/
def dmaScaleLen (d : DmaDesc) : Nat := ceilDiv d.w 32
def dmaScalePitch (d : DmaDesc) : Nat := roundUp (ceilDiv d.w 32) 64

/-- The memory span that R125 checks. -/
def dmaMemLen (d : DmaDesc) : Nat :=
  if 2 ≤ d.kind then 8 * d.h
  else if d.fmtSrc ≠ 0 then d.h * d.memPitch + (d.h - 1) * dmaScalePitch d + dmaScaleLen d
  else (d.h - 1) * d.memPitch + dmaRowLen d

/-- Status codes of an engine task (R85 register table and 03 status registers). -/
def resOk : Nat := 0
def resBadOpcode : Nat := 1
def resLenRange : Nat := 2
def resAborted : Nat := 3
def resPoisoned : Nat := 4
def resCheckFail : Nat := 5
def resHostLost : Nat := 6

end Sys2Proof.Machine
end

