-- ==== Sys2Proof/Machine/Tab.lean ====
section
/-! DEFINITION. Sparse tables: lists of (key, value) pairs, sorted by key with no repeats, the one canonical form of every
sparse piece of state. -/

namespace Sys2Proof.Machine

/-- A sparse table by number. -/
abbrev Tab (α : Type) := List (Nat × α)

/-- The entry at a key, if there is one. -/
def tabFind {α : Type} : Tab α → Nat → Option α
  | [], _ => none
  | (k, v) :: t, q => if k = q then some v else tabFind t q

/-- The entry at a key, or the value an absent entry stands for. -/
def tabGet {α : Type} (d : α) (t : Tab α) (k : Nat) : α := (tabFind t k).getD d

/-- The table without a key. -/
def tabDel {α : Type} (t : Tab α) (k : Nat) : Tab α := t.filter (fun p => p.1 != k)

/-- A pair placed before the first greater key. -/
def tabIns {α : Type} (k : Nat) (v : α) : Tab α → Tab α
  | [] => [(k, v)]
  | (k', v') :: t => if k < k' then (k, v) :: (k', v') :: t else (k', v') :: tabIns k v t

/-- The table with an entry put at a key. -/
def tabPut {α : Type} (t : Tab α) (k : Nat) (v : α) : Tab α := tabIns k v (tabDel t k)

/-- The table with a value at a key, where `d` is what an absent entry stands for, so that no entry equals it. -/
def tabSet {α : Type} [DecidableEq α] (d : α) (t : Tab α) (k : Nat) (v : α) : Tab α :=
  if v = d then tabDel t k else tabPut t k v

/-- The table with the value at a key changed. -/
def tabMod {α : Type} [DecidableEq α] (d : α) (t : Tab α) (k : Nat) (f : α → α) : Tab α := tabSet d t k (f (tabGet d t k))

/-- The table with every listed value changed. -/
def tabMap {α : Type} [DecidableEq α] (d : α) (t : Tab α) (f : α → α) : Tab α :=
  (t.map (fun p => (p.1, f p.2))).filter (fun p => decide (p.2 ≠ d))

/-- Keys strictly rising. -/
def tabSorted {α : Type} : Tab α → Bool
  | [] => true
  | [_] => true
  | (a, _) :: (b, v) :: t => decide (a < b) && tabSorted ((b, v) :: t)

/-- The canonical form: keys strictly rising and no entry equal to what an absent one stands for. -/
def tabWf {α : Type} [DecidableEq α] (d : α) (t : Tab α) : Bool := tabSorted t && t.all (fun p => decide (p.2 ≠ d))

/-- The keys of a table. -/
def tabKeys {α : Type} (t : Tab α) : List Nat := t.map Prod.fst

/-- The least number below `n` that is no key. -/
def tabFree {α : Type} (t : Tab α) (n : Nat) : Option Nat := (List.range n).find? (fun k => (tabFind t k).isNone)

end Sys2Proof.Machine
end

