-- ==== Sys2Proof/Machine/MatrixEngine.lean ====
section
/-! DEFINITION. What a matrix task computes: checks (R86), accumulation (R89 to R92), drain (R95 to R99), stats (R100),
over the contents of one scratchpad. -/

namespace Sys2Proof.Machine

open Sys2Proof

/-- The contents of a scratchpad: bytes by offset, zero where nothing is listed (R119). -/
abbrev Spad := Tab Byte

/-- A byte of a scratchpad. -/
def spadRd (m : Spad) (o : Nat) : Byte := tabGet 0 m o

/-- Bytes of a scratchpad. -/
def spadRead (m : Spad) (o n : Nat) : List Byte := (List.range n).map (fun i => spadRd m (o + i))

/-- Bytes written to a scratchpad: the listed bytes of the span replaced by the non-zero ones of the run. -/
def spadWrite (m : Spad) (o : Nat) (bs : List Byte) : Spad :=
  m.filter (fun p => decide (p.1 < o)) ++
    ((bs.zipIdx.filter (fun p => p.1 != 0)).map (fun p => (o + p.2, p.1)) ++ m.filter (fun p => decide (o + bs.length ≤ p.1)))

/-- The sixteen-word view of a descriptor in the scratchpad. -/
def spadWords (m : Spad) (o : Nat) : List Nat := wordsOf (spadRead m o 64)

/-- One element written at a place of a matrix, nibbles merged into their byte (R88). -/
def spadPutElem (m : Spad) (fmt base pitch r c v : Nat) : Spad :=
  let row := base + r * pitch
  match fmtBits fmt with
  | 4 =>
    let o := row + c / 2
    let b := (spadRd m o).toNat
    tabSet 0 m o (BitVec.ofNat 8 (if c % 2 = 0 then (b / 16) * 16 + v % 16 else b % 16 + (v % 16) * 16))
  | 8 => spadWrite m (row + c) (natLE 1 v)
  | 16 => spadWrite m (row + 2 * c) (natLE 2 v)
  | _ => spadWrite m (row + 4 * c) (natLE 4 v)

/-- A row of results converted and written: plain elements one by one, blocks of 32 with their scale (R74, R75, R88).
`none` is a position that is not written. Gives the number of non-finite elements written (R139). -/
def spadPutRow (m : Spad) (fmt base rows cols r : Nat) (vs : List (Option Fl)) (rw : Nat → Option Nat) : Spad × Nat :=
  let p := pitchOf fmt cols
  if fmtMx fmt then
    (List.range (ceilDiv cols 32)).foldl (fun st q =>
      let blk := ((vs.drop (32 * q)).take 32)
      match blk.head? with
      | some (some _) =>
        let (sc, es) := mxBlock fmt (fun i => rw (32 * q + i)) (blk.map (·.getD .zero))
        let es := es ++ List.replicate (32 - es.length) 0
        let m1 := (List.range 32).foldl (fun m i => spadPutElem m fmt base p r (32 * q + i) (es.getD i 0)) st.1
        (spadWrite m1 (base + rows * p + r * scalePitch cols + q) (natLE 1 sc), st.2 + (if sc = 0xFF then 32 else 0))
      | _ => st) (m, 0)
  else
    (List.range cols).foldl (fun st c =>
      match vs.getD c none with
      | some v =>
        let b := encodeFl (fmtSpec fmt) (rw c) v
        (spadPutElem st.1 fmt base p r c b, st.2 + b2n (decodeFl (fmtSpec fmt) b).nonFinite)
      | none => st) (m, 0)

/-! ### Checks -/

/-- The operand class of a format: 1 16-bit, 2 8-bit, 3 4-bit, 4 FP32, 0 none (R82). -/
def mxClass (fmt : Nat) : Nat :=
  match fmt with
  | 1 => 1 | 2 => 1 | 3 => 2 | 4 => 2 | 5 => 2 | 6 => 2 | 7 => 3 | 0 => 4 | _ => 0

/-- Consecutive columns taken per step (R82). -/
def mxKc (d : MxDesc) : Nat := match mxClass d.fmtA with | 2 => 2 | 3 => 4 | _ => 1

/-- Passes per step (R103). -/
def mxPasses (d : MxDesc) : Nat := if mxClass d.fmtA = 4 then 3 else 1

/-- Column tiles (R81). -/
def mxTilesN (d : MxDesc) : Nat := ceilDiv d.n 64
/-- Output tiles (R88). -/
def mxTiles (d : MxDesc) : Nat := ceilDiv d.m 64 * mxTilesN d

/-- Byte length of the stats region (R100). -/
def statsLen (rows cols : Nat) : Nat := 64 * ceilDiv (8 * rows) 64 + 4 * rows * ceilDiv cols 64

/-- The regions a task writes: output, AUX in DMODE 0, stats (R86 check 7). -/
def mxWrites (d : MxDesc) : List Span :=
  [(d.outOff, if d.partialOut then mxTiles d * 0x4000 else matLen d.fmtOut d.m d.n)] ++
  (if d.auxEn && d.dmode == 0 then [(d.auxOff, matLen d.fmtAux d.m d.n)] else []) ++
  (if d.dmode == 2 then [(d.statsOff, statsLen d.m d.n)] else [])

/-- The residual region, if the task has one. -/
def mxResid (d : MxDesc) : List Span := if d.residEn then [(d.residOff, matLen d.fmtOut d.m d.n)] else []

/-- The regions a task reads, but for the residual (R86 check 7). -/
def mxReadsNoResid (d : MxDesc) : List Span :=
  [(d.aOff, matLen d.fmtA d.m d.k), (d.bOff, matLenB d.fmtB d.k d.n)] ++
  (if d.biasEn then [(d.biasOff, d.n * (if d.biasFp32 then 4 else 2))] else []) ++
  (if d.auxEn && d.dmode == 1 then [(d.auxOff, matLen d.fmtAux d.m d.n)] else []) ++
  (if d.nPart != 0 then [(d.partOff, d.nPart * mxTiles d * 0x4000)] else []) ++
  (if d.discardEn then [(d.discOff, ceilDiv (mxTiles d) 8)] else [])

/-- The regions a task reads. -/
def mxReads (d : MxDesc) : List Span := mxReadsNoResid d ++ mxResid d

/-- The checks of R86 in their order: the status of the first that fails, `some resOk` for the zero shape of check 8,
`none` if the task runs. `ctx` is the stream context of R478, a read region where SR is set. -/
def mxCheck (d : MxDesc) (ctx : List Span) : Option Nat :=
  let out : Span := (d.outOff, if d.partialOut then mxTiles d * 0x4000 else matLen d.fmtOut d.m d.n)
  if !d.resvOk || 9 ≤ d.fmtA || 9 ≤ d.fmtB || 9 ≤ d.fmtOut || 9 ≤ d.fmtAux || 10 ≤ d.func || d.dmode == 3 then
    some resBadOpcode
  else if mxClass d.fmtA = 0 || mxClass d.fmtA != mxClass d.fmtB || 8 ≤ d.fmtOut ||
      (d.auxEn && d.fmtAux != 2 && d.fmtAux != 5) then some resBadOpcode
  else if d.partialOut && (d.fmtOut != 0 || d.dmode != 0 || d.func != 0 || d.alpha != 0x3F800000 || d.sr || d.biasEn ||
      d.residEn || d.auxEn || d.discardEn || d.maskEn) then some resBadOpcode
  else if d.dmode == 1 && d.func != 0 && !d.auxEn then some resBadOpcode
  else if (d.dmode == 2 && (d.func != 0 || d.discardEn || d.auxEn || d.partialOut)) || (d.maskEn && d.dmode != 2) then
    some resBadOpcode
  else if !((mxWrites d ++ mxReads d).all (fun s => s.1 % 64 == 0)) then some resBadOpcode
  else if !(spansApart (mxWrites d) (mxReadsNoResid d ++ ctx) (fun _ _ => false) &&
      spansApart (mxWrites d) (mxResid d) (fun w r => w == out && r == out)) then some resBadOpcode
  else if d.m = 0 || d.n = 0 || d.k = 0 then some resOk
  else if !((mxWrites d ++ mxReads d ++ ctx).all spanFits) then some resLenRange
  else none

/-! ### Accumulation -/

/-- The high part of the three-pass split (R90). -/
def splitHi (x : Fl) : Fl :=
  match x with
  | .fin s _ _ =>
    let h := rnd bf16 x
    if h.nonFinite then (match decodeFl bf16 (maxFinite bf16) with | .fin _ m e => .fin s m e | y => y) else h
  | _ => x

/-- The low part of the three-pass split (R90). -/
def splitLo (x : Fl) : Fl :=
  match x with
  | .fin _ _ _ => rnd bf16 (x.sub (splitHi x))
  | _ => .zero

/-- The exact product of one k: of the operand values, or of the three-pass split for FP32 (R90). -/
def kProduct (threePass : Bool) (a b : Fl) : Fl :=
  if threePass && !a.nonFinite && !b.nonFinite then
    (((splitLo a).mul (splitHi b)).add ((splitHi a).mul (splitLo b))).add ((splitHi a).mul (splitHi b))
  else a.mul b

/-- The accumulator of an output element after all of K (R89): groups of k_c exact products, one rounding a group. -/
def mxAcc (rd : Nat → Byte) (d : MxDesc) (r c : Nat) : Fl :=
  let kc := mxKc d
  let tp := mxClass d.fmtA == 4
  (List.range (ceilDiv d.k kc)).foldl (fun acc g =>
    let sum := (List.range kc).foldl (fun s i =>
      let k := g * kc + i
      if k < d.k then
        let p := kProduct tp (matVal rd d.fmtA d.aOff d.m d.k r k) (matValB rd d.fmtB d.bOff d.k d.n k c)
        if i = 0 then p else s.add p
      else s) Fl.zero
    add32 acc sum) Fl.zero

/-- Rows and columns of tile `t`: the first, and how many (R81). -/
def mxRow0 (d : MxDesc) (t : Nat) : Nat := 64 * (t / mxTilesN d)
def mxCol0 (d : MxDesc) (t : Nat) : Nat := 64 * (t % mxTilesN d)
def mxRowsOf (d : MxDesc) (t : Nat) : Nat := min 64 (d.m - mxRow0 d t)
def mxColsOf (d : MxDesc) (t : Nat) : Nat := min 64 (d.n - mxCol0 d t)

/-- The accumulators of a tile as the array leaves them, row by row; unused positions of an edge tile are left out (R81, R89). -/
def mxFillTile (rd : Nat → Byte) (d : MxDesc) (t : Nat) : List Nat :=
  (List.range (mxRowsOf d t)).flatMap (fun r => (List.range (mxColsOf d t)).map (fun c => to32 (mxAcc rd d (mxRow0 d t + r) (mxCol0 d t + c))))

/-- The accumulator of an element of tile `t`. -/
def mxAccAt (d : MxDesc) (t : Nat) (acc : List Nat) (r c : Nat) : Fl := f32 (acc.getD ((r - mxRow0 d t) * mxColsOf d t + (c - mxCol0 d t)) 0)

/-- Byte offset of an element of a tile in tile form (R88). -/
def tileElem (base t r c : Nat) : Nat := base + t * 0x4000 + 4 * (64 * (r % 64) + c % 64)

/-- Stage 1: partial tiles added to the accumulator in ascending order (R95, R101). -/
def mxCombined (rd : Nat → Byte) (d : MxDesc) (t : Nat) (x : Fl) (r c : Nat) : Fl :=
  (List.range d.nPart).foldl (fun acc s =>
    let o := tileElem d.partOff (t * d.nPart + s) r c
    add32 acc (f32 (leNat [rd o, rd (o + 1), rd (o + 2), rd (o + 3)]))) x

/-- Stages 2 and 3: the value after scale, bias, residual and mask (R95). -/
def mxPre (rd : Nat → Byte) (d : MxDesc) (r c : Nat) (x : Fl) : Fl :=
  let x := mul32 x (f32 d.alpha)
  let x := if d.biasEn then
      add32 x (if d.biasFp32 then f32 (elemBits rd 0 d.biasOff 0 0 c) else decodeFl bf16 (elemBits rd 2 d.biasOff 0 0 c))
    else x
  let x := if d.residEn then add32 x (matVal rd d.fmtOut d.residOff d.m d.n r c) else x
  if d.dmode == 2 && d.maskEn && decide ((r : Int) + d.maskOff < (c : Int)) then .inf true else x

/-- Is a tile discarded (R98)? -/
def mxDiscarded (rd : Nat → Byte) (d : MxDesc) (t : Nat) : Bool := d.discardEn && bitAt (rd (d.discOff + t / 8)).toNat (t % 8)

/-- Stage 4 in DMODE 0 and 1 (R95 to R97). -/
def mxFunc (rd : Nat → Byte) (d : MxDesc) (r c : Nat) (x : Fl) : Fl :=
  let leak := decodeFl bf16 d.leak
  if d.dmode == 1 then
    if d.func = 0 && !d.auxEn then x
    else mul32 x (applyFnDer d.func leak (matVal rd d.fmtAux d.auxOff d.m d.n r c))
  else applyFn d.func leak x

/-- One row of one tile in DMODE 2 (R99): the running maximum and sum go in and come out, with the outputs. -/
def softmaxTile (m s : Fl) (xs : List Fl) : Fl × Fl × List Fl :=
  let mn := m.max (maxOf xs)
  match mn with
  | .inf true => (mn, s, xs.map (fun _ => Fl.zero))
  | _ =>
    let y := xs.map (fun x => exp32 (sub32 x mn))
    (mn, add32 (mul32 s (exp32 (sub32 m mn))) (sum64 y), y)

/-- The random word chooser of an output row: the element's index in row-major order from `e0` (R79). -/
def rowRand (sr : Bool) (rand : Nat → Nat) (e0 : Nat) : Nat → Option Nat := fun c => if sr then some (rand (e0 + c)) else none

/-- Rows `r` to `r + n - 1` of an array with the given pitch, `len` bytes of each from byte `o`. -/
def rowSpans (base pitch r n o len : Nat) : List Span := (List.range n).map (fun k => (base + (r + k) * pitch + o, len))

/-- The elements and block scales of rows `r` to `r + n - 1` and columns `c` to `c + w - 1` of an M × N matrix (R88). -/
def blockSpans (fmt base rows cols r n c w : Nat) : List Span :=
  rowSpans base (pitchOf fmt cols) r n (c * fmtBits fmt / 8) (ceilDiv (w * fmtBits fmt) 8) ++
  (if fmtMx fmt then rowSpans (base + rows * pitchOf fmt cols) (scalePitch cols) r n (c / 32) (ceilDiv w 32) else [])

/-- What the array reads for tile `t`: its rows of A and its columns of B, with their scales (R81, R88). -/
def mxFillReads (d : MxDesc) (t : Nat) : List Span :=
  let c := mxCol0 d t
  let w := mxColsOf d t
  blockSpans d.fmtA d.aOff d.m d.k (mxRow0 d t) (mxRowsOf d t) 0 d.k ++
  rowSpans d.bOff (pitchOf d.fmtB d.n) 0 d.k (c * fmtBits d.fmtB / 8) (ceilDiv (w * fmtBits d.fmtB) 8) ++
  (if fmtMx d.fmtB then rowSpans (d.bOff + d.k * pitchOf d.fmtB d.n) (roundUp d.n 64) 0 (ceilDiv d.k 32) c w else [])

/-- The elements of tile `t` in an M × N matrix: its rows, with whole blocks of an MX format (R75, R88). -/
def mxTileSpans (d : MxDesc) (fmt base t : Nat) : List Span :=
  blockSpans fmt base d.m d.n (mxRow0 d t) (mxRowsOf d t) (mxCol0 d t) (if fmtMx fmt then roundUp (mxColsOf d t) 32 else mxColsOf d t)

/-- What the drain of tile `t` reads (R95): partial tiles and the discard bit; of a tile that is kept also bias, residual, AUX (R98). -/
def mxDrainReads (rd : Nat → Byte) (d : MxDesc) (t : Nat) : List Span :=
  let bias := if d.biasFp32 then 4 else 2
  (if d.nPart != 0 then [(d.partOff + t * d.nPart * 0x4000, d.nPart * 0x4000)] else []) ++ (if d.discardEn then [(d.discOff + t / 8, 1)] else []) ++
  (if mxDiscarded rd d t then [] else
    (if d.biasEn then [(d.biasOff + mxCol0 d t * bias, mxColsOf d t * bias)] else []) ++
    (if d.residEn then mxTileSpans d d.fmtOut d.residOff t else []) ++ (if d.auxEn && d.dmode == 1 then mxTileSpans d d.fmtAux d.auxOff t else []))

/-- What the drain of tile `t` writes: its elements of the output and of AUX, its statistics; nothing of a discarded tile (R81, R98,
R100). -/
def mxTileWrites (rd : Nat → Byte) (d : MxDesc) (t : Nat) : List Span :=
  let r := mxRow0 d t
  let n := mxRowsOf d t
  let j := t % mxTilesN d
  if mxDiscarded rd d t then []
  else if d.partialOut then rowSpans (d.outOff + t * 0x4000) 256 0 n 0 (4 * mxColsOf d t)
  else
    mxTileSpans d d.fmtOut d.outOff t ++ (if d.auxEn && d.dmode == 0 then mxTileSpans d d.fmtAux d.auxOff t else []) ++
    (if d.dmode == 2 then rowSpans (d.statsOff + 64 * ceilDiv (8 * d.m) 64) (4 * mxTilesN d) r n (4 * j) 4 ++
      (if j + 1 = mxTilesN d then [(d.statsOff + 8 * r, 8 * n)] else []) else [])

/-- The drain of one row of tile `t` (R95 to R100): scratchpad, non-finite elements written, running maxima and sums of the rows. -/
def mxDrainRow (rd : Nat → Byte) (d : MxDesc) (t : Nat) (acc : List Nat) (rand : Nat → Nat) (k : Nat) (st : Spad × Nat × List (Nat × Nat)) : Spad × Nat × List (Nat × Nat) :=
  let r := mxRow0 d t + k
  let c0 := mxCol0 d t
  let xs0 := (List.range (mxColsOf d t)).map (fun c => mxCombined rd d t (mxAccAt d t acc r (c0 + c)) r (c0 + c))
  if d.partialOut then (spadWrite st.1 (tileElem d.outOff t r c0) (xs0.flatMap (fun v => natLE 4 (to32 v))), st.2)
  else
    let xs := xs0.mapIdx (fun c x => mxPre rd d r (c0 + c) x)
    let row := fun (vs : List Fl) => List.replicate c0 none ++ vs.map some
    let rw := rowRand d.sr rand (r * d.n)
    if d.dmode == 2 then
      let j := t % mxTilesN d
      let old := if j = 0 then (to32 (.inf true), 0) else st.2.2.getD k (to32 (.inf true), 0)
      let (m, s, ys) := softmaxTile (f32 old.1) (f32 old.2) xs
      let (m1, n) := spadPutRow st.1 d.fmtOut d.outOff d.m d.n r (row ys) rw
      let m2 := spadWrite m1 (d.statsOff + 64 * ceilDiv (8 * d.m) 64 + 4 * (r * mxTilesN d + j)) (natLE 4 (to32 m))
      let m3 := if j + 1 = mxTilesN d then spadWrite m2 (d.statsOff + 8 * r) (natLE 4 (to32 m) ++ natLE 4 (to32 s)) else m2
      (m3, st.2.1 + n, st.2.2.take k ++ (to32 m, to32 s) :: st.2.2.drop (k + 1))
    else
      let (m1, n1) := spadPutRow st.1 d.fmtOut d.outOff d.m d.n r (row (xs.mapIdx (fun c x => mxFunc rd d r (c0 + c) x))) rw
      if d.auxEn && d.dmode == 0 then
        let (m2, n2) := spadPutRow m1 d.fmtAux d.auxOff d.m d.n r (row xs) (rowRand d.sr rand (4 * ceilDiv (d.m * d.n) 4 + r * d.n))
        (m2, st.2.1 + n1 + n2, st.2.2)
      else (m1, st.2.1 + n1, st.2.2)

/-- The drain of tile `t` from its accumulators; the other operands are those of `m`, `rand` gives the random word of an element index
(R79). A discarded tile writes and counts nothing (R98). -/
def mxDrainTile (m : Spad) (d : MxDesc) (t : Nat) (acc : List Nat) (run : List (Nat × Nat)) (rand : Nat → Nat) : Spad × Nat × List (Nat × Nat) :=
  if mxDiscarded (spadRd m) d t then (m, 0, run) else foldRange (mxRowsOf d t) (m, 0, run) (mxDrainRow (spadRd m) d t acc rand)

/-- The useful clocks a completed task adds (R103 register table). -/
def mxUseful (d : MxDesc) : Nat := d.m * d.n * d.k * mxPasses d / (4096 * mxKc d)

end Sys2Proof.Machine
end

