-- ==== Sys2Proof/Machine/Philox.lean ====
section
/-! DEFINITION. Random words of stochastic rounding: Philox 4×32-10 and the binding of key and counter (R79, R477). -/

namespace Sys2Proof.Machine

/-- Low 32 bits. -/
def lo32 (x : Nat) : Nat := x % 2 ^ 32

/-- `n` rounds from key and counter; the key is bumped between rounds (R477). -/
def philoxGo : Nat → Nat → Nat → Nat → Nat → Nat → Nat → List Nat
  | 0, _, _, x0, x1, x2, x3 => [x0, x1, x2, x3]
  | n + 1, k0, k1, x0, x1, x2, x3 =>
    let p0 := 0xD2511F53 * x0
    let p1 := 0xCD9E8D57 * x2
    philoxGo n (lo32 (k0 + 0x9E3779B9)) (lo32 (k1 + 0xBB67AE85)) ((p1 >>> 32) ^^^ x1 ^^^ k0) (lo32 p1) ((p0 >>> 32) ^^^ x3 ^^^ k1) (lo32 p0)

/-- The random word of element `e` (R79, R477): job seed, step, micro-batch, stream, counter base. -/
def srWord (seed step mb stream base e : Nat) : Nat :=
  let c := (base + e / 4) % 2 ^ 64
  (philoxGo 10 (lo32 seed ^^^ lo32 step) (bits seed 32 32 ^^^ lo32 (mb * 65536 + stream)) (lo32 c) (bits c 32 32) (bits step 32 32) 0).getD (e % 4) 0

end Sys2Proof.Machine
end

