-- ==== Sys2Proof/Machine/State.lean ====
section
/-! DEFINITION. The state of the package as plain data: every register, buffer, queue, mode and pin the spec names, the queue
of waiting commands, and the reasons a command can stop. A field initialiser is the value after cold reset. -/

namespace Sys2Proof.Machine

open Sys2Proof

/-! ## Benches (02, 03) -/

/-- Who handed a task to an engine: jig (0 to 3 bay, 4 global), queue and record number of that jig's issue list (R231). -/
structure Tag where
  jig : Nat
  queue : Nat
  record : Nat
  deriving DecidableEq, Repr

/-- A descriptor held by an engine (R83, R120): where it lies, who named it, and how far it has come. -/
structure Task where
  /-- scratchpad offset of the descriptor -/
  off : Nat
  tag : Tag
  /-- the engine has taken and checked it (R86) -/
  issued : Bool := false
  /-- its eight words, as fetched -/
  words : List Nat := []
  /-- its data movement or computation has been done, so only its completion is open -/
  ran : Bool := false
  /-- its status, decided by a check or by the run -/
  res : Nat := 0
  /-- tiles whose partial wait has been released (R95) -/
  tile : Nat := 0
  /-- counter base of its stream context, read with the descriptor (R478) -/
  ctx : Nat := 0
  /-- tiles that the array of the matrix engine has finished, and tiles that its drain has written (R83, R84) -/
  fill : Nat := 0
  drain : Nat := 0
  /-- accumulators (FP32) of the tiles finished and not drained, oldest first (R83) -/
  accs : List (List Nat) := []
  /-- running maximum and sum of each row of the row tile, DMODE 2 (R99) -/
  run : List (Nat × Nat) := []
  /-- non-finite elements its run wrote -/
  nonfin : Nat := 0
  /-- accesses to external host memory not yet acknowledged (R123, R387) -/
  hostWrites : Nat := 0
  /-- step and attempt the task belongs to -/
  step : Nat := 0
  /-- micro-batch index of the task's record (R79) -/
  mb : Nat := 0
  /-- what a STORE that has run replaced in memory: address and bytes (R126) -/
  old : List (Nat × List Byte) := []
  /-- bytes a LOAD has received over the fabric or from the host, by place in its source, one row after the other -/
  buf : Tab Byte := []
  /-- tiles whose partial wait has expired once (R240) -/
  expired : Nat := 0
  /-- a STORE that read an uncorrectable word: every line of its span is written all the same (R126) -/
  badSrc : Bool := false
  deriving DecidableEq, Repr

/-- One of the four engines of a bench: at most two descriptors, and its status registers (02, 03). -/
structure Eng where
  slots : List Task := []
  /-- LAST_RESULT -/
  last : BitVec 4 := 0
  /-- NONFINITE, or SPAD_MX_NONFINITE.SEEN -/
  nonfinite : Bool := false
  nonfinCnt : W32 := 0
  taskCnt : W32 := 0
  /-- SPAD_MX_BUSY_CLK_CNT (matrix engine) -/
  busyClk : W64 := 0
  /-- SPAD_MX_USEFUL_CLK_CNT (matrix engine) -/
  usefulClk : W64 := 0
  /-- TILE of SPAD_MX_STATUS (matrix engine) -/
  tile : BitVec 16 := 0
  deriving DecidableEq, Repr

/-- An access that waits for a bank or for the stat store (R114). -/
structure WaitAcc where
  master : Nat
  /-- waits for the stat store, not for the bank of its offset -/
  stat : Bool := false
  write : Bool
  off : Nat
  len : Nat
  data : List Byte
  /-- requester port of an access through the window -/
  port : Nat := 0
  /-- what the error code will find in what it reads: 0 nothing, 1 a corrected, 2 an uncorrectable error (R112); 2 of a write: its data is
  poisoned (R126) -/
  ecc : Nat := 0
  /-- for an access of another bench's DMA: that bench, and the place in its task's buffer (R113, R123) -/
  dma : Option (Nat × Nat) := none
  /-- the task of its engine that makes it: 0 the running, 1 the pending one (R83, R115) -/
  slot : Nat := 0
  deriving DecidableEq, Repr

/-- A bench by physical index: scratchpad, ownership, engines (02, 03, R513, R514). -/
structure Bench where
  /-- scratchpad contents, zero where nothing is listed (R119) -/
  spad : Tab Byte := []
  /-- 8-byte words of the scratchpad holding an uncorrectable error (R112), by word number -/
  dbl : Tab Bool := []
  /-- stat-store records (R135), zero where nothing is listed -/
  stat : Tab Nat := []
  /-- stat-store records holding an uncorrectable error -/
  statDbl : Tab Bool := []
  /-- SPAD_OWNER[i].OWNER, 0 (DMA) where nothing is listed -/
  owner : Tab Nat := []
  /-- SPAD_OWNER[i].HANDOVER by bank -/
  handover : BitVec 16 := 0
  /-- SPAD_PAIR.PAIRED -/
  paired : BitVec 8 := 0xFF
  /-- SPAD_STAT_OWNER.OWNER -/
  statOwner : BitVec 3 := 3
  /-- SPAD_STAT_OWNER.HANDOVER -/
  statHandover : Bool := false
  /-- SPAD_WAIT_LIMIT -/
  waitLimit : W32 := 1920000
  /-- SPAD_WAIT_CNT[m] -/
  waitCnt : Tab W64 := []
  tieCnt : W32 := 0
  handoverFailCnt : W32 := 0
  eccCeCnt : W32 := 0
  mx : Eng := {}
  dma : Eng := {}
  vec : Eng := {}
  row : Eng := {}
  waits : List WaitAcc := []
  /-- clock-gated until a wake is admitted (R513) -/
  gated : Bool := false
  /-- issue rate in quarters of the full rate after a wake (R514) -/
  rate : BitVec 3 := 4
  deriving DecidableEq, Repr

/-! ## Memory (01, 04) -/

/-- Addressed memory: near tier, far-tier data and board GDDR by device physical address (R55). An unlisted byte has no
value of its own: it reads as a free value (R523). -/
structure Memory where
  /-- bytes by address, addresses strictly rising -/
  cells : List Host.Cell := []
  /-- 64-byte lines by number: `true` poisoned (R155), `false` written since the reset and sound -/
  lines : Tab Bool := []
  deriving DecidableEq, Repr

/-- States of a pseudo-channel (R176). -/
inductive PcState where
  | active | degraded | stagingRt | retraining | restoring | stagingRet | staged | retiring | retired
  deriving DecidableEq, Repr

/-- A pseudo-channel (R142, R150, R152, R168 to R176). -/
structure Pc where
  st : PcState := .active
  /-- served from the board GDDR copy (R169, R170) -/
  fromGddr : Bool := false
  /-- blocks whose copy has ended while staging or restoring, in ascending L (R169) -/
  pos : Nat := 0
  /-- which retirement of the package it is, 1 to 8 (R171) -/
  k : Nat := 0
  /-- lines in the write queue, oldest first (R152) -/
  writeQ : List Nat := []
  /-- switched to writes (R152) -/
  writing : Bool := false
  /-- refresh intervals postponed (R150) -/
  postponed : Nat := 0
  /-- times of the corrected errors of the last millisecond, oldest first (R170) -/
  burst : List Nat := []
  /-- a retraining is due and waits for the staged pseudo-channel to leave (R168) -/
  retrainWanted : Bool := false
  deriving DecidableEq, Repr

/-- A row's error history (R164): times of its corrected errors in the last scrub period, uncorrectable reads since the last write. -/
structure RowErr where
  ce : List Nat := []
  ue : Nat := 0
  /-- the first failing line -/
  first : Option Nat := none
  deriving DecidableEq, Repr

/-- The near-memory side of a home (R326 registers of 04): controller of one stack and its bay-cache half. -/
structure NearCtl where
  /-- COH_NEAR_CTL.WR_BATCH -/
  wrBatch : BitVec 4 := 8
  /-- COH_NEAR_CTL.SCRUB_EN -/
  scrubEn : Bool := true
  /-- COH_NEAR_CTL.BC_EN -/
  bcEn : Bool := true
  scrubPeriod : W32 := 86400
  /-- COH_NEAR_STATUS.REFRESH_2X -/
  refresh2x : Bool := false
  /-- COH_NEAR_STATUS.TEMP -/
  temp : BitVec 8 := 0
  ceCnt : W32 := 0
  ueCnt : W32 := 0
  turnCnt : W32 := 0
  bcHitCnt : W64 := 0
  bcMissCnt : W64 := 0
  /-- COH_NEAR_UE_ADDR -/
  ueAddr : BitVec 48 := 0
  ueValid : Bool := false
  /-- lines whose corrected word waits to be written back (R153, R154) -/
  ceWb : List Nat := []
  /-- rows being or to be repaired, by row key (R164) -/
  candidates : List Nat := []
  /-- row held by a soft repair (R165) -/
  ppr : Option Nat := none
  /-- lines present in the bay-cache half (R177), by line number -/
  bcLines : Tab Bool := []
  /-- the half is invalidating (R181) -/
  bcInvalidating : Bool := false
  deriving DecidableEq, Repr

/-- All of near memory beside its contents. -/
structure Near where
  /-- pseudo-channels 0 to 511 -/
  pcs : Tab Pc := []
  /-- homes 0 to 7 -/
  ctl : Tab NearCtl := []
  /-- error history by row key -/
  rows : Tab RowErr := []
  /-- spare rows used by bank key, pseudo-channel × 64 + bank (R166) -/
  sparesUsed : Tab Nat := []
  /-- spare rows a bank has at training (R166) -/
  sparesAtTraining : Nat := 2
  /-- pseudo-channels retired, the k-th at place k - 1 (R171) -/
  retired : List Nat := []
  /-- the pseudo-channel chosen for the next retirement and its k, from the start of its staging (R171) -/
  retiring : Option (Nat × Nat) := none
  /-- redirect entries (R173): of the k-th retirement and page p at (k - 1) × 2^18 + p; bits [26:0] place, bit 31 valid -/
  redirect : Tab W32 := []
  /-- corrected GDDR transfers (R184). DESIGN CHOICE (log 127): the spec gives no field of ND_TELEMETRY for this count, so no report
  holds it -/
  gddrRetries : W32 := 0
  /-- lines whose uncorrectable read has been recorded ahead of the engine's read that takes the poison (R153, R184) -/
  badReads : List Nat := []
  /-- tag mismatches that each consumer has met (R159), by consumer × 256 + unit (R452) -/
  mismatch : Tab W32 := []
  /-- every stack is in self-refresh: step 5 of the entry to the safe state (R461, R502) -/
  selfRefresh : Bool := false
  deriving DecidableEq, Repr

/-! ## Far tier (05) -/

/-- A segment's header (R194); FREE with generation 0 where nothing is listed. -/
structure Seg where
  /-- STATE: 0 FREE, 1 FILLING, 2 SEALED, 3 QUARANTINED -/
  state : Nat := 0
  gen : W32 := 0
  owner : W64 := 0
  firstBlock : Nat := 0
  nblk : Nat := 0
  fmt : Nat := 0
  dataLen : Nat := 0
  sealTime : Nat := 0
  index : List Nat := []
  hdrCrc : Nat := 0
  /-- the header's bytes as a scan found them or as Silkai wrote them, where the fields alone do not give them back (R193, R198) -/
  raw : List Byte := []
  deriving DecidableEq, Repr

/-- A CXL port (R186 to R192). Port 0 may be the upstream port. -/
structure CxlPort where
  /-- ROLE: 0 ROOT, 1 UPSTREAM, 2 OFF -/
  role : Nat := 0
  speed64 : Bool := false
  ide : Bool := false
  split : Bool := false
  farRetain : Bool := false
  /-- a root port in service -/
  up : Bool := false
  /-- bring-up failed (R188) -/
  failed : Bool := false
  /-- capacity in bytes after R188, a multiple of 1 GiB -/
  cap : Nat := 0
  segs : Tab Seg := []
  deriving DecidableEq, Repr

/-- A consumer held on a bad block (R221): a stager descriptor's block or a unified-range read. -/
structure HeldUse where
  /-- stager whose descriptor is held; 4 for a read of the unified range -/
  stager : Nat
  /-- near-tier or unified address the decoded block goes to -/
  dest : Nat
  deriving DecidableEq, Repr

/-- Where the fetch of a bad block over the fabric stands (R221). -/
inductive FetchStage where
  /-- nothing is asked -/
  | idle
  /-- the source's map entry at the same index -/
  | entry
  /-- ENTRIES of the source's map, then entries by binary search, where FIRST_BLOCK differs -/
  | mapHead
  | probe
  /-- the source's segment header -/
  | header
  /-- the stored bytes of the block -/
  | block
  /-- the decoded block at the same unified address -/
  | page
  deriving DecidableEq, Repr

/-- The fetch of a bad block from a source (R221). -/
structure RepairFetch where
  stage : FetchStage := .idle
  /-- fetches started: the next one takes the source of this number, wrapping -/
  asked : Nat := 0
  /-- fabric address of the source: a map, or a block of the unified range -/
  src : Nat := 0
  /-- address of the open read, its bytes so far, whether one came poisoned -/
  base : Nat := 0
  buf : List Host.Cell := []
  bad : Bool := false
  /-- bounds of the binary search, the best entry so far -/
  lo : Nat := 0
  hi : Nat := 0
  found : Option Nat := none
  /-- the source's segment header -/
  hdr : List Byte := []
  /-- the fetch has ended: the decoded block, or none -/
  ready : Option (Option (List Byte)) := none
  deriving DecidableEq, Repr

/-- An entry of the repair table (R221 to R225). -/
structure Repair where
  /-- map address of the image, or unified page address -/
  target : Nat
  isPage : Bool
  /-- index of the map entry -/
  entry : Nat
  /-- image block -/
  block : Nat
  seg : Nat
  /-- the local DOWEL, if the block's header could be read (R222) -/
  dowel : Option Nat
  attempts : Nat
  /-- the block fetched by an attempt that had no local DOWEL to check against -/
  firstFetch : List Byte
  held : List HeldUse
  /-- repaired or poisoned block, waiting for its segment's rewrite -/
  fixed : Option (List Byte)
  poisoned : Bool
  /-- the stager that found the block bad and repairs it -/
  finder : Nat := 0
  fetch : RepairFetch := {}
  deriving DecidableEq, Repr

/-- Where a unified page lives (R217) or what moves it (R218, R219). -/
inductive Residence where
  | near | nearClean | far | promoting | demoting
  deriving DecidableEq, Repr

/-- A page of the unified range (R217). -/
structure Page where
  res : Residence := .near
  /-- near frame number, 2 MiB frames -/
  frame : Nat := 0
  /-- segment identifier of the far copy -/
  seg : Nat := 0
  gen : Nat := 0
  referenced : Bool := false
  /-- block reads in the present epoch -/
  reads : Nat := 0
  pinned : Bool := false
  /-- writes that wait for the promotion: address and bytes -/
  waiting : List (Nat × List Byte × Bool) := []
  deriving DecidableEq, Repr

/-- The far tier as a whole: ports, tier mode, pages, repairs; the registers at 0x1100 of stager 0. -/
structure FarTier where
  ports : Tab CxlPort := []
  /-- unified mode (R215) -/
  unified : Bool := false
  peers : List Nat := []
  /-- pages by page number from the base of the unified range -/
  pages : Tab Page := []
  repairs : List Repair := []
  /-- bad blocks that wait for a free repair entry (R225) -/
  repairWait : List Repair := []
  /-- demotion goes on until the high watermark is reached (R218) -/
  sweeping : Bool := false
  /-- place of the clock sweep (R218) -/
  hand : Nat := 0
  epochTicks : W32 := 100000
  promoteThresh : BitVec 10 := 64
  lowWm : BitVec 18 := 1024
  highWm : BitVec 18 := 2048
  deriving DecidableEq, Repr

/-! ## Jigs and streaming (06) -/

/-- A record that has been issued and whose tasks have not all completed (R228, R235). -/
structure Issued where
  /-- serial number of the issue within its jig -/
  serial : Nat
  /-- index of the record in its queue -/
  recIdx : Nat
  /-- benches whose task is open, by logical bench -/
  benches : BitVec 32 := 0
  /-- one stager descriptor, release or collective is open -/
  other : Bool := false
  /-- the first failing status of its tasks, 0 for none (R236) -/
  status : Nat := 0
  /-- a task ended with HOST_LOST, with status aborted (R236) -/
  lost : Bool := false
  aborted : Bool := false
  /-- was hoisted (R253) -/
  hoisted : Bool := false
  deriving DecidableEq, Repr

/-- A queue of a jig (R228). -/
structure Queue where
  base : Nat := 0
  /-- the records, as read at load, eight words each (R229) -/
  recs : List (List Nat) := []
  head : Nat := 0
  /-- JIG_Q_STATUS.STATE, with 1 also for 2 and 3, which the head's wait and gate tell -/
  state : BitVec 4 := 0
  hoisting : Bool := false
  loopIdx : List Nat := [0, 0, 0, 0]
  /-- the head's wait has been reached and is not tested again (R233) -/
  reached : Bool := false
  /-- timebase at which the head became head (R240) -/
  headSince : Nat := 0
  /-- the head's wait time-out has expired (R240) -/
  timedOut : Bool := false
  /-- record indices hoisted ahead (R253) -/
  hoistedRecs : List Nat := []
  phases : Nat := 0
  /-- GATE and END records issued: the stream position each leads to, and its serial (R245) -/
  gates : List (Nat × Nat) := []
  issued : List Issued := []
  deriving DecidableEq, Repr

/-- A signal held for a newer epoch (R238). -/
structure EarlySig where
  ctr : Nat
  add : Nat
  epoch : BitVec 16
  deriving DecidableEq, Repr

/-- A jig: bay jig 0 to 3, global jig 4 (R227). -/
structure Jig where
  queues : Tab Queue := []
  ctr : Tab W32 := []
  snap : Tab W32 := []
  restore : Tab W32 := []
  early : List EarlySig := []
  /-- rotating priority pointer (R228) -/
  ptr : Nat := 0
  serial : Nat := 0
  waitTimeout : W32 := 10000000
  hoistDepth : BitVec 7 := 16
  tieCnt : W32 := 0
  staleSigCnt : W32 := 0
  hoistCnt : W32 := 0
  earlySigCnt : W32 := 0
  deriving DecidableEq, Repr

/-- States of the global jig (R49, JIG_STATUS.STATE). -/
inductive StepState where
  | idle | forward | backward | clamp | aborted
  deriving DecidableEq, Repr

/-- A clamp record: own record, partial or result (R349). -/
structure ClampRec where
  step : Nat := 0
  /-- 0 own record, 1 partial, 2 result -/
  kind : Nat := 0
  nonfinite : Bool := false
  abort : Bool := false
  skip : Bool := false
  clipped : Bool := false
  epoch : BitVec 16 := 0
  /-- D -/
  d : Nat := 0
  /-- FP64 encodings of Q, LOSS and KAPPA -/
  q : Nat := 0
  loss : Nat := 0
  samples : Nat := 0
  kappa : Nat := 0
  present : Nat := 0
  absent : Nat := 0
  /-- FP32 loss scale of the next step -/
  sNext : Nat := 0
  gOkNext : Nat := 0
  /-- CONTRIB of an own record or result, LACK of a partial: bit m for micro-batch m -/
  bitmap : Nat := 0
  deriving DecidableEq, Repr

/-- A clamp result the planes keep, with the loss scale in force in its step (R276, R277). -/
structure HeldResult where
  res : ClampRec
  scale : W32
  deriving DecidableEq, Repr

/-- The step life cycle of the global jig (R49, R50). -/
structure StepLife where
  state : StepState := .idle
  update : Bool := false
  loaded : Bool := false
  phaseK : BitVec 6 := 0
  reload : Bool := false
  step : W64 := 0
  epoch : BitVec 16 := 0
  attemptEpoch : BitVec 16 := 0
  /-- step at which the program was started (R233) -/
  startStep : Nat := 0
  /-- a stop is pending; the flag says whether to unload (R422) -/
  stopPending : Option Bool := none
  /-- the step whose run a stop interrupted at a phase boundary (R242) -/
  interrupted : Option Nat := none
  /-- the present step was aborted, so a start is a retry (R239) -/
  wasAborted : Bool := false
  /-- the step aborted after its backward phase was complete (R350) -/
  backDone : Bool := false
  /-- step the next ND_JIG_START must name, once one has run (R421) -/
  nextStep : Option Nat := none
  /-- result received before the own record was sent (R49) -/
  held : Option ClampRec := none
  /-- segments, with their GEN, that PUT records of the present attempt sealed (R252) -/
  putSegs : List (Nat × W32) := []
  /-- image maps that these PUT records wrote (R252, R255) -/
  putMaps : List Nat := []
  /-- a program has been started since reset, so JIG_STEP names a step (R278) -/
  started : Bool := false
  /-- the program is a restored load (R489) -/
  restoredLoad : Bool := false
  /-- the load block names a clamp group and schedule: raw load block -/
  loadBlock : List Byte := []
  /-- a start has been accepted and waits for the re-runs of R48 -/
  starting : Bool := false
  /-- the own clamp record of the next step carries ABORT (R48, R49) -/
  carryAbort : Bool := false
  deriving DecidableEq, Repr

/-- A window slot of a stager (R244 to R247). -/
structure Slot where
  /-- STRM_SLOT_STATE: 0 free, 1 filling, 2 FULL, 3 held for repair -/
  state : Nat := 0
  /-- stream position of the entry it holds: step × ENTRIES + entry -/
  pos : Nat := 0
  /-- blocks good so far -/
  done : Nat := 0
  /-- the block at `done` has been refetched once (R161) -/
  refetched : Bool := false
  /-- a block of another package that has arrived: its bytes and tag, and 0, 16 for poison, or the wire status of a failure -/
  fetched : Option (List Byte × Nat × Nat) := none
  /-- abandoned while held for a repair: free once that ends (R252) -/
  stale : Bool := false
  deriving DecidableEq, Repr

/-- What is known of a gate (R247 to R251), by stream position. -/
structure Gate where
  reach : Option Nat := none
  arrival : Option Nat := none
  opened : Bool := false
  reused : Bool := false
  watchdog : Bool := false
  deriving DecidableEq, Repr

/-- A stager descriptor in the queue (R208, R214). -/
structure StgDesc where
  addr : Nat
  /-- the jig record that submitted it, if one did -/
  tag : Option Tag := none
  /-- GET or PUT has been carried out; only completion is open -/
  ran : Bool := false
  status : Nat := 0
  entriesWritten : Nat := 0
  /-- blocks held on repairs (R221) -/
  heldBlocks : Nat := 0
  words : List Nat := []
  deriving DecidableEq, Repr

/-- A stager: submission queue, counters, streaming (05, 06). -/
structure Stager where
  queue : List StgDesc := []
  /-- latched low half of STRM_SUBMIT is kept with the other latches -/
  submitFullCnt : W32 := 0
  /-- port of the last segment it sealed (R210). DESIGN CHOICE (log 138): the spec names no first port; the rotation of a stager that has
  sealed none starts at port 0. -/
  lastPort : Nat := 3
  farRdBytes : W64 := 0
  decodedBytes : W64 := 0
  farWrBytes : W64 := 0
  encodeInBytes : W64 := 0
  promoteCnt : W32 := 0
  demoteCnt : W32 := 0
  dropCleanCnt : W32 := 0
  farPageRdCnt : W32 := 0
  repairCnt : W32 := 0
  repairFailCnt : W32 := 0
  /-- segments the running PUT fills: identifier and the block range (R196, R210) -/
  filling : List Nat := []
  winBase : BitVec 48 := 0
  slotSize : BitVec 21 := 0
  streamBase : BitVec 48 := 0
  entries : BitVec 17 := 0
  lookahead : BitVec 4 := 0
  /-- the stream table, as read at load, eight words an entry (R229) -/
  table : List (List Nat) := []
  slots : Tab Slot := []
  deriving DecidableEq, Repr

/-- What stager 0 keeps for all: current entry, gates, kerf (R245 to R251). -/
structure Stream where
  /-- stream position of the current entry -/
  cur : Nat := 0
  gates : Tab Gate := []
  watchdogTicks : W32 := 5000000
  stallCnt : W32 := 0
  tieCnt : W32 := 0
  reuseCnt : W32 := 0
  stallTimeCnt : W64 := 0
  kerfBase : BitVec 48 := 0
  kerfLen : BitVec 21 := 0
  kerfWr : W32 := 0
  /-- KERF of the newest record, and the smallest since the telemetry was rewritten (R404) -/
  kerfLast : W32 := 0
  kerfMin : Option W32 := none
  deriving DecidableEq, Repr

/-! ## Planes (07) -/

/-- States of a plane (PLN_STATUS.STATE, R283). -/
inductive PlaneState where
  | idle | computing | committed | publishing | releasing | stopped
  deriving DecidableEq, Repr

/-- A mirror chunk in an inbox (R287, R329). -/
structure InboxChunk where
  chunk : Nat
  /-- the half-chunks received, first then second -/
  lo : Option (List Byte) := none
  hi : Option (List Byte) := none
  /-- a half came poisoned -/
  bad : Bool := false
  deriving DecidableEq, Repr

/-- The mirror transfer that holds a plane's inbox credits (R288, R329): whose, and how far it has come. -/
structure MirrorIn where
  /-- table index of the header it is for -/
  idx : Nat
  step : Nat
  node : Nat
  flow : Nat
  /-- chunks consumed, and their gradient so far -/
  got : Nat := 0
  grad : List Byte := []
  /-- a consumed chunk was poisoned -/
  bad : Bool := false
  deriving DecidableEq, Repr

/-- A mirror chunk that waits for credit at its receiver (R287, R329, R347). -/
structure MirrorOut where
  node : Nat
  /-- the flow a group names; none: the service flow (R316) -/
  flow : Option Nat
  addr : Nat
  step : Nat
  chunk : Nat
  data : List Byte
  bad : Bool := false
  /-- one half-chunk that is passed on by itself (R347), else both -/
  half : Option Nat := none
  deriving DecidableEq, Repr

/-- A transfer that has asked for the inbox of a plane and waits for it (R329). -/
structure MirrorAsk where
  /-- table index of the header it is for -/
  idx : Nat
  step : Nat
  node : Nat
  flow : Nat
  deriving DecidableEq, Repr

/-- The update a plane has in hand (R283). -/
structure Update where
  /-- index of the header in the panel table -/
  idx : Nat
  step : Nat
  mirror : Bool
  /-- the new version is written, but for the commit word -/
  computed : Bool := false
  /-- the twin has acknowledged (R283), or has failed -/
  twinAck : Bool := false
  twinFailed : Bool := false
  /-- an owner's mirror transfer has started (R283, R287) -/
  sent : Bool := false
  deriving DecidableEq, Repr

/-- A plane engine. -/
structure Plane where
  state : PlaneState := .idle
  cur : Option Update := none
  /-- updates stopped in COMPUTING, to be re-run (R284, R285): index and step -/
  stopped : List (Nat × Nat) := []
  /-- updates being re-run before FORWARD is entered (R48) -/
  rerun : List (Nat × Nat) := []
  /-- signals owed after a stop: index of the header (R284) -/
  owed : List Nat := []
  /-- due updates: index and step (R276) -/
  due : List (Nat × Nat) := []
  /-- a stop holds the plane until the next start (R284) -/
  halted : Bool := false
  panelBase : BitVec 48 := 0
  /-- CAPACITY of the panel table (R423); PLN_PANEL_COUNT is the number of headers defined -/
  panelCount : BitVec 17 := 0
  stageBase : BitVec 48 := 0
  twinTimeout : W32 := 1000000
  updateCnt : W32 := 0
  rerunCnt : W32 := 0
  nonfiniteCnt : W32 := 0
  ledgerWaitCnt : W32 := 0
  lateAddCnt : W32 := 0
  tieCnt : W32 := 0
  twinLostCnt : W32 := 0
  paramCnt : W64 := 0
  inbox : List InboxChunk := []
  transfer : Option MirrorIn := none
  /-- transfers that asked while another held the inbox, earliest first (R329) -/
  asks : List MirrorAsk := []
  /-- updates in RELEASING that wait for their twin's acknowledgement, oldest first (R283) -/
  parked : List Update := []
  outq : List MirrorOut := []
  /-- of the 16 credits of the plane of a node, how many are used, by node (R329) -/
  creditUsed : Tab Nat := []
  deriving DecidableEq, Repr

/-- Has a plane an update at work? -/
def Plane.active (p : Plane) : Bool := p.cur.isSome || !p.parked.isEmpty

/-- An entry of an optimiser set (R278): numbers are FP32 encodings. -/
structure OptEntry where
  alg : Nat := 0
  nesterov : Bool := false
  applyStep : Nat := 0
  eta : Nat := 0
  lam : Nat := 0
  beta1 : Nat := 0
  beta2 : Nat := 0
  eps : Nat := 0
  mu : Nat := 0
  gamma : Nat := 0
  deriving DecidableEq, Repr

/-- Job-wide optimiser state: plane 0's registers, sets, clamp results, job settings (R272 to R278, R290, R423). -/
structure OptJob where
  ringBase : BitVec 48 := 0
  ringFrames : BitVec 18 := 0
  ringHead : Nat := 0
  /-- frames in use -/
  ringUsed : Tab Bool := []
  lossScale : W32 := 0x47800000
  goodSteps : W32 := 0
  sets : Tab (List OptEntry) := []
  /-- clamp results of the last five steps, newest first (R276) -/
  results : List HeldResult := []
  /-- PANEL_ID to table index (R328) -/
  panelIndex : Tab Nat := []
  /-- table indices in use -/
  panels : Tab Bool := []
  ordered : Bool := false
  sealing : Bool := false
  lsDynamic : Bool := true
  /-- exponents of LS_INIT, LS_MIN and LS_MAX (R290) -/
  lsInit : Int := 16
  lsMin : Int := 0
  lsMax : Int := 24
  lsInterval : W32 := 2000
  /-- micro-batches of a step and the least that must contribute (R339, R354) -/
  mbCount : Nat := 0
  mbMin : Nat := 0
  /-- FP64 clipping norm; 0 none -/
  clipNorm : W64 := 0
  seed : W64 := 0
  /-- the job block as given -/
  configured : Bool := false
  deriving DecidableEq, Repr

/-! ## Fabric (08) -/

/-- States of a flow context (R307). -/
inductive FlowState where
  | closed | opening | opn | draining | failed
  deriving DecidableEq, Repr

/-- Who issued a message, so that its completion or failure reaches it (R314, R317). -/
inductive Issuer where
  /-- nobody in the part waits: responses, acknowledgements -/
  | none
  /-- a window access of a requester port -/
  | window (port : Nat)
  /-- a bench DMA access of a bench -/
  | bench (b : Nat)
  /-- the remote signal of a jig record -/
  | jig (t : Tag)
  /-- a stream fill of a stager -/
  | fill (stager : Nat)
  /-- a plane's mirror transfer -/
  | plane (h : Nat)
  /-- a collective operation by its sequence number -/
  | coll (seq : Nat)
  /-- the fetch of a bad block: page of the unified range or image map, segment and block (R221) -/
  | repair (isPage : Bool) (target seg block : Nat)
  /-- the FAR_COPY that the ND_RESHARD carries out (R478) -/
  | copy
  /-- an engine that waits for nothing: only the failure is recorded -/
  | engine
  deriving DecidableEq, Repr

/-- A sequenced frame sent and not yet acknowledged (R312). -/
structure TxFrame where
  frame : Frame
  sent : Nat
  retries : Nat
  /-- path: port and entropy index -/
  port : Nat
  ent : Nat
  issuer : Issuer
  deriving DecidableEq, Repr

/-- A message open at its sender (R314): frames unacknowledged are in `unacked`; responses still due. -/
structure OpenMsg where
  msgId : BitVec 16
  issuer : Issuer
  /-- response bytes still to come -/
  respDue : Nat
  /-- remote address it reads from, and where the response data goes: an address, or a place in a task's buffer -/
  addr : Nat := 0
  dest : Nat := 0
  deriving DecidableEq, Repr

/-- A flow context (R307) with both directions' books (R310 to R313, R318). -/
structure Flow where
  state : FlowState := .closed
  gen : BitVec 8 := 0
  peerGen : BitVec 8 := 0
  paths : BitVec 4 := 0
  tc : BitVec 3 := 0
  peerNode : Nat := 0
  peerFlow : Nat := 0
  portMask : W64 := 0
  txNext : W32 := 0
  rxCum : W32 := 0
  rxOrs : W32 := 0
  /-- RATE, Mb/s -/
  rate : Nat := 0
  /-- acknowledgements since entry to OPEN, of the last 10 ms: time and RTT in ticks; BASE_RTT is the least -/
  rtts : List (Nat × Nat) := []
  unacked : List TxFrame := []
  /-- frames not yet sent: the direction is held under RNR, or 1,024 are unacknowledged (R310, R313) -/
  waiting : List (Frame × Issuer) := []
  msgs : List OpenMsg := []
  nextMsg : BitVec 16 := 0
  /-- PSNs received above RX_CUM -/
  received : List Nat := []
  /-- frames not yet performed because of FENCE (R315) -/
  fenced : List Frame := []
  /-- PSNs the peer holds under RNR (R313) -/
  rnrHeld : List W32 := []
  /-- accepted frames not yet acknowledged, since when, and what the ACK will say (R311) -/
  ackPend : Nat := 0
  ackSince : Nat := 0
  tsEcho : W32 := 0
  ceCnt : Nat := 0
  rxCnt : Nat := 0
  /-- rotation of paths and penalties: (port × 16 + entropy, end of the penalty) (R299) -/
  pathPtr : Nat := 0
  penalties : Tab Nat := []
  /-- acknowledgements of the present congestion period: CE, RX and least delay (R318) -/
  ccCe : Nat := 0
  ccRx : Nat := 0
  ccDelay : Option Nat := none
  ccRun : Nat := 0
  deriving DecidableEq, Repr

/-- An Ethernet port (R292 to R295). -/
structure EthPort where
  up : Bool := false
  /-- present width in lanes, 0 until the link has come up -/
  width : Nat := 0
  /-- lanes the port runs on -/
  lanes : W64 := 0
  pfcEn : BitVec 8 := 0
  /-- priorities paused by received PFC frames, and what waits for their resumption: priority, frame, bytes (R295) -/
  paused : BitVec 8 := 0
  txHeld : List (Nat × Option Frame × List Byte) := []
  /-- bytes of each priority in the receive buffer, and the priorities the port has paused at its peer (R295) -/
  buf : Tab Nat := []
  xoff : BitVec 8 := 0
  /-- retraining narrower (R294) or after ETH_REFCLK (R506) -/
  retraining : Bool := false
  /-- stays down until cold reset (R294) -/
  dead : Bool := false
  deriving DecidableEq, Repr

/-- A node of the node table (R298, R334). -/
structure Node where
  /-- its IP address -/
  ip : BitVec 128 := 0
  live : Bool := false
  watched : Bool := false
  /-- ND_FAB_JOIN named it as watched -/
  byJoin : Bool := false
  /-- timebase of its last frame (R334) -/
  lastSeen : Nat := 0
  lost : Bool := false
  deriving DecidableEq, Repr

/-- An ordered contribution waiting in a slot of a home (R332, R333). -/
structure OrsSlot where
  /-- home that keeps it, index in the panel table -/
  home : Nat
  panel : Nat
  step : Nat
  run : Nat
  mb : Nat
  flow : Nat
  fmt : Nat
  /-- bytes of it that memory holds at its place -/
  len : Nat
  /-- which of its home's 4,096 slots it lies in -/
  place : Nat := 0
  deriving DecidableEq, Repr

/-- A run's cursor and run record (R331, R346): micro-batches added, and the square once formed. -/
structure RunRec where
  /-- cursor of ordered mode -/
  cursor : Nat := 0
  tally : Nat := 0
  squared : Bool := false
  /-- FP64 -/
  sq : Nat := 0
  deriving DecidableEq, Repr

/-- The fabric engine and its MACs (08). -/
structure Fabric where
  node : BitVec 16 := 0
  joined : Bool := false
  ipv6 : Bool := false
  /-- FAB_PORT_CFG.WIDTH, loaded at boot -/
  cfgWidth : BitVec 4 := 8
  laneFail : W64 := 0
  udpPort : BitVec 16 := 47904
  peerLoss : W32 := 1000000
  rto : W32 := 20000
  reorderWin : W32 := 800
  rnrDelay : W32 := 1000
  pathPenalty : W32 := 100000
  ccPeriod : W32 := 800
  ccTarget : W32 := 500
  retryMax : BitVec 5 := 16
  ackCoalesce : BitVec 4 := 4
  ackDelay : BitVec 16 := 200
  ccBeta : W32 := 128
  ccAiStep : W32 := 5000
  ccRateMin : W32 := 1000
  ccHai : W32 := 16
  laneUcwLimit : W32 := 16
  ports : Tab EthPort := []
  win : Tab (W64 × W64) := []
  flows : Tab Flow := []
  nodes : Tab Node := []
  /-- DSCP by traffic class, next-hop MAC by port (R298, R302) -/
  dscp : Tab Nat := []
  mac : Tab Nat := []
  hbPtr : Nat := 0
  /-- a leave waits for its flows to drain (R426) -/
  leaving : Bool := false
  deriving DecidableEq, Repr

/-- Counters and memory areas of the fabric engine. -/
structure FabAux where
  txFrameCnt : W64 := 0
  rxFrameCnt : W64 := 0
  retxCnt : W32 := 0
  rnrCnt : W32 := 0
  dupCnt : W32 := 0
  windowDropCnt : W32 := 0
  staleDropCnt : W32 := 0
  icrcErrCnt : W32 := 0
  rxDropCnt : W32 := 0
  ceCnt : W32 := 0
  tieCnt : W32 := 0
  orsWaitCnt : W32 := 0
  /-- FAB_LAST_ERR -/
  errStatus : BitVec 4 := 0
  errNode : BitVec 16 := 0
  errFlow : BitVec 16 := 0
  errValid : Bool := false
  /-- ordered-reduction area (R333) and raw rings (R425) -/
  oraBase : Nat := 0
  oraLen : Nat := 0
  rawTx : Nat := 0
  rawRx : Nat := 0
  ors : List OrsSlot := []
  /-- contributions held at a ledger slot, by flow and PSN, each counted once (R269) -/
  holds : List (Nat × Nat) := []
  /-- the rotating pointer over context indices, by home (R315) -/
  homePtr : Tab Nat := []
  /-- SEAL slots that wait for ring frames, by panel index and step, in the order of their first contributions (R272) -/
  openers : List (Nat × Nat) := []
  /-- run records by key: panel index × 2^40 + ledger slot × 2^32 + run -/
  runs : Tab RunRec := []
  /-- steps whose result this package has received or frozen slots for: contributions are held or discarded (R270, R352) -/
  frozen : Option Nat := none
  /-- step of the last result received, for late contributions (R270) -/
  resultStep : Option Nat := none
  deriving DecidableEq, Repr

/-! ## Collectives (09) -/

/-- A collective group (R337, R338). -/
structure Group where
  members : List Nat
  /-- flow to each member, by rank -/
  flows : List Nat
  fanout : Nat
  clamp : Bool
  watch : Bool
  /-- MB_MASK by rank (clamp group) -/
  mbMask : List Nat
  /-- operations of the group begun so far: the operation sequence of its frames -/
  opSeq : Nat := 0
  deriving DecidableEq, Repr

/-- A collective operation in progress (R340 to R344). -/
structure CollOp where
  seq : Nat
  /-- near-tier address of its descriptor -/
  desc : Nat
  tag : Option Tag
  /-- the descriptor as read at issue, and whether the read was poisoned -/
  words : List Nat
  poison : Bool := false
  step : Nat
  started : Bool := false
  /-- operation sequence of its frames -/
  gseq : Nat := 0
  /-- ring steps received, barriers passed, or bytes of a BROADCAST received -/
  stage : Nat := 0
  /-- the partial sum or block in hand -/
  acc : List Byte := []
  /-- data it received was poisoned -/
  bad : Bool := false
  /-- this member has reached the barrier, has told its parent, and has been released -/
  selfDone : Bool := false
  upSent : Bool := false
  released : Bool := false
  /-- FAILED of the barrier -/
  failed : Bool := false
  /-- pulls still due in the wave -/
  pullsDue : Nat := 0
  status : Nat := 0
  /-- the node whose message failed it, if one did (R452) -/
  blame : Option Nat := none
  /-- everything it does is done, but for acknowledgements -/
  finished : Bool := false
  /-- an operation of an ND_RESHARD: it has no descriptor in memory (R473) -/
  own : Bool := false
  /-- the barrier that tells the descriptor check is passed (R362) -/
  checked : Bool := false
  deriving DecidableEq, Repr

/-- What a FAR_COPY from another package waits for (R478). -/
inductive CopyStage where
  | idle
  /-- the source map's header -/
  | mapHead
  /-- its next entry -/
  | entry
  /-- the header of the segment that the entry names -/
  | header
  /-- the stored bytes of the segment -/
  | data
  /-- the repair of a bad block -/
  | mend
  deriving DecidableEq, Repr

/-- The FAR_COPY under way (R470, R478). -/
structure FarCopy where
  stage : CopyStage := .idle
  /-- index of the action in the plan -/
  act : Nat := 0
  /-- fabric address of the source map, its REPAIR_SRC, its entries -/
  src : Nat := 0
  sources : List Nat := []
  count : Nat := 0
  /-- the entry copied now: its index and its word; header and stored bytes of its segment -/
  entry : Nat := 0
  word : Nat := 0
  hdr : List Byte := []
  data : List Byte := []
  /-- bytes of the open read, and whether any of them came poisoned -/
  buf : List Host.Cell := []
  bad : Bool := false
  /-- segments copied so far: bytes, index words, format, first block -/
  segs : List (List Byte × List Nat × Nat × Nat) := []
  deriving DecidableEq, Repr

/-- An ND_RESHARD that runs in this member (R473): its plan, descriptor, first wave and place in the order. -/
structure Reshard where
  group : Nat
  plan : Nat
  desc : Nat
  first : Nat
  /-- 0 the first barrier, 1 the waves, 2 the final barrier, 3 over -/
  phase : Nat := 0
  /-- status of its end, 0 while its own part has not failed -/
  status : Nat := 0
  copy : FarCopy := {}
  deriving DecidableEq, Repr

/-- Collective data received (R348): of a group's operation and ring step, at a byte offset. -/
structure CollIn where
  group : Nat
  gseq : Nat
  ring : Nat
  off : Nat
  data : List Byte
  bad : Bool
  deriving DecidableEq, Repr

/-- A child's arrival at a barrier (R348). -/
structure CollUp where
  group : Nat
  gseq : Nat
  rank : Nat
  failed : Bool
  deriving DecidableEq, Repr

/-- The clamp in progress (R350 to R357). -/
structure ClampRun where
  step : Nat
  group : Nat
  /-- the collective operation of the CLAMP record, if one was issued -/
  op : Option Nat := none
  /-- loss cell; none without a record -/
  cell : Option Nat := none
  /-- the own record is ready (R352); it is formed when it is sent -/
  ready : Bool := false
  /-- children's partials by rank; children declared absent -/
  parts : List (Nat × ClampRec) := []
  absentKids : List Nat := []
  sent : Bool := false
  /-- at the root: the result that awaits the backup's acknowledgement (R355) -/
  pending : Option ClampRec := none
  /-- queries: 0 none, 1 asked the backup root, 2 asked the root (R356) -/
  queried : Nat := 0
  /-- the result has been taken -/
  done : Bool := false
  deriving DecidableEq, Repr

/-- The collective engine (09). -/
structure Coll where
  groups : Tab Group := []
  ops : List CollOp := []
  seq : Nat := 0
  inData : List CollIn := []
  inUps : List CollUp := []
  clamp : Option ClampRun := none
  /-- micro-batches with a GRAD_SEND of the step that did not end with OK -/
  gradBad : Nat := 0
  /-- partials that came before the CLAMP record was issued -/
  earlyParts : List (Nat × ClampRec) := []
  /-- result received before the CLAMP record was issued (R357) -/
  heldResult : Option ClampRec := none
  /-- groups whose COLL records have been issued since the program was loaded (R426) -/
  named : List Nat := []
  /-- result ring of the last CLAMP record since the program was loaded: address and entries (R357) -/
  ring : Option (Nat × Nat) := none
  ringIdx : Nat := 0
  clampBusy : Bool := false
  clampWait : W32 := 200000
  clampResultWait : W32 := 1000000
  clampHop : W32 := 10000
  /-- FAB_CLAMP registers: VALID and the last result -/
  valid : Bool := false
  lastRes : ClampRec := {}
  doveWave : BitVec 8 := 0
  /-- the last ND_RESHARD of mode 1 or 2 -/
  reshard : Option Reshard := none
  lateCnt : W32 := 0
  absentCnt : W32 := 0
  selfDropCnt : W32 := 0
  queryCnt : W32 := 0
  tieCnt : W32 := 0
  trimRunCnt : W32 := 0
  opCnt : W32 := 0
  deriving DecidableEq, Repr

/-! ## Coherence and the host port (10) -/

/-- State of a line in a cluster cache (R378). -/
inductive LineState where
  | inv | shr | exc | own | mod | isP | imP | smP | omP | wbP
  deriving DecidableEq, Repr

/-- Data of a 64-byte line with its poison (R155). -/
structure LineData where
  bytes : List Byte := []
  poison : Bool := false
  deriving DecidableEq, Repr

/-- A device or host line in a cluster cache (R378, R393): L3 and L2 of the cluster answer as one. -/
structure CacheLine where
  st : LineState := .inv
  data : LineData := {}
  /-- stores that wait for the grant: offset in the line and bytes, oldest first -/
  stores : List (Nat × List Byte) := []
  /-- RETRY answers to the request open (R374); the wait in ns is 64 doubled by each, at most 8,192 -/
  retries : Nat := 0
  /-- a RETRY has been answered and the resend is due after the wait -/
  backoff : Bool := false
  deriving DecidableEq, Repr

/-- Directory states of R371; the transient code of an entry is that of its open transaction. -/
inductive DirState where
  | ds | dem | downed
  deriving DecidableEq, Repr

/-- A directory entry (R370). -/
structure DirEntry where
  /-- line number -/
  line : Nat
  st : DirState
  sharers : BitVec 9 := 0
  owner : Nat := 0
  nru : Bool := true
  deriving DecidableEq, Repr

/-- Transient states of R371. -/
inductive TxnState where
  | tSnp | tWb | tMem | tAck
  deriving DecidableEq, Repr

/-- An open line transaction (R379, R380). -/
structure Txn where
  req : Req
  st : TxnState
  /-- agents whose snoop response is outstanding -/
  waiting : List Nat := []
  /-- agents that answered RSP_EVICTING and whose writeback has not landed -/
  evicting : List Nat := []
  /-- agents that answered RSP_MISS -/
  missed : List Nat := []
  /-- dirty data returned, and by whom -/
  dirty : Option LineData := none
  dirtyBy : Option Nat := none
  /-- memory data, once read -/
  memory : Option LineData := none
  /-- the request was an Upgrade handled as RdOwn (R383) -/
  asOwn : Bool := false
  /-- an engine has written the line while its fill was outstanding: the fill is not installed (R179) -/
  noFill : Bool := false
  deriving DecidableEq, Repr

/-- An entry being evicted (R375). -/
structure Evict where
  entry : DirEntry
  waiting : List Nat
  evicting : List Nat := []
  dirty : Option LineData := none
  deriving DecidableEq, Repr

/-- A writeback in the home's buffer (R381). -/
structure Wb where
  agent : Nat
  line : Nat
  data : LineData
  deriving DecidableEq, Repr

/-- A home agent: directory slice, transactions, buffers and registers (R370 to R383). -/
structure Home where
  /-- entries by set × 16 + way -/
  dir : Tab DirEntry := []
  txns : List Txn := []
  /-- requests waiting in their lines' chains, in order -/
  chain : List Req := []
  /-- overflow queue (R374); the flag says that the entry is one of the 8 kept for port 8 -/
  overflow : List (Bool × Req) := []
  /-- requests waiting at their port's ingress: port 8 when its places are full, any port when 128 are open -/
  ingress : List Req := []
  wb : List Wb := []
  evicts : List Evict := []
  /-- rotating priority pointer (R382) -/
  ptr : BitVec 4 := 0
  snoopTimeout : W32 := 10000
  probe : W64 := 0
  retryCnt : W32 := 0
  overflowCnt : W32 := 0
  backinvCnt : W32 := 0
  staleMissCnt : W32 := 0
  evictingCnt : W32 := 0
  upgRdownCnt : W32 := 0
  timeoutTieCnt : W32 := 0
  snoopCnt : W32 := 0
  deriving DecidableEq, Repr

/-- States of port 0 as an upstream port (R394). -/
inductive HostState where
  | down | up | retraining | lost
  deriving DecidableEq, Repr

/-- A device access to host memory in flight (R387, R393, R395): for whom and where. -/
structure HostAcc where
  write : Bool
  /-- host physical address -/
  addr : Nat
  len : Nat
  data : List Byte
  /-- requester port of R368 -/
  port : Nat
  /-- bench of a bench DMA access, so that its descriptor completes (R123) -/
  bench : Option Nat
  /-- place in the task's buffer that a bench read delivers to -/
  dest : Nat := 0
  deriving DecidableEq, Repr

/-- An entry of the orphan log (R396). -/
structure Orphan where
  /-- host physical line number -/
  line : Nat
  cluster : Nat
  time : Nat
  deriving DecidableEq, Repr

/-- Port 0 as seen from the host and its registers at 0x9000 of home 0 (R390 to R397). -/
structure HostPort where
  st : HostState := .down
  /-- COH_HOST_STATUS.LOST -/
  lostFlag : Bool := false
  /-- BASE, bits [51:30] of the host physical address -/
  base : BitVec 22 := 0
  lostCnt : W32 := 0
  retrainCnt : W32 := 0
  orphanOvfCnt : W32 := 0
  poisonCnt : W32 := 0
  poisonAddr : BitVec 48 := 0
  poisonValid : Bool := false
  orphans : List Orphan := []
  /-- host-line filter: host line number and the clusters that may hold it, oldest fill first -/
  filter : List (Nat × BitVec 8) := []
  /-- accesses to host memory not yet acknowledged, oldest first -/
  flight : List HostAcc := []
  /-- lines held by the alias read-ahead (R388, R391): line number and data, oldest first -/
  ahead : List (Nat × LineData) := []
  /-- the last line an alias read took, so that a sequential read is known -/
  lastAlias : Option Nat := none
  deriving DecidableEq, Repr

/-! ## Silkai and the mailboxes (11) -/

/-- States of a mailbox (R407). -/
inductive MbxState where
  | idle | pending | busy | done | notReady
  deriving DecidableEq, Repr

/-- A command that waits on an event outside Silkai (R411). -/
inductive Waiting where
  | jigStop (unload : Bool)
  | fabLeave
  | flowOpen (flow gen : Nat)
  | flowClose (flow : Nat)
  | reshard (entries waves : Nat)
  /-- the flash is being written: a config image or a firmware slot, and the image (R439) -/
  | fwUpdate (cfg : Bool) (img : List Byte)
  deriving DecidableEq, Repr

/-- Mailbox k and doorbell page k (R402 to R413). -/
structure Mailbox where
  /-- MBX_CMD, zero where nothing is listed -/
  area : Tab Byte := []
  st : MbxState := .notReady
  result : BitVec 4 := 0
  hostLost : Bool := false
  irqPend : Bool := false
  /-- SEQ of the last completed command -/
  seq : BitVec 16 := 0
  /-- MBX_SEQ.LAST -/
  last : BitVec 16 := 0
  irqEn : Bool := false
  doorbellDropCnt : W32 := 0
  writeDropCnt : W32 := 0
  /-- the command that waits -/
  waiting : Option Waiting := none
  /-- opcode and SEQ of the command that waits -/
  waitOp : BitVec 16 := 0
  waitSeq : BitVec 16 := 0
  /-- MBX_JIG_GO_STATUS -/
  goPending : Bool := false
  goResult : BitVec 4 := 0
  goStep : W64 := 0
  deriving DecidableEq, Repr

/-- An allocation (R418). -/
structure Alloc where
  /-- 0 NEAR, 1 FAR, 2 BOARD_GDDR -/
  tier : Nat
  addr : Nat
  size : Nat
  extent : Nat
  /-- segments reserved for a placed FAR allocation (R216) -/
  reserved : Nat := 0
  /-- pinned NEAR allocation of unified mode (R217) -/
  pinned : Bool := false
  deriving DecidableEq, Repr

/-- A registered region (R418, R419). -/
structure Region where
  base : Nat
  len : Nat
  engine : Bool
  fabRd : Bool
  fabWr : Bool
  fabAtom : Bool
  deriving DecidableEq, Repr

/-- The telemetry area's fields (R404); the rest reads zero. -/
structure Telemetry where
  seq : W32 := 0
  time : W64 := 0
  periodUs : W32 := 1000
  step : W64 := 0
  powerMw : W32 := 0
  tempCarc : BitVec 16 := 0
  tempBay : List (BitVec 16) := [0, 0, 0, 0]
  tempHbm : List (BitVec 16) := [0, 0, 0, 0, 0, 0, 0, 0]
  kerfLast : W32 := 0
  kerfMin : W32 := 0
  stalls : W32 := 0
  benchDiv : W32 := 0
  /-- STRM_STALL_CNT and kerf records at the previous rewrite -/
  stallsAt : W32 := 0
  kerfAt : W32 := 0
  deriving DecidableEq, Repr

/-- Silkai's own state: mailboxes, allocations, regions, telemetry (11). -/
structure Silkai where
  mbx : Tab Mailbox := []
  /-- rotating take pointer over mailbox 0, page 0, mailbox 1, … (R410) -/
  ptr : BitVec 5 := 0
  waitLimit : W32 := 30000
  tieCnt : W32 := 0
  heartbeat : W32 := 0
  allocs : Tab Alloc := []
  regions : Tab Region := []
  tel : Telemetry := {}
  /-- rewrite period of the telemetry area, µs (R404) -/
  period : W32 := 1000
  /-- held in reset after SILKAI_LOCKSTEP or SILKAI_SRAM_UE in the safe state (R460) -/
  heldReset : Bool := false
  /-- Puwell core 0 released at the loader's entry (R432) -/
  puwellRun : Bool := false
  /-- Puwell cores halted in the safe state (R460) -/
  puwellHalted : Bool := false
  /-- MSI-X enabled by the host; vectors masked, 17 bits; pending-bit array (R402, R446) -/
  msixEn : Bool := false
  msixMask : BitVec 17 := 0x1FFFF
  msixPba : BitVec 17 := 0
  /-- MSI-X table: address and data of each vector -/
  msixTab : Tab (W64 × W32) := []
  /-- the panel table was given (R423) -/
  panelTable : Bool := false
  /-- last ND_OPT_CONFIG JOB payload (R484) -/
  jobPayload : List Byte := []
  /-- step of the last started program and state for SPDM: certificates are the root of trust's -/
  spdmVersion : Bool := false
  /-- segments pinned by the two most recent snapshots, newest first (R482) -/
  pins : List (List Nat) := []
  /-- segments whose free is deferred by a pin -/
  deferred : List Nat := []
  /-- restored manifest: address and length (R489) -/
  restored : Option (Nat × Nat) := none
  deriving DecidableEq, Repr

/-- SPI flash (11): boot records, config image, repair and retirement log, slots, loader. -/
structure Flash where
  /-- boot record copies: SLOT, SEQ, and whether its CRC holds (R435) -/
  records : List (Nat × Nat × Bool) := [(0, 0, true), (0, 0, false)]
  /-- config image bytes (R433); empty: no valid image -/
  config : List Byte := []
  /-- repair and retirement log entries, 32 bytes each as four words (R453) -/
  log : List (List Nat) := []
  /-- firmware slots A and B and the Puwell loader, as stored -/
  slotA : List Byte := []
  slotB : List Byte := []
  loader : List Byte := []
  deriving DecidableEq, Repr

/-! ## Fault collector (12) -/

/-- FC_SEVERITY[n] (R448). -/
structure Src where
  sev : BitVec 2
  lock : Bool := false
  noLog : Bool := false
  notify : Bool := false
  noNotify : Bool := false
  pending : Bool := false
  pendSev : BitVec 2 := 0
  count : BitVec 16 := 0
  deriving DecidableEq, Repr

/-- A fault-log entry (R451). -/
structure LogEntry where
  time : W64
  src : BitVec 9
  sev : BitVec 2
  floor : Bool
  rep : Bool
  epoch : BitVec 16
  step : W32
  info : W64
  seq : W32
  deriving DecidableEq, Repr

/-- The fault collector (12). -/
structure Collector where
  /-- sources by number; one not listed is at its default (R443) -/
  srcs : Tab Src := []
  safe : Bool := false
  /-- entry to the safe state has begun (R461) -/
  entering : Bool := false
  safeValid : Bool := false
  safeSrc : BitVec 9 := 0
  safeTime : W64 := 0
  notify : Bool := false
  /-- MODE in use and written: 0 pulse, 1 static -/
  mode : BitVec 1 := 1
  threshold : BitVec 2 := 2
  pulseMinUs : BitVec 14 := 20
  hold : Bool := false
  fallback : Bool := false
  /-- the FLT_N pulse timer runs -/
  pulse : Bool := false
  /-- a heartbeat was written in the last 10 ms (R458) -/
  fresh : Bool := true
  /-- owed notifications: MSI-X, I3C (the Puwell line is the level of `notify`) (R446) -/
  owedMsix : Bool := false
  owedI3c : Bool := false
  /-- log entries by slot -/
  log : Tab LogEntry := []
  /-- slot filled next in ring order -/
  logPtr : Nat := 0
  seq : W32 := 0
  /-- FC_SELF_STATUS -/
  selfErr : Bool := false
  selfKind : BitVec 1 := 0
  selfOff : BitVec 20 := 0
  /-- raises are no longer recorded after a self-check failure until reset (R459) -/
  deaf : Bool := false
  tieCnt : W32 := 0
  lostCnt : W32 := 0
  refusedCnt : W32 := 0
  raiseCnt : W32 := 0
  logCeCnt : W32 := 0
  /-- boot has halted: FLT_N asserts (R431) -/
  halted : Bool := false
  /-- board GDDR has reported GDDR_UE since reset (R417) -/
  gddrUe : Bool := false
  deriving DecidableEq, Repr

/-! ## Power (14) -/

/-- A wake reservation (R511, R513, R514): bench, share in 0.01 A/µs. -/
structure Wake where
  bench : Nat
  share : Nat
  deriving DecidableEq, Repr

/-- Power of a bay. -/
structure BayPower where
  /-- division in force: 5, 6, 8 or 10 -/
  div : Nat := 5
  /-- division the limit loop and the thermal loop ask for -/
  limitDiv : Nat := 5
  thermDiv : Nat := 5
  /-- wake requests waiting, in order of arrival, and the timebase at arrival -/
  queue : List (Nat × Nat) := []
  reserved : List Wake := []
  deriving DecidableEq, Repr

/-- The power controller (R508 to R516). -/
structure Power where
  bays : Tab BayPower := []
  brake : Bool := false
  /-- recovering from the brake step by step (R515): division every bay is held to -/
  brakeDiv : Nat := 5
  limitMiss : Bool := false
  limit : BitVec 11 := 1600
  /-- budget in 0.01 A/µs (R512) -/
  budget : BitVec 24 := 0
  inputMw : W32 := 0
  wakeCnt : W32 := 0
  waitCnt : W32 := 0
  throttleCnt : W32 := 0
  brakeCnt : W32 := 0
  waitTimeCnt : W64 := 0
  /-- milliseconds in a row the average was below 95 % of the limit (R509) -/
  belowMs : Nat := 0
  /-- milliseconds each bay has been out of warning (R516) -/
  coolMs : List Nat := [0, 0, 0, 0]
  /-- units at or above their warning level and not yet 3 °C below: carcass, bays, stacks as THERM_WARN numbers them -/
  warm : BitVec 13 := 0
  /-- units at or above the critical level -/
  crit : BitVec 13 := 0
  /-- last temperatures in 1/16 °C: carcass, bays, stacks -/
  temps : List (BitVec 16) := [0, 0, 0, 0, 0, 0, 0, 0, 0, 0, 0, 0, 0]
  /-- last telemetry of the ten regulators: READ_VOUT mV, READ_IOUT mA, 0 for one that does not answer (R498) -/
  regs : Tab (Nat × Nat) := []
  /-- last VOUT_COMMAND of VDD_BAY0 to VDD_BAY3 and VDD_CARC, in mV; none before boot stage 1 (R498) -/
  vout : List Nat := []
  deriving DecidableEq, Repr

/-! ## Boot, protection, pins, clocks: changed by few commands -/

/-- The config image in force (R433), as loaded at stage 4. -/
structure Cfg where
  /-- per CXL port: ROLE, 32 GT/s, IDE, SPLIT, FAR_RETAIN -/
  cxl : List (Nat × Bool × Bool × Bool × Bool) :=
    [(0, true, false, false, false), (0, true, false, false, false), (0, true, false, false, false), (0, true, false, false, false)]
  ethW : Nat := 8
  ethC2m : W64 := 0
  fcMode : BitVec 1 := 1
  fcThreshold : BitVec 2 := 2
  fcPulseMinUs : BitVec 14 := 20
  mbxAccess : BitVec 16 := 0xFF00
  fwUpdateLock : Bool := false
  faultCfgLock : Bool := false
  puwellStart : Bool := true
  slewOverride : W32 := 0
  i3cAddr : BitVec 7 := 0x4C
  sevLock : BitVec 512 := 0
  deriving DecidableEq, Repr

/-- A protection-table entry (R436): word 0 and word 1. -/
structure PtEntry where
  lo : W64 := 0
  hi : W64 := 0
  deriving DecidableEq, Repr

/-- BOOT_STATUS and its companions (R430). -/
structure Boot where
  stage : BitVec 4 := 1
  ready : Bool := false
  failed : Bool := false
  cfgDefaulted : Bool := false
  fwSlot : BitVec 1 := 0
  fwFallback : Bool := false
  cold : Bool := true
  ptStale : Bool := false
  failCode : BitVec 8 := 0
  readyTime : W64 := 0
  fwVersion : W32 := 0
  /-- BOOT_STAGE_TIME[s] by s -/
  stageTime : Tab W64 := []
  /-- stages run: false while in reset or waiting for the release -/
  running : Bool := false
  deriving DecidableEq, Repr

/-- Fuses (R5, R434, R498, R520). -/
structure Fuses where
  /-- physical number of each bay's spare bench -/
  spare : List Nat := [32, 32, 32, 32]
  /-- security version counter -/
  svn : Nat := 0
  serial : W64 := 0
  /-- SHA-384 of the keys 0 to 3 and of the debug key; revoked keys -/
  keys : List Nat := [0, 0, 0, 0]
  revoked : BitVec 4 := 0
  debugKey : Nat := 0
  /-- voltage codes of VDD_BAY0 to VDD_BAY3 and VDD_CARC, in mV (R498) -/
  vout : List Nat := [750, 750, 750, 750, 800]
  deriving DecidableEq, Repr

/-- JTAG (R519, R520). -/
structure Jtag where
  /-- TAP instruction last updated; what it acts as depends on SYS_RST_N and the debug lock -/
  instr : Nat := 1
  trst : Bool := false
  unlocked : Bool := false
  failures : Nat := 0
  nonce : Nat := 0
  deriving DecidableEq, Repr

/-- Pins (R494 to R502). -/
structure Pins where
  pwrOk : Bool := false
  sysRstN : Bool := false
  /-- level of PERST_N[n], low true for driven low; PERST_N[0] of an upstream port is the host's level -/
  perst : BitVec 4 := 0
  /-- PERST_N[0] is not driven: its role is unknown or upstream -/
  perst0Open : Bool := true
  pwrbrkN : Bool := true
  thermtrip : Bool := false
  deriving DecidableEq, Repr

/-- Clocks (R503 to R507). -/
structure Clocks where
  pllLock : Bool := false
  refclkOk : Bool := false
  ethRefclkOk : Bool := false
  onOsc : Bool := false
  timebase : W64 := 0
  /-- the timebase counts: from the internal reset release (R504) -/
  counting : Bool := false
  deriving DecidableEq, Repr

/-- What only boot, reset, pin, clock and JTAG events change, and the rows of the protection tables. -/
structure Ctl where
  boot : Boot := {}
  cfg : Cfg := {}
  ptLock : Bool := false
  /-- entries by class × 32 + index -/
  pt : Tab PtEntry := []
  fuses : Fuses := {}
  jtag : Jtag := {}
  pins : Pins := {}
  clk : Clocks := {}
  /-- the internal reset is released and no reset is asserted: the blocks run (R500, R501) -/
  live : Bool := false
  deriving DecidableEq, Repr

/-- What leaves a unit of the part in the course of one command: frames, interrupts, messages between caches and homes, data
to a requester. Only the last command's are held. -/
inductive OutEvent where
  /-- a frame sent on an Ethernet port (R303), or a raw frame (R425) -/
  | frame (port : Nat) (f : Frame) (bytes : List Byte := [])
  | raw (port : Nat) (bytes : List Byte)
  /-- a priority paused at the peer, or resumed (R295) -/
  | pause (port prio : Nat) (on : Bool)
  /-- VOUT_COMMAND to the regulator of a rail, in mV (R498) -/
  | vout (rail mv : Nat)
  /-- Local Fault ordered sets begin on ports (R296) -/
  | localFault (ports : List Nat)
  /-- an MSI-X vector (R402), an I3C in-band interrupt (R446), a management reply (R440) -/
  | msix (vector : Nat)
  | ibi
  | mgmt (bytes : List Byte)
  /-- a home's snoop: 0 SnpInv, 1 SnpData, 2 SnpCur (R377) -/
  | snoop (home agent kind line : Nat)
  /-- a grant: 0 S, 1 E, 2 M -/
  | grant (agent line state : Nat) (data : Option LineData)
  /-- data of a non-caching read, and a write's acknowledgement -/
  | data (port line : Nat) (d : LineData)
  | ack (port line : Nat)
  | retry (cluster line : Nat)
  | wbAck (agent line : Nat)
  /-- a cluster's request or writeback, its snoop response and its GrantAck (R378) -/
  | request (cluster : Nat) (kind : ReqKind) (line : Nat)
  | writeback (cluster line : Nat) (d : LineData)
  | response (cluster line : Nat) (r : SnoopRsp) (d : LineData)
  | grantAck (cluster line : Nat)
  /-- messages of upstream port 0: a write or read of host memory, BIConflictAck, a configuration completion (R390 to R393, R432) -/
  | hostWrite (addr : Nat) (bytes : List Byte) (poison : Bool := false)
  | hostRead (addr len : Nat)
  | hostSnoop (line : Nat) (r : SnoopRsp) (d : LineData)
  | biConflictAck (line : Nat)
  | config (retry : Bool) (reg : Nat)
  /-- an answer to a register or window read -/
  | value (port addr v : Nat)
  | bytes (port addr : Nat) (bs : List Byte) (poison : Bool)
  deriving DecidableEq, Repr

/-- Everything but boot, protection, pins, clocks and the queue. -/
structure Dev where
  benches : Tab Bench := []
  /-- which benches are active, by bay: bit i is physical bench i (R5) -/
  active : List (BitVec 33) := [0xFFFFFFFF, 0xFFFFFFFF, 0xFFFFFFFF, 0xFFFFFFFF]
  mem : Memory := {}
  near : Near := {}
  far : FarTier := {}
  jigs : Tab Jig := []
  life : StepLife := {}
  stagers : Tab Stager := []
  stream : Stream := {}
  planes : Tab Plane := []
  opt : OptJob := {}
  fab : Fabric := {}
  aux : FabAux := {}
  coll : Coll := {}
  homes : Tab Home := []
  /-- cluster caches: lines by cluster × 2^42 + line number -/
  caches : Tab CacheLine := []
  host : HostPort := {}
  silkai : Silkai := {}
  flash : Flash := {}
  fc : Collector := {}
  pwr : Power := {}
  /-- latched low halves of action registers (R524) and latched high halves of counters (R20), by port × 2^48 + address -/
  loLatch : Tab W32 := []
  hiLatch : Tab W32 := []
  /-- the model's own: what the last command sent -/
  out : List OutEvent := []
  /-- the model's own: draws of free values so far -/
  free : Nat := 0
  /-- the model's own: resets so far that lost memory contents, and those that lost board GDDR's (R523) -/
  era : Nat × Nat := (0, 0)
  deriving DecidableEq, Repr

/-- The machine: commands waiting, first in first out; the control part; everything else. -/
structure State where
  pending : List Instr := []
  ctl : Ctl := {}
  dev : Dev := {}
  deriving DecidableEq, Repr

/-- Why a step stops with a fault. No command of the spec does: every event has a next state (R23). -/
inductive Fault where
  /-- raised by no meaning: kept so that the type is inhabited; safe -/
  | none
  deriving DecidableEq, Repr

/-- Why a command is refused. -/
inductive Refusal where
  /-- raised by an arm of Dispatch whose command has no meaning yet, with its mnemonic; safe -/
  | notModelled (mnemonic : String)
  deriving DecidableEq, Repr

/-- The package in cold reset, after the rise of PWR_OK and before the internal reset release (R430, R500): every register
at its reset value, no memory listed, no command waiting. -/
def State.reset : State := { ctl := { pins := { pwrOk := true } } }

end Sys2Proof.Machine
end

