-- ==== Sys2Proof/Machine/MatrixRun.lean ====
section
/-! DEFINITION. Banks of a bench's scratchpad (R108 to R117), its error marks (R112), and the progress of a matrix task: the
array fills a tile, the drain writes it, each while its banks are the engine's (R83, R84, R87, R95). -/

namespace Sys2Proof.Machine

open Sys2Proof

/-! ## Banks and ownership -/

/-- The bank that holds an offset (R108). -/
def bankOfOff (b : Bench) (o : Nat) : Nat := if bitAt b.paired.toNat (o / 0x40000) then o / 0x40000 * 2 + o / 128 % 2 else o / 0x20000

/-- May master `m` access a bank now (R114, R117)? -/
def ownsBank (b : Bench) (m i : Nat) : Bool := tabGet 0 b.owner i == m && !bitAt b.handover.toNat i

/-- The place a waiting access wants: a bank, 16 for the stat store. It follows a change of the pairing (R109). -/
def waitPlace (b : Bench) (w : WaitAcc) : Nat := if w.stat then 16 else bankOfOff b w.off

/-- Has master `m` an access that waits for a place? Waits never reorder a master's own accesses to one bank (R114). -/
def waitsFor (b : Bench) (m i : Nat) : Bool := b.waits.any (fun w => w.master == m && waitPlace b w == i)

/-- Does an access of master `m` to a bank go at once: the bank is its own and none of its own accesses waits for it (R114)? -/
def bankReady (b : Bench) (m i : Nat) : Bool := ownsBank b m i && !waitsFor b m i

/-- Engine of a master: 0 DMA, 1 MX, 2 VEC, 3 ROW. -/
def engOf (b : Bench) (m : Nat) : Eng := match m with | 0 => b.dma | 1 => b.mx | 2 => b.vec | _ => b.row
def setEng (b : Bench) (m : Nat) (e : Eng) : Bench := match m with | 0 => { b with dma := e } | 1 => { b with mx := e } | 2 => { b with vec := e } | _ => { b with row := e }

/-- Task `k` of an engine leaves it: its waits go with it, those of the task behind it move up (R83, R115). -/
def leaveSlot (m k : Nat) (b : Bench) : Bench :=
  { b with waits := (b.waits.filter (fun w => !(w.master == m && w.slot == k))).map (fun w => if w.master == m && decide (k < w.slot) then { w with slot := w.slot - 1 } else w) }

/-- The first offset of a span that lies in bank `i` (R108). -/
def firstInBank (b : Bench) (s : Span) (i : Nat) : Option Nat :=
  if bitAt b.paired.toNat (i / 2) then
    let lo := max s.1 (i / 2 * 0x40000)
    let hi := min (s.1 + s.2) (i / 2 * 0x40000 + 0x40000)
    let o := if lo / 128 % 2 = i % 2 then lo else (lo / 128 + 1) * 128
    if o < hi then some o else none
  else
    let lo := max s.1 (i * 0x20000)
    if lo < min (s.1 + s.2) (i * 0x20000 + 0x20000) then some lo else none

/-- Where a master must wait: the offset of the first access of the spans to a bank that is not its own, or for which it waits already
(R114). -/
def missingAt (b : Bench) (m : Nat) (ss : List Span) : Option Nat :=
  (List.range 16).findSome? (fun i => if bankReady b m i then none else ss.findSome? (fun s => firstInBank b s i))

/-- May a master access the stat store now (R135)? -/
def ownsStat (b : Bench) (m : Nat) : Bool := b.statOwner.toNat == m && !b.statHandover

/-- The same, and none of its own accesses waits for it (R114). -/
def statReady (b : Bench) (m : Nat) : Bool := ownsStat b m && !waitsFor b m 16

/-! ## Error marks (R112) -/

/-- Words of a span with an uncorrectable error: the offset of the first (R112). -/
def badWord (b : Bench) (ss : List Span) : Option Nat := (b.dbl.find? (fun p => ss.any (fun s => overlaps s.1 s.2 (p.1 * 8) 8))).map (fun p => p.1 * 8)

/-- A write's full words lose their error mark. -/
def clearDbl (t : Tab Bool) (o n : Nat) : Tab Bool := t.filter (fun p => !(spanIn (p.1 * 8) 8 o n))

/-- Is every byte of a word written by one of the spans? -/
def wordWritten (ws : List Span) (k : Nat) : Bool := (List.range 8).all (fun i => ws.any (fun s => decide (s.1 ≤ 8 * k + i) && decide (8 * k + i < s.1 + s.2)))

/-- Words that a run wrote whole are sound again. -/
def soundWords (ws : List Span) (t : Tab Bool) : Tab Bool := t.filter (fun p => !wordWritten ws p.1)

/-! ## A matrix task, tile by tile -/

/-- The random words of a matrix task: its stream context was read with the descriptor (R79, R477, R478). -/
def mxRand (seed : W64) (t : Task) : Nat → Nat := srWord seed.toNat t.step t.mb (mxDescOf t.words).streamId t.ctx

/-- What one of the engine's two streams can do now: its next tile, nothing, meet an uncorrectable word, or wait at an offset. -/
inductive MxMove where
  | go
  | rests
  | bad (off : Nat)
  | waits (off : Nat)
  deriving DecidableEq, Repr

/-- A stream's accesses: each waits for its own bank (R84). -/
def mxAccess (b : Bench) (reads writes : List Span) : MxMove :=
  match missingAt b 1 (reads ++ writes), badWord b reads with
  | some o, _ => .waits o
  | none, some o => .bad o
  | none, none => .go

/-- The drain: the oldest tile the array has finished, once its partial tiles are released (R84, R95). -/
def mxDrainMove (b : Bench) (x : MxDesc) (t : Task) : MxMove :=
  if t.fill ≤ t.drain || (x.nPart != 0 && decide (t.tile ≤ t.drain)) then .rests
  else mxAccess b (mxDrainReads (spadRd b.spad) x t.drain) (mxTileWrites (spadRd b.spad) x t.drain)

/-- The array: the next tile, while one of the two accumulator sets is free (R83, R84). -/
def mxFillMove (b : Bench) (x : MxDesc) (t : Task) : MxMove :=
  if mxTiles x ≤ t.fill || decide (t.drain + 2 ≤ t.fill) then .rests else mxAccess b (mxFillReads x t.fill) []

/-- The drain of a tile (R95 to R100, R139). -/
def mxDrain (rand : Nat → Nat) (b : Bench) (x : MxDesc) (t : Task) : Bench × Task :=
  let r := mxDrainTile b.spad x t.drain (t.accs.headD []) t.run rand
  let n := if x.partialOut then 0 else r.2.1
  ({ b with spad := r.1, dbl := soundWords (mxTileWrites (spadRd b.spad) x t.drain) b.dbl,
            mx := { b.mx with nonfinite := b.mx.nonfinite || decide (0 < n), nonfinCnt := cntAdd b.mx.nonfinCnt n } },
   { t with drain := t.drain + 1, accs := t.accs.drop 1, run := r.2.2 })

/-- The array finishes a tile (R81, R89). -/
def mxFill (b : Bench) (x : MxDesc) (t : Task) : Bench × Task :=
  ({ b with mx := { b.mx with tile := BitVec.ofNat 16 t.fill } }, { t with fill := t.fill + 1, accs := t.accs ++ [mxFillTile (spadRd b.spad) x t.fill] })

/-- At most `n` moves of the two streams. -/
def mxGo (rand : Nat → Nat) (x : MxDesc) : Nat → Bench → Task → Bench × Task
  | 0, b, t => (b, t)
  | n + 1, b, t =>
    match mxDrainMove b x t, mxFillMove b x t with
    | .go, _ => mxGo rand x n (mxDrain rand b x t).1 (mxDrain rand b x t).2
    | _, .go => mxGo rand x n (mxFill b x t).1 (mxFill b x t).2
    | _, _ => (b, t)

/-- The first tile of the pending task, while the last tile of the running one waits to be drained: the other accumulator set is free
(R83). DESIGN CHOICE (log 148): where that drain can go on at once, the tile reads its operands after it. -/
def mxAheadMove (b : Bench) (t : Task) (p : Task) : MxMove :=
  let n := mxTiles (mxDescOf t.words)
  if p.issued && !p.ran && p.fill == 0 && t.fill == n && t.drain + 1 == n then mxFillMove b (mxDescOf p.words) p else .rests

/-- Moves of a whole task: a fill and a drain of every tile. -/
def mxMoves (x : MxDesc) : Nat := 2 * mxTiles x

/-- The word that ends the task with POISONED: the drain's, or the array's once every earlier tile is drained (R87). -/
def mxBadAt (b : Bench) (x : MxDesc) (t : Task) : Option Nat :=
  match mxDrainMove b x t, mxFillMove b x t with
  | .bad o, _ => some o
  | _, .bad o => if t.fill = t.drain then some o else none
  | _, _ => none

/-- The offsets at which the streams wait (R84, R114). -/
def mxWaits (b : Bench) (x : MxDesc) (t : Task) : List Nat :=
  let off := fun (m : MxMove) => match m with | .waits o => [o] | _ => []
  off (mxDrainMove b x t) ++ off (mxFillMove b x t)

/-- A bench whose running task cannot end yet: the pending one fills its first tile if it can (R83). -/
def mxAhead (b : Bench) : Bench :=
  match b.mx.slots with
  | t :: p :: rest =>
    match mxAheadMove b t p with
    | .go => let r := mxFill b (mxDescOf p.words) p; { r.1 with mx := { r.1.mx with slots := t :: r.2 :: rest } }
    | _ => b
  | _ => b

/-- The offset at which the pending task's first tile waits (R83, R114). -/
def mxAheadWaits (b : Bench) : List Nat :=
  match b.mx.slots with
  | t :: p :: _ => match mxAheadMove b t p with | .waits o => [o] | _ => []
  | _ => []

/-- A bench whose running matrix task has moved on. -/
def withMx (r : Bench × Task) : Bench := { r.1 with mx := { r.1.mx with slots := r.2 :: r.1.mx.slots.drop 1 } }

/-- What an abandoned task leaves: the tiles that its drain had written by then, a number the spec leaves to the clocks (R87). -/
def mxAbandon (seed : W64) (free : Nat) (t : Task) (b : Bench) : Bench :=
  let x := mxDescOf t.words
  if t.ran then b else (mxGo (mxRand seed t) x (Config.choice free (mxMoves x + 1) % (mxMoves x + 1)) b t).1

end Sys2Proof.Machine
end

