-- ==== Sys2Proof/Machine/NearMap.lean ====
section
/-! DEFINITION. Where a near-tier address lies: the pseudo-channel hash, banks and rows, tag slots and sacrificed ranges
(R144 to R147, R171). -/

namespace Sys2Proof.Machine

/-- Block number of a near-tier address (R144 step 1). -/
def blockOf (a : Nat) : Nat := bits a 12 27

/-- The hash of a block number (R144 step 2). -/
def hashX (b : Nat) : Nat := bits b 0 9 ^^^ bits b 9 9 ^^^ bits b 18 9

/-- Pseudo-channel number of a hash (R144 step 3). -/
def pcOfX (x : Nat) : Nat := bits x 0 3 * 64 + bits x 3 5 * 2 + bits x 8 1

/-- The hash of a pseudo-channel number. -/
def xOfPc (n : Nat) : Nat := n / 64 + bits n 1 5 * 8 + n % 2 * 256

/-- Pseudo-channel of a near-tier address (R144). -/
def pcOf (a : Nat) : Nat := pcOfX (hashX (blockOf a))

/-- Local block index of a near-tier address (R144 step 4). -/
def localOf (a : Nat) : Nat := bits (blockOf a) 9 18

/-- Home, and stack, of a near-tier address (R143). -/
def homeOf (a : Nat) : Nat := pcOf a / 64

/-- Block number of the local block `l` of the pseudo-channel with hash `x` (R144). -/
def blockAt (x l : Nat) : Nat := l * 512 + (x ^^^ bits l 0 9 ^^^ bits l 9 9)

/-- The bank of a block within its pseudo-channel: bank, bank group of segment `s` and SID (R145). -/
def bankOf (l s : Nat) : Nat := bits l 0 2 + s * 4 + bits l 2 2 * 16

/-- The row of a block (R145). -/
def rowOf (l : Nat) : Nat := bits l 4 14

/-- Bank and pseudo-channel of a row key (R145). -/
def keyBank (k : Nat) : Nat := k / 16384
def keyPc (k : Nat) : Nat := k / 16384 / 64

/-- Is the address in the near tier (R55)? -/
def inNear (a : Nat) : Bool := decide (a < 0x8000000000)

/-- Is the address in the tag region (R146)? -/
def inTagRegion (a : Nat) : Bool := decide (0x7FE0000000 ≤ a) && decide (a < 0x8000000000)

/-- Address of the tag slot of local block `l` of pseudo-channel `n` (R147). -/
def tagSlot (n l : Nat) : Nat := blockAt (xOfPc n) (261888 + l / 1024) * 4096 + 4 * (l % 1024)

/-- Physical place of the block that holds an address, while its pseudo-channel is in service: pseudo-channel × 262,144 + local index
(R144, R173). -/
def homePlace (a : Nat) : Nat := pcOf a * 262144 + localOf a

/-- Address of the dowel tag of the block that holds an address (R147). -/
def tagAddr (a : Nat) : Nat :=
  let l := localOf a
  let x := hashX (blockOf a)
  blockAt x (261888 + l / 1024) * 4096 + 4 * (l % 1024)

/-- First address of the sacrificed range of the `k`-th retirement (R171). -/
def sacrificedBase (k : Nat) : Nat := 0x7FE0000000 - k * 0x40000000

/-- Does the address lie in the sacrificed range of the `k`-th retirement? -/
def inSacrificed (k a : Nat) : Bool := decide (sacrificedBase k ≤ a) && decide (a < sacrificedBase k + 0x40000000)

end Sys2Proof.Machine
end

