-- ==== Sys2Proof/Machine/Veneer.lean ====
section
/-! DEFINITION. The veneer block format: encoding and decoding of one 4 KiB block (R200 to R204). -/

namespace Sys2Proof.Machine

open Sys2Proof

/-- Elements of a block as numbers: 16-bit for KIND 1, 32-bit for KIND 2 (R200). -/
def vnElems (kind : Nat) (bs : List Byte) : List Nat :=
  let w := if kind = 1 then 2 else 4
  (chunksOf w (bs.length + 1) bs).map leNat

/-- Exponent of an element (R201). -/
def vnExp (kind v : Nat) : Nat := if kind = 1 then bits v 7 8 else bits v 23 8

/-- Sign-mantissa entry of an element (R201). -/
def vnSm (kind v : Nat) : List Byte :=
  if kind = 1 then natLE 1 (bits v 0 7 + 128 * bits v 15 1)
  else natLE 3 (bits v 0 23 + 2 ^ 23 * bits v 31 1)

/-- An element rebuilt from exponent and sign-mantissa entry (R201). -/
def vnJoin (kind e sm : Nat) : Nat :=
  if kind = 1 then bits sm 0 7 + 128 * e + 2 ^ 15 * bits sm 7 1
  else bits sm 0 23 + 2 ^ 23 * e + 2 ^ 31 * bits sm 23 1

/-- Exceptions of a group under a coding (R202). -/
def vnExc (w base : Nat) (es : List Nat) : List Nat :=
  if w = 0 then es.filter (fun e => e != base)
  else if w = 8 then [] else es.filter (fun e => !(decide (base ≤ e) && decide (e + 2 ≤ base + 2 ^ w)))

/-- May the group be coded with this width and base (R202)? -/
def vnLegal (w base : Nat) (es : List Nat) : Bool :=
  if w = 0 then (vnExc 0 base es).isEmpty
  else if w = 8 then base == 0
  else decide (base + 2 ^ w ≤ 257) && decide ((vnExc w base es).length ≤ 15)

/-- The coding that takes the fewest bytes, ties to the smaller width and then the smaller base (R203). -/
def vnChoose (es : List Nat) : Nat × Nat :=
  let cands := (List.range 9).flatMap (fun w => ((List.range 256).filter (fun b => vnLegal w b es)).map (fun b => (w, b)))
  (minBy (fun c => 8 * c.1 + (vnExc c.1 c.2 es).length) cands).getD (8, 0)

/-- Code of an exponent (R202). -/
def vnCode (w base e : Nat) : Nat :=
  if w = 8 then e else if decide (base ≤ e) && decide (e + 2 ≤ base + 2 ^ w) then e - base else 2 ^ w - 1

/-- The exponent plane of a group: codes packed from bit 0 (R202). -/
def vnPack (w base : Nat) (es : List Nat) : List Byte :=
  if w = 0 then [] else natLE (8 * w) (leBits w (es.map (vnCode w base)))
where
  /-- codes concatenated, the first at bit 0 -/
  leBits (w : Nat) : List Nat → Nat
    | [] => 0
    | c :: cs => c + leBits w cs * 2 ^ w

/-- The stored bytes of a block: header and body (R200, R203). -/
def veneerEncode (kind : Nat) (bs : List Byte) : List Byte :=
  let tag := crc32c bs
  let hdr (k len : Nat) : List Byte := natLE 8 (k + len * 16 + tag * 2 ^ 32)
  let raw := hdr 0 4104 ++ bs
  if kind = 0 then raw else
  let els := vnElems kind bs
  let groups := (chunksOf 64 (els.length + 1) els).map (fun g => (g, vnChoose (g.map (vnExp kind))))
  let gh := groups.flatMap (fun p =>
    let es := p.1.map (vnExp kind)
    natLE 2 (p.2.2 + p.2.1 * 256 + (vnExc p.2.1 p.2.2 es).length * 4096))
  let ep := groups.flatMap (fun p => vnPack p.2.1 p.2.2 (p.1.map (vnExp kind)))
  let xp := groups.flatMap (fun p => (vnExc p.2.1 p.2.2 (p.1.map (vnExp kind))).flatMap (natLE 1))
  let sm := els.flatMap (vnSm kind)
  let body := gh ++ ep ++ xp ++ sm
  let len := 8 + body.length
  if 4104 ≤ len then raw else hdr kind len ++ body

/-- A POISON block (R200, R224). -/
def veneerPoison : List Byte := natLE 8 (15 + 8 * 16)

/-- KIND, LEN and DOWEL of a block header (R200). -/
def vnKind (bs : List Byte) : Nat := bits (leAt bs 0 8) 0 4
def vnLen (bs : List Byte) : Nat := bits (leAt bs 0 8) 4 13
def vnDowel (bs : List Byte) : Nat := bits (leAt bs 0 8) 32 32

/-- Exponents of one group from its codes and exceptions; `none` if a condition of R202 fails. -/
def vnGroupExps (w base nexc : Nat) (codes exc : List Nat) : Option (List Nat) :=
  if w = 0 then (if nexc = 0 then some (List.replicate 64 base) else none)
  else if w = 8 then (if base = 0 ∧ nexc = 0 then some codes else none)
  else if 8 < w ∨ 257 < base + 2 ^ w then none
  else if (codes.filter (fun c => c == 2 ^ w - 1)).length ≠ nexc then none
  else some (go w base codes exc)
where
  /-- exponents of the codes in order, each escape taking the next exception -/
  go (w base : Nat) : List Nat → List Nat → List Nat
    | [], _ => []
    | c :: cs, xs => if c = 2 ^ w - 1 then xs.headD 0 :: go w base cs xs.tail else (base + c) :: go w base cs xs

/-- What a stored block decodes to (R204). -/
inductive Decoded where
  | data (bs : List Byte) (dowel : Nat)
  | poison
  | bad
  deriving DecidableEq, Repr

/-- Decode the groups one after another: state is (exponents so far, offset in the exponent plane, in the exceptions). -/
def vnDecodeExps (ep xp : List Byte) : List Nat → Nat → Nat → Option (List Nat)
  | [], _, _ => some []
  | h :: hs, eo, xo =>
    let base := bits h 0 8
    let w := bits h 8 4
    let nexc := bits h 12 4
    let cw := leNat ((ep.drop eo).take (8 * w))
    let codes := (List.range 64).map (fun j => bits cw (w * j) w)
    let exc := ((xp.drop xo).take nexc).map BitVec.toNat
    match vnGroupExps w base nexc codes exc with
    | none => none
    | some es => (vnDecodeExps ep xp hs (eo + 8 * w) (xo + nexc)).map (es ++ ·)

/-- Decode a stored block, checking it as R204 says, reserved bits of its header among the rest (R14, R200); `avail` is how far the segment's
DATA_LEN reaches. -/
def veneerDecode (bs : List Byte) (avail : Nat) : Decoded :=
  let kind := vnKind bs
  let len := vnLen bs
  if avail < len ∨ bs.length < len ∨ bits (leAt bs 0 8) 17 15 ≠ 0 then .bad
  else if kind = 15 then (if len = 8 then .poison else .bad)
  else if kind = 0 then
    (if len ≠ 4104 then .bad else
     let d := (bs.drop 8).take 4096
     if crc32c d = vnDowel bs then .data d (vnDowel bs) else .bad)
  else if kind = 1 ∨ kind = 2 then
    let g := if kind = 1 then 32 else 16
    let ghs := (List.range g).map (fun i => leAt bs (8 + 2 * i) 2)
    let ew := (ghs.map (fun h => 8 * bits h 8 4)).sum
    let xw := (ghs.map (fun h => bits h 12 4)).sum
    let sw := if kind = 1 then 1 else 3
    let n := 64 * g
    if len ≠ 8 + 2 * g + ew + xw + sw * n then .bad else
    let ep := (bs.drop (8 + 2 * g)).take ew
    let xp := (bs.drop (8 + 2 * g + ew)).take xw
    let sm := bs.drop (8 + 2 * g + ew + xw)
    match vnDecodeExps ep xp ghs 0 0 with
    | none => .bad
    | some es =>
      let d := (es.mapIdx (fun i e => natLE (if kind = 1 then 2 else 4) (vnJoin kind e (leAt sm (sw * i) sw)))).flatten
      if crc32c d = vnDowel bs then .data d (vnDowel bs) else .bad
  else .bad

/-- Length of a block padded to 16 bytes (R205). -/
def vnPadded (bs : List Byte) : Nat := roundUp bs.length 16

end Sys2Proof.Machine
end

