-- ==== Sys2Proof/Machine/Ops.lean ====
section
/-! DEFINITION. The named operations over the state: how a command acts on the part, access to units, memory and its poison,
the address map and the protection tables, coherent reads and writes of engines. -/

namespace Sys2Proof.Machine

open Sys2Proof

/-! ## How a command acts -/

/-- A command that acts on the blocks: nothing happens while a reset holds them (R500, R501). -/
def onDev (f : Ctl → Dev → Dev) (s : State) : Host.Outcome State Fault Refusal :=
  .next (if s.ctl.live then { s with dev := f s.ctl { s.dev with out := [] } } else s)

/-- A command of a block that the safe state stops (R460): nothing happens from the start of the entry on. -/
def onWork (f : Ctl → Dev → Dev) (s : State) : Host.Outcome State Fault Refusal :=
  .next (if s.ctl.live && !s.dev.fc.entering then { s with dev := f s.ctl { s.dev with out := [] } } else s)

/-- A command of a domain that stops where the always-on oscillator takes over: nothing happens from then on (R507). -/
def onClocked (f : Ctl → Dev → Dev) (s : State) : Host.Outcome State Fault Refusal :=
  .next (if s.ctl.live && !s.ctl.clk.onOsc then { s with dev := f s.ctl { s.dev with out := [] } } else s)

/-- A command that acts on pins, clocks, boot or protection as well. -/
def onAll (f : Ctl → Dev → Ctl × Dev) (s : State) : Host.Outcome State Fault Refusal :=
  .next { s with ctl := (f s.ctl { s.dev with out := [] }).1, dev := (f s.ctl { s.dev with out := [] }).2 }

namespace Dev

/-! ## Access to units -/

def emit (d : Dev) (e : OutEvent) : Dev := { d with out := d.out ++ [e] }

def bench (d : Dev) (i : Nat) : Bench := tabGet {} d.benches i
def modBench (d : Dev) (i : Nat) (f : Bench → Bench) : Dev := { d with benches := tabMod {} d.benches i f }
def jig (d : Dev) (j : Nat) : Jig := tabGet {} d.jigs j
def modJig (d : Dev) (j : Nat) (f : Jig → Jig) : Dev := { d with jigs := tabMod {} d.jigs j f }
def queue (d : Dev) (j q : Nat) : Queue := tabGet {} (d.jig j).queues q
def modQueue (d : Dev) (j q : Nat) (f : Queue → Queue) : Dev := d.modJig j (fun g => { g with queues := tabMod {} g.queues q f })
def stager (d : Dev) (b : Nat) : Stager := tabGet {} d.stagers b
def modStager (d : Dev) (b : Nat) (f : Stager → Stager) : Dev := { d with stagers := tabMod {} d.stagers b f }
def plane (d : Dev) (h : Nat) : Plane := tabGet {} d.planes h
def modPlane (d : Dev) (h : Nat) (f : Plane → Plane) : Dev := { d with planes := tabMod {} d.planes h f }
def home (d : Dev) (h : Nat) : Home := tabGet {} d.homes h
def modHome (d : Dev) (h : Nat) (f : Home → Home) : Dev := { d with homes := tabMod {} d.homes h f }
def nearCtl (d : Dev) (h : Nat) : NearCtl := tabGet {} d.near.ctl h
def modNear (d : Dev) (f : Near → Near) : Dev := { d with near := f d.near }
def modNearCtl (d : Dev) (h : Nat) (f : NearCtl → NearCtl) : Dev := d.modNear (fun n => { n with ctl := tabMod {} n.ctl h f })
def pc (d : Dev) (n : Nat) : Pc := tabGet {} d.near.pcs n
def modPc (d : Dev) (n : Nat) (f : Pc → Pc) : Dev := d.modNear (fun m => { m with pcs := tabMod {} m.pcs n f })
def modFar (d : Dev) (f : FarTier → FarTier) : Dev := { d with far := f d.far }
def cxl (d : Dev) (n : Nat) : CxlPort := tabGet {} d.far.ports n
def modCxl (d : Dev) (n : Nat) (f : CxlPort → CxlPort) : Dev := d.modFar (fun m => { m with ports := tabMod {} m.ports n f })
def mbx (d : Dev) (k : Nat) : Mailbox := tabGet {} d.silkai.mbx k
def modSilkai (d : Dev) (f : Silkai → Silkai) : Dev := { d with silkai := f d.silkai }
def modMbx (d : Dev) (k : Nat) (f : Mailbox → Mailbox) : Dev := d.modSilkai (fun m => { m with mbx := tabMod {} m.mbx k f })
def modFab (d : Dev) (f : Fabric → Fabric) : Dev := { d with fab := f d.fab }
def modAux (d : Dev) (f : FabAux → FabAux) : Dev := { d with aux := f d.aux }
def modColl (d : Dev) (f : Coll → Coll) : Dev := { d with coll := f d.coll }
def modLife (d : Dev) (f : StepLife → StepLife) : Dev := { d with life := f d.life }
def modStream (d : Dev) (f : Stream → Stream) : Dev := { d with stream := f d.stream }
def modOpt (d : Dev) (f : OptJob → OptJob) : Dev := { d with opt := f d.opt }
def modHost (d : Dev) (f : HostPort → HostPort) : Dev := { d with host := f d.host }
def modFc (d : Dev) (f : Collector → Collector) : Dev := { d with fc := f d.fc }
def modPwr (d : Dev) (f : Power → Power) : Dev := { d with pwr := f d.pwr }
def flow (d : Dev) (i : Nat) : Flow := tabGet {} d.fab.flows i
def modFlow (d : Dev) (i : Nat) (f : Flow → Flow) : Dev := d.modFab (fun g => { g with flows := tabMod {} g.flows i f })
def eth (d : Dev) (p : Nat) : EthPort := tabGet {} d.fab.ports p
def modEth (d : Dev) (p : Nat) (f : EthPort → EthPort) : Dev := d.modFab (fun g => { g with ports := tabMod {} g.ports p f })
def node (d : Dev) (n : Nat) : Node := tabGet {} d.fab.nodes n
def modNode (d : Dev) (n : Nat) (f : Node → Node) : Dev := d.modFab (fun g => { g with nodes := tabMod {} g.nodes n f })
def bay (d : Dev) (b : Nat) : BayPower := tabGet {} d.pwr.bays b
def modBay (d : Dev) (b : Nat) (f : BayPower → BayPower) : Dev := d.modPwr (fun p => { p with bays := tabMod {} p.bays b f })

/-- The next free value's number, and the device that has drawn it. -/
def draw (d : Dev) : Nat × Dev := (d.free, { d with free := d.free + 1 })

/-- `n` undefined bytes (free values). -/
def undefBytes (free n : Nat) : List Byte := (List.range n).map (Config.undefByte free)

/-- Physical bench indices of a bay in use, ascending: logical bench i is the i-th (R5). -/
def activeOf (d : Dev) (b : Nat) : List Nat :=
  (setBitsOf ((d.active.getD b 0).toNat) 33).map (fun i => b * 33 + i)

/-- Is a physical bench index in use? -/
def benchActive (d : Dev) (i : Nat) : Bool := bitAt (d.active.getD (i / 33) 0).toNat (i % 33)

/-- Physical index of a logical bench of a bay. -/
def physBench (d : Dev) (b i : Nat) : Option Nat := (d.activeOf b)[i]?

/-! ## Memory -/

end Dev

/-- A run of bytes as cells. -/
def cellRun (a : Nat) : List Byte → List Host.Cell
  | [] => []
  | b :: bs => (a, b) :: cellRun (a + 1) bs

/-- Cells with the run at `a` replaced: the one form of a write to memory. -/
def cellsPut (c : List Host.Cell) (a : Nat) (bs : List Byte) : List Host.Cell :=
  c.filter (fun p => decide (p.1 < a)) ++ (cellRun a bs ++ c.filter (fun p => decide (a + bs.length ≤ p.1)))

/-- The count of lost contents that holds at an address: board GDDR loses them at every reset, the rest of memory unless a warm
reset starts from the safe state (R462, R523). -/
def eraAt (era : Nat × Nat) (a : Nat) : Nat := if 0x80000000000 ≤ a ∧ a < 0x80200000000 then era.2 else era.1

namespace Memory

/-- Canonical form: addresses strictly rising, lines strictly rising. Every listed byte is a written one. -/
def wf (m : Memory) : Bool := tabSorted m.cells && tabSorted m.lines

/-- One byte: an unwritten one is a free value (R523). -/
def byte (m : Memory) (era : Nat × Nat) (a : Nat) : Byte := (tabFind m.cells a).getD (Config.unwrittenByte (eraAt era a) a)

/-- `n` bytes from `a`. -/
def bytes (m : Memory) (era : Nat × Nat) (a n : Nat) : List Byte := (List.range n).map (fun i => m.byte era (a + i))

/-- Does a line read as poisoned (R153, R155)? -/
def poisoned (m : Memory) (era : Nat × Nat) (line : Nat) : Bool := (tabFind m.lines line).getD (Config.unwrittenPoison (eraAt era (line * 64)) line)

/-- Line numbers that a span touches. -/
def linesOf (a n : Nat) : List Nat := if n = 0 then [] else (List.range ((a + n - 1) / 64 - a / 64 + 1)).map (fun i => a / 64 + i)

/-- A line wholly inside a span. -/
def covers (a n line : Nat) : Bool := decide (a ≤ line * 64) && decide (line * 64 + 64 ≤ a + n)

/-- Write bytes: a full line becomes sound, a partial write leaves a line's poison as it was (R155). -/
def put (m : Memory) (a : Nat) (bs : List Byte) : Memory :=
  { cells := cellsPut m.cells a bs,
    lines := ((linesOf a bs.length).filter (covers a bs.length)).foldl (fun t l => tabPut t l false) m.lines }

/-- Store a line with the poison check pattern (R155). -/
def poisonLine (m : Memory) (line : Nat) : Memory := { m with lines := tabPut m.lines line true }

/-- A line becomes sound without a write of all its bytes. -/
def soundLine (m : Memory) (line : Nat) : Memory := { m with lines := tabPut m.lines line false }

/-- Only the contents of some addresses are kept, the others read as unwritten (R523). -/
def keep (f : Nat → Bool) (m : Memory) : Memory := { cells := m.cells.filter (fun p => f p.1), lines := m.lines.filter (fun p => f (p.1 * 64)) }

/-- Is any line of a span poisoned? -/
def spanPoisoned (m : Memory) (era : Nat × Nat) (a n : Nat) : Bool := (linesOf a n).any (m.poisoned era)

end Memory

/-! ## The address map (R55 to R68) -/

/-- The ranges of R55. -/
inductive Range where
  | near | farPlaced (port : Nat) | gddr | fabric | unified | host | csr | reserved
  deriving DecidableEq, Repr

/-- The range an address lies in. -/
def rangeOf (a : Nat) : Range :=
  if a < 0x8000000000 then .near
  else if 0x10000000000 ≤ a ∧ a < 0x50000000000 then .farPlaced (a / 0x10000000000 - 1)
  else if 0x80000000000 ≤ a ∧ a < 0x80200000000 then .gddr
  else if 0x100000000000 ≤ a ∧ a < 0x200000000000 then .fabric
  else if 0x200000000000 ≤ a ∧ a < 0x300000000000 then .unified
  else if 0x3E0000000000 ≤ a ∧ a < 0x3F0000000000 then .host
  else if 0x3F0000000000 ≤ a ∧ a < 0x400000000000 then .csr
  else .reserved

/-- Ranges with homes (R366). -/
def coherent (a : Nat) : Bool :=
  match rangeOf a with
  | .near => true
  | .farPlaced _ => true
  | .gddr => true
  | .unified => true
  | _ => false

/-- Page number of a unified address: 2 MiB pages (R217). -/
def pageOf (a : Nat) : Nat := (a - 0x200000000000) / 0x200000

/-- Who asks, for the rules of the decode and of the protection tables (R57, R58, R436). -/
inductive Asker where
  /-- classes of R436 -/
  | hostCls | puwell | fabric | bench
  /-- a stager running descriptors, a plane, the fabric or collective engine acting for the package -/
  | engine
  /-- Silkai, the tier manager and the staging logic -/
  | silkai
  deriving DecidableEq, Repr

/-- The class of a protection table (R436). -/
def Asker.cls : Asker → Option Nat
  | .hostCls => some 0
  | .puwell => some 1
  | .fabric => some 2
  | .bench => some 3
  | .engine => none
  | .silkai => none

namespace Dev

/-- Is `a` in a sacrificed range that has become unmapped (R171)? -/
def sacrificed (d : Dev) (a : Nat) : Bool := (List.range d.near.retired.length).any (fun k => inSacrificed (k + 1) a) ||
  (match d.near.retiring with
   | some (n, k) => (d.pc n).st == .retiring && inSacrificed k a
   | none => false)

/-- Does one address exist for the asker: mapped (R56), permitted by the tier mode (R58) and the closed areas (R146, R182)? -/
def mapped (d : Dev) (who : Asker) (a : Nat) : Bool :=
  match rangeOf a with
  | .near => !d.sacrificed a && !inTagRegion a && (!d.far.unified || who == .silkai)
  | .farPlaced n => (d.cxl n).role == 0 && (d.cxl n).up && decide (a % 0x10000000000 < (d.cxl n).cap) && (!d.far.unified || who == .silkai)
  | .gddr => who == .silkai || (!d.far.unified && decide (0x80040000000 ≤ a) && decide (a < 0x80100000000))
  | .fabric => who != .hostCls && who != .fabric
  | .unified => d.far.unified && (tabFind d.far.pages (pageOf a)).isSome
  | .host => (d.cxl 0).role == 1 && who != .hostCls && who != .fabric
  | .csr => true
  | .reserved => false

/-- Every byte of a span lies in one range and exists for the asker. Ranges change on 4 KiB boundaries only. -/
def spanMapped (d : Dev) (who : Asker) (a n : Nat) : Bool :=
  (n == 0) || (decide (rangeOf a = rangeOf (a + n - 1)) &&
    ((List.range ((a + n - 1) / 4096 - a / 4096 + 1)).all (fun i => d.mapped who ((a / 4096 + i) * 4096))))

end Dev

/-- May an engine of the package read or write a span of memory: mapped, and of a range with homes (R57, R182)? -/
def Dev.homed (d : Dev) (a n : Nat) : Bool := (n == 0 || coherent a) && d.spanMapped .engine a n

/-- Is port 0 able to carry accesses to host memory? -/
def hostUp (d : Dev) : Bool := d.host.st == .up || d.host.st == .retraining

/-- Do the Puwell cores run: released at the loader's entry, and not halted by the safe state (R432, R460)? -/
def puwellUp (d : Dev) : Bool := d.silkai.puwellRun && !d.silkai.puwellHalted

/-- Can an access of a requester arrive: the host's needs the link of port 0, a Puwell core's needs the core to run (R394, R412, R432)? -/
def arrives (d : Dev) (port : Nat) : Bool := if port = 8 then hostUp d else decide (8 < port) || puwellUp d

/-- Access types of the protection tables (R436): 1 read, 2 write, 3 atomic. -/
def ptPermits (c : Ctl) (who : Asker) (ty a n : Nat) : Bool :=
  match who.cls with
  | none => true
  | some k =>
    ((k == 0 || k == 1) && spanIn a n 0x3F0000000000 0x1000000) ||
    (List.range 32).any (fun i =>
      let e := tabGet {} c.pt (k * 32 + i)
      bitAt e.lo.toNat 0 && bitAt e.lo.toNat ty &&
        decide (bits e.lo.toNat 12 36 ≤ a / 4096) && decide ((a + n - 1) / 4096 ≤ bits e.hi.toNat 12 36))

/-- Does a span lie within one registered region that the predicate accepts (R13, R419)? -/
def Dev.inRegion (d : Dev) (ok : Region → Bool) (a n : Nat) : Bool :=
  n == 0 || d.silkai.regions.any (fun p => ok p.2 && spanIn a n p.2.base p.2.len)

/-- An engine span within a region registered with ENGINE (R419). -/
def Dev.engineSpan (d : Dev) (a n : Nat) : Bool := d.inRegion (fun r => r.engine) a n

/-- A near-tier address, or in unified mode an address of a pinned page (R59). -/
def Dev.isNear (d : Dev) (a n : Nat) : Bool :=
  if d.far.unified then
    rangeOf a == .unified && rangeOf (a + n - 1) == .unified &&
      ((List.range (pageOf (a + n - 1) - pageOf a + 1)).all (fun i => (tabGet {} d.far.pages (pageOf a + i)).pinned))
  else rangeOf a == .near && decide (a + n ≤ 0x7FE0000000)

/-! ## Segment headers (R194) -/

/-- Bytes 8 to 4,095 of a header, with the given HDR_CRC. -/
def headerBytes (g : Seg) (crc : Nat) : List Byte :=
  natLE 8 g.owner.toNat ++ natLE 8 (g.firstBlock + g.nblk * 2 ^ 32 + g.fmt * 2 ^ 44) ++ natLE 8 g.dataLen ++ natLE 8 g.sealTime ++ natLE 8 crc ++
    List.replicate 16 0 ++ g.index.flatMap (natLE 4) ++ List.replicate (4 * (1008 - g.index.length)) 0

/-- The segment that a header's 4,096 bytes describe. -/
def segOfHeader (bs : List Byte) : Seg :=
  let w0 := leAt bs 0 8
  let w2 := leAt bs 16 8
  { state := bits w0 0 4, gen := BitVec.ofNat 32 (bits w0 16 32), owner := BitVec.ofNat 64 (leAt bs 8 8), firstBlock := bits w2 0 32,
    nblk := bits w2 32 10, fmt := bits w2 44 4, dataLen := bits (leAt bs 24 8) 0 22, sealTime := leAt bs 32 8, hdrCrc := bits (leAt bs 40 8) 0 32,
    index := (List.range (bits w2 32 10)).map (fun i => leAt bs (64 + 4 * i) 4) }

/-- The 4,096 bytes of a header; of one found or written with other bytes than its fields say, those, with the fields of the state word in
them (R194, R195). -/
def Seg.bytes (g : Seg) : List Byte :=
  let w := g.state % 16 + g.gen.toNat * 2 ^ 16
  if g.raw.isEmpty then natLE 8 w ++ headerBytes g g.hdrCrc
  else natLE 8 (w + bits (leAt g.raw 0 8) 4 12 * 16 + bits (leAt g.raw 0 8) 48 16 * 2 ^ 48) ++ g.raw.drop 8

/-- CRC-32C over bytes 8 to 4,095 of a header, with HDR_CRC as zero (R194). -/
def Seg.crc (g : Seg) : Nat := crc32c ((g.bytes.drop 8).take 32 ++ List.replicate 4 0 ++ g.bytes.drop 44)

/-- The segment that a header's bytes give, the bytes with it where its fields do not give them back. -/
def segOf (bs : List Byte) : Seg := if (segOfHeader bs).bytes = bs then segOfHeader bs else { segOfHeader bs with raw := bs }

/-! ## Reading and writing through the homes -/

/-- Does a physical line lie in a stack? -/
def inStack (line : Nat) : Bool := rangeOf (line * 64) == .near

/-- Is local block `l` of a pseudo-channel served from the copy in board GDDR: after its copy there, before its copy back (R169, R170)? -/
def Pc.inCopy (p : Pc) (l : Nat) : Bool :=
  match p.st with
  | .stagingRt => decide (l < p.pos)
  | .stagingRet => decide (l < p.pos) || p.fromGddr
  | .restoring => decide (p.pos ≤ l)
  | _ => p.fromGddr

/-- The home of a line of any coherent range (R367). -/
def homeOfLine (line : Nat) : Nat :=
  let a := line * 64
  if a < 0x8000000000 then homeOf a else bits a 12 3 ^^^ bits a 15 3 ^^^ bits a 18 3

/-- Bytes placed in a line at an offset; a full line clears poison, a partial one keeps it (R155). -/
def mergeLine (l : LineData) (off : Nat) (bs : List Byte) : LineData :=
  let b := bs.take (64 - off)
  { bytes := (l.bytes.take off ++ b ++ l.bytes.drop (off + b.length)).take 64, poison := l.poison && decide (b.length < 64) }

/-- Does a request write (R377)? -/
def reqWrites : ReqKind → Bool
  | .wrFull => true
  | .wrPart => true
  | .atomic => true
  | _ => false

/-- Does a request write its line, or own it in order to write (R218, R386)? -/
def reqOwns (k : ReqKind) : Bool := reqWrites k || k == .rdOwn || k == .upgrade

namespace Dev

/-- Key of a line in a cluster's cache. -/
def cacheKey (cluster line : Nat) : Nat := cluster * 2 ^ 42 + line

def cacheLine (d : Dev) (cluster line : Nat) : CacheLine := tabGet {} d.caches (cacheKey cluster line)
def setLine (d : Dev) (cluster line : Nat) (l : CacheLine) : Dev := { d with caches := tabSet {} d.caches (cacheKey cluster line) l }

/-- A line state that holds data newer than memory. -/
def dirtyState (x : LineState) : Bool := x == .mod || x == .own || x == .omP

/-- A cluster that holds the line dirty. -/
def dirtyHolder (d : Dev) (line : Nat) : Option Nat := (List.range 8).find? (fun c => dirtyState (d.cacheLine c line).st)

def dirFind (hm : Home) (line : Nat) : Option (Nat × DirEntry) := hm.dir.find? (fun p => p.2.line == line)

/-- Is a line in a transient state, with a transaction open or its entry being evicted? -/
def lineOpen (hm : Home) (line : Nat) : Bool := hm.txns.any (fun t => t.req.line == line) || hm.evicts.any (fun e => e.entry.line == line)

def sharersOf (e : DirEntry) : List Nat := setBitsOf e.sharers.toNat 9

/-- Agents that an entry lists. -/
def holdersOf (e : DirEntry) : List Nat := (if e.st = .ds then [] else [e.owner]) ++ sharersOf e

/-- The owner that the directory lists for a line, if it has one (R379). -/
def ownerOf (d : Dev) (line : Nat) : Option Nat :=
  (dirFind (d.home (homeOfLine line)) line).bind (fun p => if p.2.st = .ds then none else some p.2.owner)

/-- Does the directory say the host owns the line (R379)? -/
def hostOwns (d : Dev) (line : Nat) : Bool := d.ownerOf line == some 8

/-- Data newer than memory that is on its way at the home: a holder's answer to a transaction or to a back-invalidation, or a buffered
writeback (R375, R380, R381). -/
def homeData (d : Dev) (line : Nat) : Option LineData :=
  let m := d.home (homeOfLine line)
  ((m.txns.find? (fun t => t.req.line == line)).bind Txn.dirty).orElse (fun _ =>
    ((m.evicts.find? (fun e => e.entry.line == line)).bind Evict.dirty).orElse (fun _ => (m.wb.find? (fun w => w.line == line)).map Wb.data))

/-- The owner's copy while its writeback is under way: it is the newest until the directory drops it (R378, R381). -/
def leavingData (d : Dev) (line : Nat) : Option LineData :=
  (d.ownerOf line).bind (fun a => if (d.cacheLine a line).st = .wbP then some (d.cacheLine a line).data else none)

/-- Where a byte of the unified range lives: near frame, or none for a FAR page (R59, R217). -/
def place (d : Dev) (a : Nat) : Option Nat :=
  match rangeOf a with
  | .unified =>
    match tabFind d.far.pages (pageOf a) with
    | some p => if p.res == .far || p.res == .promoting then none else some (p.frame * 0x200000 + a % 0x200000)
    | none => none
  | _ => some a

/-- Port and index of a segment identifier (R193): bits [20:19] and [18:0]. -/
def segPort (id : Nat) : Nat := id / 2 ^ 19 % 4
def segIdx (id : Nat) : Nat := id % 2 ^ 19
def seg (d : Dev) (id : Nat) : Seg := tabGet {} (d.cxl (segPort id)).segs (segIdx id)
def modSeg (d : Dev) (id : Nat) (f : Seg → Seg) : Dev :=
  d.modCxl (segPort id) (fun p => { p with segs := tabMod {} p.segs (segIdx id) f })
/-- Placed-view address of a segment. -/
def segBase (id : Nat) : Nat := 0x10000000000 * (segPort id + 1) + segIdx id * 0x200000

/-- Does a placed-view address lie in the segment table of its port (R192)? -/
def inTable (d : Dev) (a : Nat) : Bool :=
  match rangeOf a with
  | .farPlaced n => decide (a % 0x10000000000 < (d.cxl n).cap / 2 ^ 30 * 0x200000)
  | _ => false

/-- Segment whose header holds a table address (R192). -/
def tableSeg (a : Nat) : Nat := (a / 0x10000000000 - 1) * 2 ^ 19 + a % 0x10000000000 / 4096

/-- The header of a segment; the table segments are RESERVED (R192, R194). -/
def segHeader (d : Dev) (id : Nat) : List Byte :=
  if segIdx id < (d.cxl (segPort id)).cap / 2 ^ 30 then natLE 8 15 ++ List.replicate 4088 0 else (d.seg id).bytes

/-- Memory's own line, at a placed address. A line of a segment table is sound unless poison was written to it: the scan has written or read
every header (R198). -/
def memLine (d : Dev) (a : Nat) : LineData :=
  if d.inTable a then { bytes := ((d.segHeader (tableSeg a)).drop (a % 4096)).take 64, poison := (tabFind d.mem.lines (a / 64)).getD false }
  else { bytes := d.mem.bytes d.era a 64, poison := d.mem.poisoned d.era (a / 64) }

/-- What a block of a segment reads as. -/
inductive BlockRead where
  /-- decoded bytes, their tag, the stored length -/
  | good (bs : List Byte) (dowel len : Nat)
  /-- a well-formed POISON block, which decodes to a poisoned block (R200) -/
  | poison
  /-- bad (R204): the DOWEL of its header if that could be read -/
  | bad (dowel : Option Nat)
  deriving DecidableEq, Repr

/-- Offset and stored length of block `j` of a segment (R205, R206). -/
def blockSpan (g : Seg) (j : Nat) : Nat × Nat :=
  if g.fmt = 1 then (j * 4096, 4096) else (16 * bits (wordAt g.index j) 0 17, 16 * bits (wordAt g.index j) 17 9)

/-- Does a read of stored far-tier bytes find poison: in a line, or in a read of one that timed out (R204, R226)? -/
def farPoisoned (d : Dev) (a n : Nat) : Bool := d.mem.spanPoisoned d.era a n || (Memory.linesOf a n).any d.near.badReads.contains

/-- Read and decode block `j` of a segment (R204, R206). A port that is down returns poison, and its blocks are not repaired (R190). -/
def readBlock (d : Dev) (id j : Nat) : BlockRead :=
  let g := d.seg id
  let sp := blockSpan g j
  let a := segBase id + sp.1
  if !(d.cxl (segPort id)).up then .poison
  else if g.fmt = 1 then
    let bs := d.mem.bytes d.era a 4096
    if d.farPoisoned a 4096 then .bad (some (wordAt g.index j))
    else if crc32c bs = wordAt g.index j then .good bs (crc32c bs) 4096 else .bad (some (wordAt g.index j))
  else if d.farPoisoned a 8 then .bad none
  else
    let hd := vnDowel (d.mem.bytes d.era a 8)
    if d.farPoisoned a sp.2 || decide (g.dataLen < sp.1 + sp.2) then .bad (some hd)
    else match veneerDecode (d.mem.bytes d.era a sp.2) (g.dataLen - sp.1) with
      | .data bs dw => if crc32c bs = dw then .good bs dw sp.2 else .bad (some hd)
      | .poison => .poison
      | .bad => .bad (some hd)

/-- The repair entry of a block of a unified page, if one is open (R221). -/
def pageRepair (d : Dev) (page j : Nat) : Option Repair :=
  d.far.repairs.find? (fun r => r.isPage && r.target == page && r.block == j)

/-- The block of a FAR page, decoded or repaired; `none` where it is bad (R217, R221). -/
def farBlock (d : Dev) (page id j : Nat) : Option (List Byte) :=
  match (d.pageRepair page j).bind (fun r => r.fixed) with
  | some bs => some bs
  | none => match d.readBlock id j with
    | .good bs _ _ => some bs
    | _ => none

/-- A line of a FAR page as its segment holds it. -/
def farLine (d : Dev) (line : Nat) (p : Page) : LineData :=
  match d.farBlock (pageOf (line * 64)) p.seg (line * 64 % 0x200000 / 4096) with
  | some bs => { bytes := (bs.drop (line * 64 % 4096)).take 64, poison := false }
  | none => { bytes := List.replicate 64 0, poison := true }

/-- Does a write that waits for a page's promotion touch a line? -/
def waitTouches (line : Nat) (w : Nat × List Byte × Bool) : Bool :=
  decide (max w.1 (line * 64) < min (w.1 + w.2.1.length) (line * 64 + 64)) || (w.2.2 && w.1 / 64 == line)

/-- A line with a write that waits for its page's promotion on top (R217, R384). -/
def overWaiting (line : Nat) (l : LineData) (w : Nat × List Byte × Bool) : LineData :=
  let lo := max w.1 (line * 64)
  let hi := min (w.1 + w.2.1.length) (line * 64 + 64)
  let m := if lo < hi then mergeLine l (lo - line * 64) ((w.2.1.drop (lo - w.1)).take (hi - lo)) else l
  if w.2.2 && w.1 / 64 == line then { m with poison := true } else m

/-- A line as memory holds it now, by its device address, for any coherent range; of a FAR page, with the writes that wait for its
promotion. -/
def backing (d : Dev) (line : Nat) : LineData :=
  match d.place (line * 64) with
  | some a => d.memLine a
  | none =>
    match tabFind d.far.pages (pageOf (line * 64)) with
    | some p => p.waiting.foldl (overWaiting line) (d.farLine line p)
    | none => { bytes := List.replicate 64 0, poison := true }

/-- The writes of the part's own engines that wait at a home for their turn at a line, in order: port 16 of the model (R382, log 165). -/
def waitingWrites (m : Home) (line : Nat) : List Req :=
  (m.txns.map Txn.req ++ m.chain ++ m.ingress).filter (fun r => r.line == line && r.port == 16)

/-- A line with an engine's write on top. -/
def overWrite (l : LineData) (r : Req) : LineData :=
  let m := mergeLine l r.off r.data
  { m with poison := m.poison || r.poison }

/-- The current value of a line, as a read that leaves no copy gets it (R384): a dirty copy, data on its way at the home, what the host
holds, which is a free value, or memory; on top of it the writes of engines that wait. -/
def current (d : Dev) (line : Nat) : LineData :=
  let base := match d.dirtyHolder line with
    | some c => (d.cacheLine c line).data
    | none =>
      match (d.homeData line).orElse (fun _ => d.leavingData line) with
      | some l => l
      | none =>
        if d.hostOwns line then { bytes := (List.range 64).map (fun i => Config.hostByte (line * 64 + i) d.free), poison := false }
        else d.backing line
  (waitingWrites (d.home (homeOfLine line)) line).foldl overWrite base

/-- One byte by address. -/
def peek (d : Dev) (a : Nat) : Byte := ((d.current (a / 64)).bytes).getD (a % 64) 0

/-- A line as a read finds it, with a span of it taken. -/
def lineBytes (d : Dev) (a n line : Nat) : List Byte :=
  let lo := a - line * 64
  let hi := min 64 (a + n - line * 64)
  (((d.current line).bytes).take hi).drop lo

/-- `n` bytes from `a` through the homes. -/
def peekBytes (d : Dev) (a n : Nat) : List Byte := (Memory.linesOf a n).flatMap (d.lineBytes a n)

/-- Has the uncorrectable read of a line been recorded, so that the next engine's read takes the poison (R153, R184)? -/
def badRead (d : Dev) (line : Nat) : Bool :=
  match d.place (line * 64) with
  | some a => d.near.badReads.contains (a / 64)
  | none => false

/-- Does an engine's read of a line find poison? -/
def linePoison (d : Dev) (line : Nat) : Bool := (d.current line).poison || d.badRead line

/-- Is any line of the span poisoned? -/
def peekPoison (d : Dev) (a n : Nat) : Bool := (Memory.linesOf a n).any d.linePoison

/-- 64-bit and 32-bit little-endian words of memory. -/
def peek64 (d : Dev) (a : Nat) : Nat := leNat (d.peekBytes a 8)
def peek32 (d : Dev) (a : Nat) : Nat := leNat (d.peekBytes a 4)

/-- Write a placed span of memory's own bytes. -/
def memPut (d : Dev) (a : Nat) (bs : List Byte) : Dev := { d with mem := d.mem.put a bs }

/-- Where the block that holds a near address lies: pseudo-channel × 262,144 + local index. An access whose hash selects a retired
pseudo-channel goes to the replacement that the redirect entry of its page names (R173). -/
def physBlock (d : Dev) (a : Nat) : Nat :=
  let e := (tabGet 0 d.near.redirect (d.near.retired.idxOf (pcOf a) * 2 ^ 18 + localOf a)).toNat
  if d.near.retired.contains (pcOf a) && bitAt e 31 then bits e 0 27 else homePlace a

/-- Pseudo-channel and stack of a near line. -/
def pcOfLine (d : Dev) (line : Nat) : Nat := d.physBlock (line * 64) / 262144
def stackOf (d : Dev) (line : Nat) : Nat := d.pcOfLine line / 64

/-- Is a near line served from the copy in board GDDR (R169)? -/
def servedByGddr (d : Dev) (line : Nat) : Bool := (d.pc (d.pcOfLine line)).inCopy (d.physBlock (line * 64) % 262144)

/-- Row key of a near line: pseudo-channel, bank and row (R145). -/
def rowKey (d : Dev) (line : Nat) : Nat :=
  let b := d.physBlock (line * 64)
  (b / 262144 * 64 + bankOf (b % 262144) (bits (line * 64) 10 2)) * 16384 + rowOf (b % 262144)

/-- A write to a row ends a run of uncorrectable reads without a write (R164). -/
def noteRowWrite (d : Dev) (line : Nat) : Dev :=
  match tabFind d.near.rows (d.rowKey line) with
  | some r => d.modNear (fun n => { n with rows := tabSet {} n.rows (d.rowKey line) { r with ue := 0 } })
  | none => d

/-- Does the bay-cache half hold the line, so that a read is served from it (R177, R178)? -/
def bcHolds (d : Dev) (line : Nat) : Bool :=
  match d.place (line * 64) with
  | some a => inStack (a / 64) && (d.nearCtl (homeOf a)).bcEn && !(d.nearCtl (homeOf a)).bcInvalidating && (tabFind (d.nearCtl (homeOf a)).bcLines (a / 64)).isSome
  | none => false

end Dev

/-! ## Blocks held for a row repair (R165) -/

/-- Is the block of a near line held: by the repair of one of its rows (R165)? -/
def blockHeld (d : Dev) (line : Nat) : Bool :=
  let b := d.physBlock (line * 64)
  match (d.nearCtl (d.stackOf line)).ppr with
  | some k => keyPc k == b / 262144 && bits (keyBank k) 0 2 == bits b 0 2 && bits (keyBank k) 4 2 == bits b 2 2 && k % 16384 == rowOf (b % 262144)
  | none => false

/-- Does a block's repair hold up the accesses of a line (R165)? -/
def readHeld (d : Dev) (line : Nat) : Bool :=
  match d.place (line * 64) with
  | some a => inStack (a / 64) && blockHeld d (a / 64)
  | none => false

/-- Must accesses to a span wait for a block that is held (R165)? -/
def spanHeld (d : Dev) (a n : Nat) : Bool := d.near.ctl.any (fun p => p.2.ppr.isSome) && (Memory.linesOf a n).any (readHeld d)

/-! ## The queues of a pseudo-channel (R152) -/

/-- Reads queued at a pseudo-channel: transactions of a home that wait for memory data from it. -/
def readsQueued (d : Dev) (n : Nat) : Bool :=
  d.homes.any (fun h => h.2.txns.any (fun t => t.st == .tMem && !d.bcHolds t.req.line &&
    (match d.place (t.req.line * 64) with | some a => inStack (a / 64) && d.pcOfLine (a / 64) == n && !d.servedByGddr (a / 64) | none => false)))

/-- Bus switches of a pseudo-channel count in its stack's controller. -/
def turn (n k : Nat) (d : Dev) : Dev := d.modNearCtl (n / 64) (fun x => { x with turnCnt := cntAdd x.turnCnt k })

/-- A write period: at most WR_BATCH × 4 KiB leave the queue, then back to reads if reads are queued (R152). -/
def writePeriod (n : Nat) (d : Dev) : Dev :=
  let p := d.pc n
  let batch := (d.nearCtl (n / 64)).wrBatch.toNat * 64
  let back := readsQueued d n
  let d1 := if p.writing then d else turn n 1 d
  (if back then turn n 1 d1 else d1).modPc n (fun p => { p with writeQ := p.writeQ.drop batch, writing := !back })

/-- A write of a line reaches its controller: it is queued behind reads until the batch is full (R152). The write-back of a corrected
word that waits is discarded (R154). -/
def queueWrite (line : Nat) (d : Dev) : Dev :=
  let h := d.stackOf line
  let d0 := if (d.nearCtl h).ceWb.contains line then d.modNearCtl h (fun n => { n with ceWb := n.ceWb.filter (fun l => l != line) }) else d
  if d.servedByGddr line then d0 else
  let n := d.pcOfLine line
  let d1 := d0.modPc n (fun p => { p with writeQ := p.writeQ ++ [line] })
  if !readsQueued d1 n || decide ((d1.nearCtl (n / 64)).wrBatch.toNat * 64 ≤ (d1.pc n).writeQ.length) then writePeriod n d1 else d1

/-- A read of a line reaches its controller: its pseudo-channel turns to reads (R152). -/
def queueRead (line : Nat) (d : Dev) : Dev :=
  if !inStack line || d.servedByGddr line then d else
  let n := d.pcOfLine line
  if (d.pc n).writing then (turn n 1 d).modPc n (fun p => { p with writing := false }) else d

/-- A read of a line has been served: with no read queued, queued writes go (R152). -/
def readServed (line : Nat) (d : Dev) : Dev :=
  if !inStack line || d.servedByGddr line then d else
  let n := d.pcOfLine line
  if (d.pc n).writeQ.isEmpty || readsQueued d n then d else writePeriod n d

/-- What a write of a near line does beside its bytes (R152, R154, R164). -/
def stackWrite (line : Nat) (d : Dev) : Dev := if inStack line then queueWrite line (d.noteRowWrite line) else d

/-- A write of a line while a fill of it is outstanding: the fill is not installed (R179). -/
def stopFill (line : Nat) (d : Dev) : Dev :=
  if (d.home (homeOfLine line)).txns.any (fun t => t.req.line == line && t.st == .tMem) then
    d.modHome (homeOfLine line) (fun h => { h with txns := h.txns.map (fun t => if t.req.line = line then { t with noFill := true } else t) })
  else d

namespace Dev

/-- A segment becomes FREE and keeps its contents; its generation advances at the next allocation (R194, R196, R199). A QUARANTINED
segment stays so until a cold reset (R196). -/
def freeSeg (d : Dev) (id : Nat) : Dev := d.modSeg id (fun g => if g.state = 3 then g else { g with state := 0 })

/-- Free a segment, or defer it while a snapshot pins it (R482). -/
def releaseSeg (d : Dev) (id : Nat) : Dev :=
  if d.silkai.pins.any (fun l => l.contains id) then d.modSilkai (fun m => { m with deferred := m.deferred ++ [id] }) else d.freeSeg id

def modPage (d : Dev) (n : Nat) (p : Page) : Dev := d.modFar (fun f => { f with pages := tabPut f.pages n p })

/-- A write reaches a page that has a near frame: a clean copy or a demotion under way is given up, and its segment freed (R217, R219). -/
def dirtyPage (d : Dev) (a : Nat) : Dev :=
  match rangeOf a with
  | .unified =>
    match tabFind d.far.pages (pageOf a) with
    | some p =>
      if p.res = .nearClean then (d.releaseSeg p.seg).modPage (pageOf a) { p with res := .near, referenced := true }
      else if p.res = .demoting then (d.freeSeg p.seg).modPage (pageOf a) { p with res := .near, referenced := true }
      else d.modPage (pageOf a) { p with referenced := true }
    | none => d
  | _ => d

/-- A write to a page without a near frame waits for its promotion (R217), poison with it (R155). -/
def deferWrite (d : Dev) (a : Nat) (bs : List Byte) (poison : Bool) : Dev :=
  match tabFind d.far.pages (pageOf a) with
  | some p => d.modPage (pageOf a) { p with waiting := p.waiting ++ [(a, bs, poison)] }
  | none => d

/-- Store one line's data back in memory, poison with it (R155); a page without a near frame is promoted first (R217). -/
def storeLine (d : Dev) (line : Nat) (l : LineData) : Dev :=
  match d.place (line * 64) with
  | none => d.deferWrite (line * 64) (l.bytes.take 64) l.poison
  | some a =>
    let d1 := stackWrite (a / 64) ((d.dirtyPage (line * 64)).memPut a (l.bytes.take 64))
    if l.poison then { d1 with mem := d1.mem.poisonLine (a / 64) } else d1

/-- What SnpInv leaves of a cluster's line (R378). -/
def invalidated (l : CacheLine) : CacheLine :=
  match l.st with
  | .smP => { l with st := .imP }
  | .omP => { l with st := .imP }
  | .shr => { st := .inv }
  | .exc => { st := .inv }
  | .own => { st := .inv }
  | .mod => { st := .inv }
  | _ => l

/-- Bytes written at a placed address, with what their lines' controllers do (R152). -/
def nearWrite (p : Nat) (bs : List Byte) (d : Dev) : Dev := (Memory.linesOf p bs.length).foldl (fun x l => stackWrite l x) (d.memPut p bs)

/-- Must an engine's write of a line wait: a transaction or eviction of the line is open, or a holder has to be snooped by a transaction of its
own, the host or an owner whose writeback is under way (R379, R382)? -/
def busyLine (d : Dev) (line : Nat) : Bool :=
  let m := d.home (homeOfLine line)
  lineOpen m line || m.chain.any (fun r => r.line == line) ||
    (match dirFind m line with
     | some p => (holdersOf p.2).any (fun a => a == 8 || (d.cacheLine a line).st == .wbP)
     | none => false)

/-- An engine's write of a line that must wait: it joins the line's chain, or opens the transaction that snoops every holder; with 128 open it
waits at the ingress (R379, R380, R382). -/
def joinWrite (line off : Nat) (bs : List Byte) (poison : Bool) (d : Dev) : Dev :=
  let h := homeOfLine line
  let m := d.home h
  let r : Req := { port := 16, kind := if bs.length = 64 then .wrFull else .wrPart, line := line, off := off, data := bs, poison := poison }
  if lineOpen m line || m.chain.any (fun x => x.line == line) then d.modHome h (fun x => { x with chain := x.chain ++ [r] })
  else if 128 ≤ m.txns.length then d.modHome h (fun x => { x with ingress := x.ingress ++ [r] })
  else
    let who := match dirFind m line with | some p => holdersOf p.2 | none => []
    (who.foldl (fun x a => x.emit (.snoop h a 0 line)) d).modHome h (fun x =>
      { x with txns := x.txns ++ [{ req := r, st := .tSnp, waiting := who }], snoopCnt := cntAdd x.snoopCnt who.length })

/-- Every cached copy of a line invalidated, dirty data written to memory, the entry freed (R379, rows WrFull and WrPart). -/
def flushLine (d : Dev) (line : Nat) : Dev :=
  let d1 := match d.dirtyHolder line with
    | some c => d.storeLine line (d.cacheLine c line).data
    | none => d
  let d2 := (List.range 8).foldl (fun x c => x.setLine c line (invalidated (x.cacheLine c line))) d1
  d2.modHome (homeOfLine line) (fun h => { h with dir := h.dir.filter (fun p => p.2.line != line) })

/-- Is the line tracked at all, so that a write has copies to invalidate? -/
def tracked (d : Dev) (line : Nat) : Bool :=
  (List.range 8).any (fun c => (tabFind d.caches (cacheKey c line)).isSome) ||
    (d.home (homeOfLine line)).dir.any (fun p => p.2.line == line)

/-- A write whose lines' homes are free: copies invalidated, then memory written (R385). -/
def pokeNow (d : Dev) (a : Nat) (bs : List Byte) : Dev :=
  let ls := Memory.linesOf a bs.length
  let d1 := ls.foldl (fun x l => stopFill l x) ((ls.filter d.tracked).foldl flushLine d)
  match d1.place a with
  | some p => nearWrite p bs (d1.dirtyPage a)
  | none => d1.deferWrite a bs false

/-- The part of a write that falls in one line, now or in its turn (R382). -/
def pokeLine (a : Nat) (bs : List Byte) (d : Dev) (line : Nat) : Dev :=
  let lo := max a (line * 64)
  let part := (bs.drop (lo - a)).take (line * 64 + 64 - lo)
  if d.busyLine line then stopFill line (d.joinWrite line (lo - line * 64) part false) else d.pokeNow lo part

/-- Write bytes at a device address through the homes (R379, R382, R385). -/
def poke (d : Dev) (a : Nat) (bs : List Byte) : Dev :=
  let ls := Memory.linesOf a bs.length
  if ls.any d.busyLine then ls.foldl (pokeLine a bs) d else d.pokeNow a bs

/-- Is some write of a span still to land: behind a line's chain, or for the promotion of its page (R123, R219, R387)? -/
def landing (d : Dev) (a n : Nat) : Bool := (Memory.linesOf a n).any (fun l =>
  !(waitingWrites (d.home (homeOfLine l)) l).isEmpty ||
    ((d.place (l * 64)).isNone && (match tabFind d.far.pages (pageOf (l * 64)) with | some p => p.waiting.any (waitTouches l) | none => false)))

/-- Write a span line by line in the unified range, where pages need not be contiguous. -/
def pokeSpan (d : Dev) (a : Nat) (bs : List Byte) : Dev :=
  if rangeOf a == .unified && decide (0x200000 < a % 0x200000 + bs.length) then
    let k := 0x200000 - a % 0x200000
    (chunksOf 0x200000 (bs.length + 1) (bs.drop k)).zipIdx.foldl (fun x p => x.poke (a + k + 0x200000 * p.2) p.1) (d.poke a (bs.take k))
  else d.poke a bs

/-- The poison pattern written to a physical near line, at its controller as any write (R152, R155). -/
def poisonNear (d : Dev) (line : Nat) : Dev :=
  let d1 := stackWrite line d
  { d1 with mem := d1.mem.poisonLine line }

/-- Write the poison pattern to a line (R155). -/
def pokePoison (d : Dev) (line : Nat) : Dev :=
  if d.busyLine line then stopFill line (d.joinWrite line 0 [] true) else
  let d1 := stopFill line (if d.tracked line then d.flushLine line else d)
  match d1.place (line * 64) with
  | some a => (d1.dirtyPage (line * 64)).poisonNear (a / 64)
  | none => d1.deferWrite (line * 64) [] true

def poke64 (d : Dev) (a v : Nat) : Dev := d.poke a (natLE 8 v)
def poke32 (d : Dev) (a v : Nat) : Dev := d.poke a (natLE 4 v)

/-- Place of the tag of the block that holds `a`, which follows the frame of a pinned page, and the replacement of a lost block (R59, R147,
R173). -/
def tagPlace (d : Dev) (a : Nat) : Nat :=
  let p := (d.place a).getD 0
  if d.near.retired.contains (pcOf p) then tagSlot (d.physBlock p / 262144) (d.physBlock p % 262144) else tagAddr p
def tagOf (d : Dev) (a : Nat) : Nat :=
  match d.place a with
  | some _ => leNat (d.mem.bytes d.era (d.tagPlace a) 4)
  | none => crc32c ((List.range 64).flatMap (fun i => (d.backing (a / 4096 * 64 + i)).bytes))
/-- A block whose page has no frame gets its tag when it is promoted. -/
def setTag (d : Dev) (a v : Nat) : Dev := if (d.place a).isSome then nearWrite (d.tagPlace a) (natLE 4 v) d else d

/-- Block reads of a FAR page count towards its promotion and in the stager that carries them (R218). -/
def noteFarRead (i : Nat) (d : Dev) : Dev :=
  let n := i / 512
  match tabFind d.far.pages n with
  | some p =>
    if p.res = .far ∨ p.res = .promoting then
      (d.modPage n { p with reads := p.reads + 1 }).modStager (n % 4) (fun g => { g with farPageRdCnt := cntInc g.farPageRdCnt })
    else if p.referenced then d else d.modPage n { p with referenced := true }
  | none => d

/-- The blocks of the unified range that a read touches are noted. -/
def noteReads (d : Dev) (a n : Nat) : Dev :=
  if n = 0 ∨ rangeOf a ≠ .unified then d else
  let b := (a - 0x200000000000) / 4096
  (List.range ((a + n - 1 - 0x200000000000) / 4096 - b + 1)).foldl (fun x i => x.noteFarRead (b + i)) d

/-- Write 4 KiB blocks from `a` and the tag of each (R157, R158). -/
def pokeTagged (d : Dev) (a : Nat) (bs : List Byte) : Dev :=
  (chunksOf 4096 (bs.length + 1) bs).zipIdx.foldl (fun x p => x.setTag (a + 4096 * p.2) (crc32c p.1)) (d.pokeSpan a bs)

/-- Do the tags of the blocks of a span match its data (R159)? -/
def tagsMatch (d : Dev) (a : Nat) (bs : List Byte) : Bool :=
  (chunksOf 4096 (bs.length + 1) bs).zipIdx.all (fun p => crc32c p.1 == d.tagOf (a + 4096 * p.2))

/-- The first block of a span whose tag does not match. -/
def badTag (d : Dev) (a : Nat) (bs : List Byte) : Option Nat :=
  ((chunksOf 4096 (bs.length + 1) bs).zipIdx.find? (fun p => crc32c p.1 != d.tagOf (a + 4096 * p.2))).map (fun p => a + 4096 * p.2)

end Dev

/-- One open access of the running bench DMA task is done; a read's bytes go to its buffer (R123). -/
def Dev.arriveTask (d : Dev) (b dest : Nat) (bs : List Byte) : Dev :=
  let take := fun (t : Task) => { t with hostWrites := t.hostWrites - 1, buf := cellsPut t.buf dest bs }
  d.modBench b (fun y => { y with dma := { y.dma with slots := modAt take y.dma.slots 0 } })

/-! ## Completion of a task of a jig record (R235, R236). Statuses are those of R414, 0xE for aborted. -/

/-- Status of an engine task or descriptor as the jig sees it (R236). -/
def stOfEng (r : Nat) : Nat := if r = 0 then 0 else if r = 1 then 2 else if r = 2 then 4 else if r = 3 then 0xE else if r = 4 then 0xA else if r = 5 then 0xD else 9

/-- The same of a stager descriptor, whose code 6 is NO_SPACE (R208). -/
def stOfStg (r : Nat) : Nat := if r = 6 then 5 else stOfEng r

/-- Status of a collective as the jig sees it (R340, R414). -/
def stOfColl (r : Nat) : Nat := if r = 0 then 0 else if r = 1 then 2 else if r = 2 then 4 else if r = 3 then 0xE else if r = 4 then 0xA else if r = 5 then 0xD else if r = 6 then 6 else 8

/-- A task of an issued record has completed: on a bench, or the record's one other operation. -/
def Dev.noteTask (d : Dev) (t : Tag) (bench : Option Nat) (status : Nat) : Dev :=
  d.modQueue t.jig t.queue (fun q => { q with issued := q.issued.map (fun x =>
    if x.serial = t.record then
      { x with benches := (match bench with | some b => BitVec.ofNat 32 (setBit x.benches.toNat b false) | none => x.benches),
               other := if bench.isNone then false else x.other, lost := x.lost || status == 9, aborted := x.aborted || status == 0xE,
               status := if x.status = 0 ∧ status ≠ 9 ∧ status ≠ 0xE then status else x.status }
    else x) })

/-! ## Waits and signals of the jigs (R233, R234) -/

/-- Is a threshold reached by a counter's value, modulo 2^32 (R233)? -/
def reachedBy (v : W32) (threshold : Nat) : Bool := decide ((v.toNat + 2 ^ 32 - threshold % 2 ^ 32) % 2 ^ 32 < 2 ^ 31)

/-- Steps since the program was started: s of R233. -/
def Dev.relStep (d : Dev) : Nat := d.life.step.toNat - d.life.startStep

/-- The threshold of a record's wait (R230, R233). -/
def waitThreshold (r : List Nat) (q : Queue) (rel : Nat) : Nat :=
  bits (wordAt r 3) 32 32 + q.loopIdx.getD (bits (wordAt r 0) 48 2) 0 * bits (wordAt r 4) 0 32 + rel * bits (wordAt r 4) 32 32

/-- Is the wait of record `r`, if it has one, reached now? -/
def waitReached (g : Jig) (q : Queue) (rel : Nat) (r : List Nat) : Bool :=
  !bitAt (wordAt r 0) 5 || reachedBy (tabGet 0 g.ctr (bits (wordAt r 3) 0 12)) (waitThreshold r q rel)

/-- Heads whose wait is reached are not tested again (R233), and a hoisting scan for a peer wait ends with it (R253). -/
def latchQueue (g : Jig) (rel : Nat) (q : Queue) : Queue :=
  let r := q.reached || (q.state == 1 && (match q.recs[q.head]? with | some r => waitReached g q rel r | none => false))
  { q with reached := r, hoisting := q.hoisting && !r }

def latchJig (rel : Nat) (g : Jig) : Jig := { g with queues := tabMap {} g.queues (latchQueue g rel) }

/-- Add to a counter of a jig (R234): increments wrap modulo 2^32; waits it reaches are released in the same cycle. -/
def Dev.signal (d : Dev) (jig ctr add : Nat) : Dev :=
  d.modJig jig (fun g => latchJig d.relStep { g with ctr := tabMod 0 g.ctr ctr (fun v => v + BitVec.ofNat 32 add) })

/-- One tick of the timebase: 64 bits, from the internal reset release on (R504). -/
def Ctl.tick (c : Ctl) : Ctl := if c.clk.counting then { c with clk := { c.clk with timebase := c.clk.timebase + 1 } } else c

/-- The timebase, as the blocks read it (R504). -/
def Ctl.now (c : Ctl) : Nat := c.clk.timebase.toNat

end Sys2Proof.Machine
end

