-- ==== Sys2Proof/Machine/VectorEngine.lean ====
section
/-! DEFINITION. What a vector task computes: checks (R132), the operations of R128 to R131, the defaults of R133, over the
contents of one scratchpad. -/

namespace Sys2Proof.Machine

open Sys2Proof

/-- Does the operation read A, B, C with a number format, write D (R128)? -/
def vecUsesA (op : Nat) : Bool := op != 1 && op != 2
def vecUsesB (op : Nat) : Bool :=
  [2, 3, 4, 5, 6, 7, 8, 11, 12, 13, 14, 15, 21].contains op
def vecUsesC (op : Nat) : Bool := op == 6
def vecUsesD (op : Nat) : Bool := op != 13
def vecUsesMask (op : Nat) : Bool := [13, 14, 25, 26].contains op
/-- Is the operation element-wise: does each element of D depend on the same position of A (R132 check 4)? -/
def vecElementwise (op : Nat) : Bool := op == 0 || (decide (3 ≤ op) && decide (op ≤ 12)) || (decide (14 ≤ op) && decide (op ≤ 21))

/-- Row pitch of a bitmask (R131). -/
def maskPitch (cols : Nat) : Nat := roundUp (ceilDiv cols 8) 64

/-- The region of the mask or index list (R131). -/
def vecMaskSpan (d : VecDesc) : Span :=
  if (d.op == 25 || d.op == 26) && d.maskFmt then (d.maskOff, 4 * d.listLen)
  else if (d.op == 25 || d.op == 26) && d.rowwise then (d.maskOff, ceilDiv d.rows 8)
  else (d.maskOff, d.rows * maskPitch d.cols)

/-- The region of B: a row, a column or a matrix (R128). -/
def vecSpanB (d : VecDesc) : Span :=
  if d.op == 2 || d.op == 11 then (d.bOff, matLen d.fmtB 1 d.cols)
  else if d.op == 12 then (d.bOff, matLen d.fmtB d.rows 1)
  else (d.bOff, matLen d.fmtB d.rows d.cols)

/-- The region of A. -/
def vecSpanA (d : VecDesc) : Span := (d.aOff, matLen d.fmtA (if d.op == 27 then d.aRows else d.rows) d.cols)

/-- Columns of D (R128). -/
def vecColsD (d : VecDesc) : Nat := if d.op == 22 || d.op == 23 then 1 else if d.op == 24 then d.topkK else d.cols

/-- The region of D. -/
def vecSpanD (d : VecDesc) : Span := (d.dOff, matLen d.fmtD d.rows (vecColsD d))

/-- The regions a task reads. -/
def vecReads (d : VecDesc) : List Span :=
  (if vecUsesA d.op then [vecSpanA d] else []) ++ (if vecUsesB d.op then [vecSpanB d] else []) ++
  (if d.op == 6 then [(d.cOff, matLen d.fmtC d.rows d.cols)] else if d.op == 27 then [(d.cOff, d.rows * 64)] else []) ++
  (if vecUsesMask d.op && d.op != 13 then [vecMaskSpan d] else [])

/-- Bytes of the mask or the index list that a task reads (R131). -/
def vecMaskBytes (d : VecDesc) : List Span :=
  if !vecUsesMask d.op || d.op == 13 then []
  else if (d.op == 25 || d.op == 26) && (d.maskFmt || d.rowwise) then [vecMaskSpan d]
  else rowSpans d.maskOff (maskPitch d.cols) 0 d.rows 0 (ceilDiv d.cols 8)

/-- Whole rows of a plain or MX matrix, without the padding between them (R75, R88). -/
def rowsOf (fmt base rows cols r n : Nat) : List Span := blockSpans fmt base rows cols r n 0 (if fmtMx fmt then roundUp cols 32 else cols)

/-- The regions a task writes. -/
def vecWrites (d : VecDesc) : List Span :=
  (if vecUsesD d.op then [vecSpanD d] else []) ++ (if d.op == 13 then [vecMaskSpan d] else []) ++
  (if d.op == 24 then [(d.cntOff, d.rows * pitchOf 0 d.topkK)] else []) ++
  (if d.op == 25 then [(d.cntOff, if d.rowwise then 4 else 4 * d.rows)] else [])

/-- A 32-bit index of a list (R127). -/
def rd32 (rd : Nat → Byte) (o : Nat) : Nat := leNat [rd o, rd (o + 1), rd (o + 2), rd (o + 3)]

/-- The index list. -/
def vecList (rd : Nat → Byte) (d : VecDesc) : List Nat := (List.range d.listLen).map (fun i => rd32 rd (d.maskOff + 4 * i))

/-- Strictly ascending? -/
def ascending : List Nat → Bool
  | a :: b :: t => decide (a < b) && ascending (b :: t)
  | _ => true

/-- Is the shape empty, so that the task completes and writes nothing (R132 check 5)? DESIGN CHOICE (log 123): with an index list, a
task with COLS = 0 and ROWWISE = 0 is empty too, whatever LIST_LEN is. -/
def vecEmpty (d : VecDesc) : Bool :=
  let sel := d.op == 25 || d.op == 26
  d.rows = 0 || (d.cols = 0 && !(sel && d.rowwise)) || (sel && d.maskFmt && d.listLen = 0)

/-- The checks of R132 that need no list: in their order; `ctx` is the stream context of R478. DESIGN CHOICE (log 122): the exception of
check 4 compares D with A alone, so D = A = B with three equal spans passes, as D = A does. -/
def vecCheckShape (d : VecDesc) (ctx : List Span) : Option Nat :=
  let fmtOk (c : Nat) : Bool := decide (c ≤ 4) || (d.op == 0 && decide (c ≤ 7))
  if !d.resvOk || 0x1C ≤ d.op || 10 ≤ d.func || 9 ≤ d.fmtA || 9 ≤ d.fmtB || 9 ≤ d.fmtC || 9 ≤ d.fmtD then some resBadOpcode
  else if (vecUsesA d.op && !fmtOk d.fmtA) || (vecUsesB d.op && !fmtOk d.fmtB) || (vecUsesC d.op && !fmtOk d.fmtC) ||
      (vecUsesD d.op && !fmtOk d.fmtD) || (d.op == 24 && (d.topkK = 0 || 8 < d.topkK)) then some resBadOpcode
  else if !((vecWrites d ++ vecReads d).all (fun s => s.1 % 64 == 0)) then some resBadOpcode
  else if !(spansApart (vecWrites d) (vecReads d ++ ctx)
      (fun w r => vecElementwise d.op && w == vecSpanD d && r == vecSpanA d && w == r)) then some resBadOpcode
  else if vecEmpty d then some resOk
  else if !((vecWrites d ++ vecReads d ++ ctx).all spanFits) then some resLenRange
  else none

/-- The index list, or the indices in C, that check 6 reads in full before the operation starts (R127, R132). -/
def vecIndexSpans (d : VecDesc) : List Span :=
  if (d.op == 25 || d.op == 26) && d.maskFmt then [vecMaskSpan d] else if d.op == 27 then (List.range d.rows).map (fun i => (d.cOff + 64 * i, 4)) else []

/-- The rest of check 6: the indices are below their bound, a list ascends (R132). -/
def vecCheckList (rd : Nat → Byte) (d : VecDesc) : Option Nat :=
  if (d.op == 25 || d.op == 26) && d.maskFmt && !(ascending (vecList rd d) &&
      (vecList rd d).all (fun i => decide (i < if d.rowwise then d.rows else d.cols))) then some resLenRange
  else if d.op == 27 && !((List.range d.rows).all (fun i => decide (rd32 rd (d.cOff + 64 * i) < d.aRows))) then
    some resLenRange
  else none

/-- The checks of R132 in their order. -/
def vecCheck (rd : Nat → Byte) (d : VecDesc) (ctx : List Span) : Option Nat := (vecCheckShape d ctx).or (vecCheckList rd d)

/-- The values an element-wise operation combines, and its result (R128, R129, R133). -/
def vecElem (rd : Nat → Byte) (d : VecDesc) (r c : Nat) : Fl :=
  let a := matVal rd d.fmtA d.aOff d.rows d.cols r c
  let b (r c : Nat) (rows cols : Nat) : Fl := matVal rd d.fmtB d.bOff rows cols r c
  let bb := b r c d.rows d.cols
  let leak := decodeFl bf16 d.leak
  match d.op with
  | 0 => r32 a
  | 1 => f32 d.scalar0
  | 2 => b 0 c 1 d.cols
  | 3 => add32 a bb
  | 4 => sub32 a bb
  | 5 => mul32 a bb
  | 6 => fma32 a bb (matVal rd d.fmtC d.cOff d.rows d.cols r c)
  | 7 => a.min bb
  | 8 => a.max bb
  | 9 => a.abs
  | 10 => a.neg
  | 11 => add32 a (b 0 c 1 d.cols)
  | 12 => mul32 a (b r 0 d.rows 1)
  | 14 => if bitAt (rd (d.maskOff + r * maskPitch d.cols + c / 8)).toNat (c % 8) then a else bb
  | 15 => divVec32 a bb
  | 16 => recip32 a
  | 17 => sqrt32 a
  | 18 => rsqrt32 a
  | 19 => log32 a
  | 20 => applyFn d.func leak a
  | 21 => mul32 bb (applyFnDer d.func leak a)
  | _ => a

/-- The rank order of ROW_TOPK: NaN above +∞, +0 above -0 (R133). -/
def topkAbove (x y : Fl) : Bool :=
  if x.isNan then !y.isNan else if y.isNan then false
  else if x.isZero && y.isZero then (match x, y with | .fin false _ _, .fin true _ _ => true | _, _ => false)
  else y.lt x

/-- Insert a (value, column) pair into a list ranked largest first, later columns after equal earlier ones. -/
def topkInsert (p : Fl × Nat) : List (Fl × Nat) → List (Fl × Nat)
  | [] => [p]
  | q :: t => if topkAbove p.1 q.1 then p :: q :: t else q :: topkInsert p t

/-- The ranked elements of a row. -/
def topk (k : Nat) (vs : List Fl) : List (Fl × Nat) :=
  ((vs.mapIdx (fun i v => (v, i))).foldl (fun acc p => topkInsert p acc) []).take k

/-- The selected positions of a row, or of the rows (R131). -/
def vecSelected (rd : Nat → Byte) (d : VecDesc) (r : Nat) : List Nat :=
  if d.maskFmt then vecList rd d
  else if d.rowwise then (List.range d.rows).filter (fun i => bitAt (rd (d.maskOff + i / 8)).toNat (i % 8))
  else (List.range d.cols).filter (fun c => bitAt (rd (d.maskOff + r * maskPitch d.cols + c / 8)).toNat (c % 8))

/-- The rows of A that a task moves: of GATHER and of the ROWWISE forms only those (R131, R134). -/
def vecRowsRead (rd : Nat → Byte) (d : VecDesc) : List Nat :=
  if d.op = 27 then (List.range d.rows).map (fun i => rd32 rd (d.cOff + 64 * i))
  else if d.op = 25 && d.rowwise then vecSelected rd d 0
  else if d.op = 26 && d.rowwise then List.range (vecSelected rd d 0).length
  else List.range d.rows

/-- The bytes a task reads besides its mask and its indices. DESIGN CHOICE (log 150): COMPRESS and EXPAND of elements read whole rows. -/
def vecReadBytes (rd : Nat → Byte) (d : VecDesc) : List Span :=
  (if vecUsesA d.op then (vecRowsRead rd d).flatMap (fun r => rowsOf d.fmtA d.aOff (if d.op == 27 then d.aRows else d.rows) d.cols r 1) else []) ++
  (if !vecUsesB d.op then [] else if d.op == 2 || d.op == 11 then rowsOf d.fmtB d.bOff 1 d.cols 0 1
    else if d.op == 12 then rowsOf d.fmtB d.bOff d.rows 1 0 d.rows else rowsOf d.fmtB d.bOff d.rows d.cols 0 d.rows) ++
  (if d.op == 6 then rowsOf d.fmtC d.cOff d.rows d.cols 0 d.rows else [])

/-- A row of A as values. -/
def vecRowA (rd : Nat → Byte) (d : VecDesc) (rows r : Nat) : List Fl := (List.range d.cols).map (matVal rd d.fmtA d.aOff rows d.cols r)

/-- The row of D of a row operation: what is written at each column (`none`: not written). -/
def vecRowD (rd : Nat → Byte) (d : VecDesc) (r : Nat) : List (Option Fl) :=
  match d.op with
  | 22 => [some (rowSum (vecRowA rd d d.rows r))]
  | 23 => [some (maxOf (vecRowA rd d d.rows r))]
  | 24 => (topk d.topkK (vecRowA rd d d.rows r)).map (fun p => some p.1)
  | 25 =>
    if d.rowwise then
      (match (vecSelected rd d 0)[r]? with
       | some i => (vecRowA rd d d.rows i).map some
       | none => [])
    else (vecSelected rd d r).map (fun c => some (matVal rd d.fmtA d.aOff d.rows d.cols r c))
  | 26 =>
    let sel := vecSelected rd d r
    let fill := f32 d.scalar0
    if d.rowwise then
      if sel.contains r then (vecRowA rd d d.rows (sel.filter (fun i => decide (i < r))).length).map some
      else List.replicate d.cols (some fill)
    else (List.range d.cols).map (fun c =>
      some (if sel.contains c then matVal rd d.fmtA d.aOff d.rows d.cols r (sel.filter (fun i => decide (i < c))).length
            else fill))
  | 27 => (vecRowA rd d d.aRows (rd32 rd (d.cOff + 64 * r))).map some
  | _ => (List.range d.cols).map (fun c => some (vecElem rd d r c))

/-- What a row operation writes besides D: bitmask, indices, counts (R128, R131). Undefined where the spec states nothing:
the places of ROW_TOPK beyond a row's columns, free by `free`. DESIGN CHOICE (log 124): the high bits of the last byte of a CMP_GT
bitmask row beyond COLS are written as 0. -/
def vecSideRow (m : Spad) (rd : Nat → Byte) (d : VecDesc) (free r : Nat) : Spad :=
  match d.op with
  | 13 =>
    let bs := (List.range d.cols).filter (fun c =>
      (matVal rd d.fmtB d.bOff d.rows d.cols r c).lt (matVal rd d.fmtA d.aOff d.rows d.cols r c))
    spadWrite m (d.maskOff + r * maskPitch d.cols) (natLE (ceilDiv d.cols 8) (maskOf bs))
  | 24 =>
    let ix := (topk d.topkK (vecRowA rd d d.rows r)).map Prod.snd
    let p := pitchOf 0 d.topkK
    let undef (n o : Nat) : List Byte := (List.range n).map (fun i => Config.undefByte free (o + i))
    let m := spadWrite m (d.cntOff + r * p) (ix.flatMap (natLE 4) ++ undef (4 * (d.topkK - ix.length)) (r * p))
    let w := fmtBits d.fmtD / 8
    spadWrite m (d.dOff + r * pitchOf d.fmtD d.topkK + w * ix.length) (undef (w * (d.topkK - ix.length)) (r * p + 0x100000))
  | 25 =>
    if d.rowwise then (if r = 0 then spadWrite m d.cntOff (natLE 4 (vecSelected rd d 0).length) else m)
    else spadWrite m (d.cntOff + 4 * r) (natLE 4 (vecSelected rd d r).length)
  | _ => m

/-- The bytes a vector task writes (R75, R128, R131). -/
def vecWritten (rd : Nat → Byte) (d : VecDesc) : List Span :=
  (List.range d.rows).flatMap (fun r =>
    let n := if d.op = 24 then d.topkK else (vecRowD rd d r).length
    (if vecUsesD d.op then blockSpans d.fmtD d.dOff d.rows (vecColsD d) r 1 0 (if fmtMx d.fmtD then roundUp n 32 else n) else []) ++
    (if d.op = 13 then [(d.maskOff + r * maskPitch d.cols, ceilDiv d.cols 8)]
     else if d.op = 24 then [(d.cntOff + r * pitchOf 0 d.topkK, 4 * d.topkK)]
     else if d.op = 25 then [if d.rowwise then (d.cntOff, 4) else (d.cntOff + 4 * r, 4)] else []))

/-- A vector task's whole effect, and the number of non-finite elements written (R129, R139). -/
def vecRun (m : Spad) (d : VecDesc) (free : Nat) (rand : Nat → Nat) : Spad × Nat :=
  let rd := spadRd m
  foldRange d.rows (m, 0) (fun r st =>
    let st1 := if vecUsesD d.op then
        spadPutRow st.1 d.fmtD d.dOff d.rows (vecColsD d) r (vecRowD rd d r) (rowRand d.sr rand (r * d.cols))
      else (st.1, 0)
    (vecSideRow st1.1 rd d free r, st.2 + st1.2))

end Sys2Proof.Machine
end

