-- ==== Sys2Proof/Machine/RowEngine.lean ====
section
/-! DEFINITION. What a row-engine task computes: checks (R137), the operations of R138 with the special cases of R140, the
gradient accumulation of R139, over the contents of one scratchpad and its stat store. -/

namespace Sys2Proof.Machine

open Sys2Proof

/-- Padded length of a vector of FP32 columns, the P of R136. -/
def rowP (d : RowDesc) : Nat := roundUp (4 * d.cols) 64

/-- Is the operation a backward one? -/
def rowBwd (op : Nat) : Bool := op == 3 || op == 4 || op == 5

/-- Does the task read the stats region (R136)? -/
def rowReadsStats (d : RowDesc) : Bool := d.op == 2 || (d.op == 5 && !d.pIn)

/-- Does the task read records of the stat store: the backward operations, SM_BWD without P_IN (R138)? -/
def rowReadsRecord (d : RowDesc) : Bool := d.op == 3 || d.op == 4 || (d.op == 5 && !d.pIn)

/-- Does the task access the stat store (R135, R138)? -/
def rowUsesStore (d : RowDesc) : Bool := decide (d.op < 3) || rowReadsRecord d

/-- Does the task accumulate dγ (R136)? -/
def rowHasDg (d : RowDesc) : Bool := d.dgEn && (d.op == 3 || d.op == 4)

/-- Does the operation scale by γ (R138)? -/
def rowHasG (d : RowDesc) : Bool := d.affine && d.op != 2 && d.op != 5

/-- The regions a task reads. -/
def rowReads (d : RowDesc) : List Span :=
  [(d.xOff, matLen d.fmtX d.rows d.cols)] ++
  (if rowBwd d.op then [(d.dyOff, matLen d.fmtDy d.rows d.cols)] else []) ++
  (if rowHasG d then [(d.gOff, d.cols * fmtBits d.fmtG / 8)] else []) ++
  (if rowHasG d && d.op == 0 then [(d.betaOff, d.cols * fmtBits d.fmtG / 8)] else []) ++
  (if rowReadsStats d then [(d.statsOff, statsLen d.rows d.cols)] else [])

/-- The regions a task writes; the DG region counts as one written region (R137). -/
def rowWrites (d : RowDesc) : List Span :=
  [(d.yOff, matLen d.fmtY d.rows d.cols)] ++
  (if rowHasDg d then [(d.dgOff, if d.op == 3 then 2 * rowP d else rowP d)] else [])

/-- The bytes a row task writes in the scratchpad. -/
def rowWritten (d : RowDesc) : List Span :=
  rowsOf d.fmtY d.yOff d.rows d.cols 0 d.rows ++
  (if rowHasDg d then (d.dgOff, 4 * d.cols) :: (if d.op == 3 then [(d.dgOff + rowP d, 4 * d.cols)] else []) else [])

/-- The bytes a row task reads in the scratchpad (R100, R136, R138, R139). -/
def rowReadBytes (d : RowDesc) : List Span :=
  let g := d.cols * fmtBits d.fmtG / 8
  rowsOf d.fmtX d.xOff d.rows d.cols 0 d.rows ++ (if rowBwd d.op then rowsOf d.fmtDy d.dyOff d.rows d.cols 0 d.rows else []) ++
  (if rowHasG d then [(d.gOff, g)] else []) ++ (if rowHasG d && d.op == 0 then [(d.betaOff, g)] else []) ++
  (if d.op == 2 then [(d.statsOff, 8 * d.rows)] else []) ++
  (if rowReadsStats d then [(d.statsOff + 64 * ceilDiv (8 * d.rows) 64, 4 * d.rows * ceilDiv d.cols 64)] else []) ++
  (if rowHasDg d then (d.dgOff, 4 * d.cols) :: (if d.op == 3 then [(d.dgOff + rowP d, 4 * d.cols)] else []) else [])

/-- The checks of R132 with the changes of R137; `ctx` is the stream context of R478. DESIGN CHOICE (log 125): the ranges of FMT_DY and
FMT_G are tested whether or not the operation uses the stream. -/
def rowCheck (d : RowDesc) (ctx : List Span) : Option Nat :=
  let y : Span := (d.yOff, matLen d.fmtY d.rows d.cols)
  if !d.resvOk || 6 ≤ d.op then some resBadOpcode
  else if 6 ≤ d.fmtX || 6 ≤ d.fmtY || 6 ≤ d.fmtDy || (d.fmtG != 0 && d.fmtG != 2) then some resBadOpcode
  else if !((rowWrites d ++ rowReads d).all (fun s => s.1 % 64 == 0)) then some resBadOpcode
  else if !(spansApart (rowWrites d) (rowReads d ++ ctx) (fun w r => w == y && w == r &&
      (r == (d.xOff, matLen d.fmtX d.rows d.cols) ||
       (rowBwd d.op && r == (d.dyOff, matLen d.fmtDy d.rows d.cols))))) then some resBadOpcode
  else if d.rows = 0 || d.cols = 0 then some resOk
  else if !((rowWrites d ++ rowReads d ++ ctx).all spanFits) || 8192 < d.statBase + d.rows then some resLenRange
  else none

/-- An element of γ or β. -/
def gammaVal (rd : Nat → Byte) (d : RowDesc) (off c : Nat) : Fl := decodeFl (fmtSpec d.fmtG) (elemBits rd d.fmtG off 0 0 c)

/-- γ, 1 without rounding where AFFINE is 0 (R138). -/
def rowGamma (rd : Nat → Byte) (d : RowDesc) (c : Nat) : Fl := if d.affine then gammaVal rd d d.gOff c else .one

/-- The mean of a list by COLS, correctly rounded (R138). -/
def meanOf (d : RowDesc) (l : List Fl) : Fl := div32 (rowSum l) (Fl.ofNat d.cols)

/-- The two values of a stat-store record (R135). -/
def recPair (w : Nat) : Fl × Fl := (f32 (bits w 0 32), f32 (bits w 32 32))

/-- A stat-store record of two values. -/
def recOf (a b : Fl) : Nat := to32 a + to32 b * 2 ^ 32

/-- The maximum used for column tile `j` of row `r` (R100). -/
def statsTileMax (rd : Nat → Byte) (d : RowDesc) (r j : Nat) : Fl :=
  f32 (rd32 rd (d.statsOff + 64 * ceilDiv (8 * d.rows) 64 + 4 * (r * ceilDiv d.cols 64 + j)))

/-- Is every maximum of the row -∞, so that the row is fully masked (R140)? -/
def rowMasked (rd : Nat → Byte) (d : RowDesc) (r : Nat) : Bool :=
  (List.range (ceilDiv d.cols 64)).all (fun j => statsTileMax rd d r j == .inf true)

/-- The probabilities of a row from the drain's numerators (SM_FIN, R138, R140). -/
def smProbs (rd : Nat → Byte) (d : RowDesc) (r : Nat) (m s : Fl) (xs : List Fl) : List Fl :=
  if rowMasked rd d r then xs.map (fun _ => .zero)
  else xs.mapIdx (fun c x => mul32 x (div32 (exp32 (sub32 (statsTileMax rd d r (c / 64)) m)) s))

/-- Are all values of a row equal? -/
def constRow (xs : List Fl) : Bool := xs.all (fun x => !x.lt (xs.headD .zero) && !(xs.headD .zero).lt x)

/-- A constant row of LN_FWD with EPS = 0, or one of zeros of RMS_FWD: v is +0, so the row and its record are NaN, whatever the rounding of
the mean would make of them (R140). -/
def flatRow (d : RowDesc) (xs : List Fl) : Bool := (f32 d.eps).isZero && ((d.op == 0 && constRow xs) || (d.op == 1 && xs.all Fl.isZero))

/-- The outputs of a row whose inputs hold no NaN, its normalised values, and its new record if it writes one (R138). -/
def rowFormulas (rd : Nat → Byte) (d : RowDesc) (r rec : Nat) : List Fl × List Fl × Option Nat :=
  let xs := (List.range d.cols).map (matVal rd d.fmtX d.xOff d.rows d.cols r)
  let dys := (List.range d.cols).map (matVal rd d.fmtDy d.dyOff d.rows d.cols r)
  let (ra, rb) := recPair rec
  let eps := f32 d.eps
  match d.op with
  | 0 =>
    let mu := meanOf d xs
    let ds := xs.map (fun x => sub32 x mu)
    let v := meanOf d (ds.map (fun e => mul32 e e))
    let rho := rsqrt32 (add32 v eps)
    let xh := ds.map (fun e => mul32 e rho)
    (xh.mapIdx (fun c e => fma32 e (rowGamma rd d c) (if d.affine then gammaVal rd d d.betaOff c else .zero)), xh,
      some (recOf mu rho))
  | 1 =>
    let rho := rsqrt32 (add32 (meanOf d (xs.map (fun x => mul32 x x))) eps)
    let xh := xs.map (fun x => mul32 x rho)
    (xh.mapIdx (fun c e => mul32 e (rowGamma rd d c)), xh, some (recOf .zero rho))
  | 2 =>
    let m := f32 (rd32 rd (d.statsOff + 8 * r))
    let s := f32 (rd32 rd (d.statsOff + 8 * r + 4))
    (smProbs rd d r m s xs, xs,
      some (if rowMasked rd d r then recOf (.inf true) .zero else recOf m s))
  | 3 =>
    let xh := xs.map (fun x => mul32 (sub32 x ra) rb)
    let g := dys.mapIdx (fun c e => mul32 e (rowGamma rd d c))
    let a := meanOf d g
    let b := meanOf d (List.zipWith mul32 g xh)
    (List.zipWith (fun e gg => mul32 rb (fma32 e.neg b (sub32 gg a))) xh g, xh, none)
  | 4 =>
    let xh := xs.map (fun x => mul32 x rb)
    let g := dys.mapIdx (fun c e => mul32 e (rowGamma rd d c))
    let b := meanOf d (List.zipWith mul32 g xh)
    (List.zipWith (fun e gg => mul32 rb (fma32 e.neg b gg)) xh g, xh, none)
  | _ =>
    let ps := if d.pIn then xs else smProbs rd d r ra rb xs
    let dl := rowSum (List.zipWith mul32 ps dys)
    if !d.pIn && rowMasked rd d r then (xs.map (fun _ => .zero), ps, none)
    else (List.zipWith (fun p e => mul32 p (sub32 e dl)) ps dys, ps, none)

/-- The values a row's formulas take (R136, R138): x, dy, γ, β, the record, the maxima and the sum of the stats region. -/
def rowInputs (rd : Nat → Byte) (d : RowDesc) (r rec : Nat) : List Fl :=
  let cs := List.range d.cols
  cs.map (matVal rd d.fmtX d.xOff d.rows d.cols r) ++ (if rowBwd d.op then cs.map (matVal rd d.fmtDy d.dyOff d.rows d.cols r) else []) ++
  (if rowHasG d then cs.map (gammaVal rd d d.gOff) else []) ++ (if rowHasG d && d.op == 0 then cs.map (gammaVal rd d d.betaOff) else []) ++
  (if d.op == 4 then [(recPair rec).2] else if rowReadsRecord d then [(recPair rec).1, (recPair rec).2] else []) ++
  (if d.op == 2 then [f32 (rd32 rd (d.statsOff + 8 * r)), f32 (rd32 rd (d.statsOff + 8 * r + 4))] else []) ++
  (if rowReadsStats d then (List.range (ceilDiv d.cols 64)).map (statsTileMax rd d r) else [])

/-- What a row gives: a NaN in any of its inputs makes every output NaN, the record with it, and so does a constant row with EPS = 0 (R140). DESIGN CHOICE (log 126): this holds
for a fully masked row too. -/
def rowCompute (rd : Nat → Byte) (d : RowDesc) (r rec : Nat) : List Fl × List Fl × Option Nat :=
  let f := rowFormulas rd d r rec
  if (rowInputs rd d r rec).any Fl.isNan || flatRow d ((List.range d.cols).map (matVal rd d.fmtX d.xOff d.rows d.cols r)) then (f.1.map (fun _ => .nan), f.2.1, f.2.2.map (fun _ => recOf .nan .nan)) else f

/-- dγ and dβ of one row added to their accumulators (R139). -/
def rowAccum (m : Spad) (rd : Nat → Byte) (d : RowDesc) (r : Nat) (xh : List Fl) : Spad :=
  foldRange d.cols m (fun c m =>
    let dy := matVal rd d.fmtDy d.dyOff d.rows d.cols r c
    let o := d.dgOff + 4 * c
    let m := spadWrite m o (natLE 4 (to32 (fma32 dy (xh.getD c .nan) (f32 (rd32 (spadRd m) o)))))
    if d.op == 3 then
      let o := o + rowP d
      spadWrite m o (natLE 4 (to32 (add32 (f32 (rd32 (spadRd m) o)) dy)))
    else m)

/-- A row task's whole effect on the scratchpad and the stat store, and its non-finite count (R138, R139). -/
def rowRun (m : Spad) (st : Tab Nat) (d : RowDesc) (rand : Nat → Nat) : Spad × Tab Nat × Nat :=
  let rd := spadRd m
  foldRange d.rows (m, st, 0) (fun r acc =>
    let (ys, xh, rec) := rowCompute rd d r (tabGet 0 st (d.statBase + r))
    let (m1, n) := spadPutRow acc.1 d.fmtY d.yOff d.rows d.cols r (ys.map some) (rowRand d.sr rand (r * d.cols))
    let m2 := if rowHasDg d then rowAccum m1 rd d r xh else m1
    let st2 := match rec with
      | some w => tabSet 0 acc.2.1 (d.statBase + r) w
      | none => acc.2.1
    (m2, st2, acc.2.2 + n))

end Sys2Proof.Machine
end

