-- ==== Sys2Proof/Machine/Collector.lean ====
section
/-! DEFINITION. The abort of a step (R49, R48, R87, R252), the entry to the safe state (R460, R461) and a raise at the fault
collector (R444 to R449): the one operation by which every block reports a fault. -/

namespace Sys2Proof.Machine

open Sys2Proof

/-! ## Source numbers (R443) -/

namespace Fs
def csrDrop : Nat := 0
def addrDecode : Nat := 1
def jtagUnlock : Nat := 4
def heartbeatLost : Nat := 5
def lockstep : Nat := 6
def sramUe : Nat := 8
def cfgDefaulted : Nat := 9
def fwFallback : Nat := 10
def loaderFail : Nat := 11
def fwUpdateFail : Nat := 12
def gddrUe : Nat := 13
def winRefetch : Nat := 14
def pwrBrake : Nat := 15
def pwrThrottle : Nat := 16
def pwrRegFault : Nat := 17
def pllUnlock : Nat := 18
def refclkLoss : Nat := 19
def ethRefclkLoss : Nat := 20
def thermWarn (i : Nat) : Nat := 37 + i
def thermCrit (i : Nat) : Nat := 50 + i
def benchCe (b : Nat) : Nat := 79 + b
def benchErr (i : Nat) : Nat := 83 + i
def dowel : Nat := 215
def nearCe (h : Nat) : Nat := 216 + h
def bcacheErr (h : Nat) : Nat := 296 + h
def nearUe (h : Nat) : Nat := 224 + h
def nearScrubUe (h : Nat) : Nat := 232 + h
def nearRepair (h : Nat) : Nat := 240 + h
def nearRepairExhausted (h : Nat) : Nat := 248 + h
def nearRetrain (h : Nat) : Nat := 256 + h
def nearRetrainFail (h : Nat) : Nat := 264 + h
def nearRetired (h : Nat) : Nat := 272 + h
def nearRetireLimit (h : Nat) : Nat := 280 + h
def nearTempHigh (h : Nat) : Nat := 288 + h
def farPortFail (n : Nat) : Nat := 304 + n
def farLinkRetrain (n : Nat) : Nat := 308 + n
def farLinkDown (n : Nat) : Nat := 312 + n
def farWriteRefused (n : Nat) : Nat := 316 + n
def farHdrBad (n : Nat) : Nat := 320 + n
def farTimeout (n : Nat) : Nat := 324 + n
def farBlockBad : Nat := 328
def farRepairFail : Nat := 329
def jigTaskFail (j : Nat) : Nat := 330 + j
def jigWaitTimeout (j : Nat) : Nat := 335 + j
def jigHostLostQueue (j : Nat) : Nat := 340 + j
def strmWatchdog : Nat := 345
def plnNonfinite (h : Nat) : Nat := 346 + h
def plnLedgerOver (h : Nat) : Nat := 354 + h
def plnUpdateFail (h : Nat) : Nat := 362 + h
def plnTwinLost (h : Nat) : Nat := 370 + h
def ethLaneFail (l : Nat) : Nat := 378 + l
def ethPortNarrowed : Nat := 442
def ethPortDown : Nat := 443
def fabFlowFail : Nat := 444
def fabPeerLost : Nat := 445
def fabRemoteErr : Nat := 446
def fabOrderDup : Nat := 447
def collOpFail : Nat := 448
def clampAbsent : Nat := 449
def clampSelfDropped : Nat := 450
def clampNoResult : Nat := 451
def doveFail : Nat := 452
def cohDirUe (h : Nat) : Nat := 461 + h
def cohSnoopTimeout (h : Nat) : Nat := 469 + h
def hostLost : Nat := 477
def hostRetrain : Nat := 478
def orphanOvf : Nat := 479
end Fs

/-- Runs of sources with their default severity, first and last number (R443). -/
def sevRuns : List (Nat × Nat × Nat) :=
  [(0, 2, 1), (3, 3, 3), (4, 5, 1), (6, 6, 3), (7, 7, 1), (8, 8, 3), (9, 12, 1), (13, 13, 2), (14, 14, 1), (15, 16, 0), (17, 19, 3),
   (20, 20, 2), (21, 28, 1), (29, 36, 3), (37, 49, 0), (50, 62, 3), (63, 70, 1), (71, 78, 2), (79, 82, 1), (83, 215, 2),
   (216, 223, 1), (224, 231, 2), (232, 239, 1), (240, 247, 0), (248, 255, 1), (256, 263, 0), (264, 279, 1), (280, 287, 2),
   (288, 295, 0), (296, 307, 1), (308, 311, 0), (312, 315, 2), (316, 323, 1), (324, 327, 2), (328, 328, 1), (329, 339, 2),
   (340, 344, 1), (345, 345, 2), (346, 353, 1), (354, 369, 2), (370, 445, 1), (446, 448, 2), (449, 450, 1), (451, 452, 2),
   (453, 460, 1), (461, 476, 3), (477, 477, 2), (478, 478, 0), (479, 479, 1)]

/-- Default severity of a source (R443). -/
def sevDefault (n : Nat) : Nat :=
  match sevRuns.find? (fun r => decide (r.1 ≤ n) && decide (n ≤ r.2.1)) with
  | some r => r.2.2
  | none => 0

/-- A source whose severity is fixed at 3 (R443): every default of 3 is fixed. -/
def sevFixed (n : Nat) : Bool := sevDefault n == 3

/-- A source as reset leaves it. -/
def srcReset (n : Nat) : Src := { sev := BitVec.ofNat 2 (sevDefault n) }

def Collector.src (fc : Collector) (n : Nat) : Src := tabGet (srcReset n) fc.srcs n
def Collector.setSrc (fc : Collector) (n : Nat) (x : Src) : Collector := { fc with srcs := tabSet (srcReset n) fc.srcs n x }

/-- Has a bench no running or pending task? -/
def idleBench (b : Bench) : Bool := b.dma.slots.isEmpty && b.mx.slots.isEmpty && b.vec.slots.isEmpty && b.row.slots.isEmpty

/-- The backward phase is complete: every bay queue is done and every bench idle. -/
def backwardDone (d : Dev) : Bool :=
  (List.range 4).all (fun b => (d.jig b).queues.all (fun p => p.2.recs.isEmpty || p.2.state == 5#4 || p.2.state == 6#4)) && (List.range 132).all (fun i => idleBench (d.bench i))

/-- Micro-batch of a GRAD_SEND of a step as a bit, 0 for another operation (R340). -/
def gradBit (step : Nat) (o : CollOp) : Nat := if bits (wordAt o.words 0) 0 8 = 1 ∧ o.step = step then 2 ^ bits (wordAt o.words 0) 48 16 else 0

/-! ## Abandoning engines (R87) -/

namespace Dev

/-- Bytes of the scratchpad that a task which does not end with OK leaves undefined: the span of a LOAD, what a vector or row task
writes (R126, R134). 0 DMA, 1 MX, 2 VEC, 3 ROW (R113). -/
def taskWrites (b : Bench) (eng : Nat) (t : Task) : List Span :=
  match eng with
  | 0 => if (dmaDescOf t.words).kind = 0 then [dmaSpadSpan (dmaDescOf t.words)] else []
  | 1 => []
  | 2 => vecWritten (spadRd b.spad) (vecDescOf t.words)
  | _ => rowWritten (rowDescOf t.words)

/-- Stat-store records that a running task may have written: first and count (R135). -/
def taskStats (eng : Nat) (t : Task) : Nat × Nat :=
  match eng with
  | 0 => if (dmaDescOf t.words).kind = 3 then ((dmaDescOf t.words).spadOff % 8192, (dmaDescOf t.words).h) else (0, 0)
  | 3 => if (rowDescOf t.words).op < 3 then ((rowDescOf t.words).statBase, (rowDescOf t.words).rows) else (0, 0)
  | _ => (0, 0)

/-- Write undefined bytes over a span of a scratchpad (R87, R109, R126). -/
def undefSpan (free : Nat) (m : Spad) (s : Span) : Spad := spadWrite m s.1 (undefBytes free s.2)

/-- Undefined stat-store records (R126, R135). -/
def undefStats (free : Nat) (m : Tab Nat) (s : Nat × Nat) : Tab Nat :=
  foldRange s.2 m (fun i m => tabSet 0 m (s.1 + i) (leNat ((List.range 8).map (fun j => Config.undefByte free (0x400000 + 8 * (s.1 + i) + j)))))

/-- What a task that does not end with OK leaves of its destinations in the bench (R126, R134, R135). -/
def undefTask (free eng : Nat) (t : Task) (b : Bench) : Bench :=
  { b with spad := (taskWrites b eng t).foldl (undefSpan free) b.spad, stat := undefStats free b.stat (taskStats eng t) }

/-- Write a span of memory, or of the scratchpad window of a bench. -/
def pokeAny (d : Dev) (a : Nat) (bs : List Byte) : Dev :=
  if rangeOf a == .csr then d.modBench ((a - 0x3F8000000000) / 0x200000) (fun b => { b with spad := spadWrite b.spad (a % 0x200000) bs }) else d.poke a bs

/-- An abandoned STORE leaves each line old or new (R126): a line that has not landed takes its old bytes back. -/
def unlandLines (d : Dev) (p : Nat × List Byte) : Dev :=
  (Memory.linesOf p.1 p.2.length).foldl (fun x l =>
    if Config.lineLanded x.free l then x
    else x.pokeAny (max p.1 (l * 64)) ((p.2.drop (l * 64 - p.1)).take (min (l * 64 + 64) (p.1 + p.2.length) - max p.1 (l * 64)))) d

/-- Accesses of an abandoned bench DMA task that are still in flight find nobody waiting. -/
def orphanAccs (d : Dev) (i : Nat) : Dev :=
  let d1 := d.modHost (fun h => { h with flight := h.flight.map (fun x => if x.bench = some i then { x with bench := none, len := 0 } else x) })
  let drop := fun (m : OpenMsg) => if m.issuer = .bench i then { m with issuer := .none } else m
  let lone := fun (w : WaitAcc) => if (w.dma.map Prod.fst) = some i then { w with dma := none } else w
  let d2 : Dev := { d1 with benches := tabMap {} d1.benches (fun b => { b with waits := b.waits.map lone }) }
  d2.modFab (fun g => { g with flows := tabMap {} g.flows (fun f => { f with msgs := f.msgs.map drop }) })

/-- Tags of a STORE with DOWEL_GEN, written after the data is acknowledged (R158). -/
def storeTags (t : Task) (x : DmaDesc) (d : Dev) : Dev :=
  foldRange (x.h * x.memPitch / 4096) d (fun k y => y.setTag (x.memAddr + 4096 * k) (leNat ((List.range 4).map (fun j => tabGet 0 t.buf (4 * k + j)))))

/-- The running task of an engine is abandoned: regions that it may have written are undefined (R126, R134); of a matrix task the tiles
already drained stay (R87). A STORE that
read an uncorrectable word has written every line all the same. -/
def abandonTask (d : Dev) (i eng : Nat) (t : Task) : Dev :=
  if t.issued && (eng == 0 || t.res == 0) then
    let d0 := if eng = 0 then d.orphanAccs i else d
    if t.badSrc && t.res == 0 then (if (dmaDescOf t.words).dowelGen then storeTags t (dmaDescOf t.words) d0 else d0)
    else
      let d1 := t.old.foldl unlandLines (d0.modBench i (if eng = 1 then mxAbandon d.opt.seed d.free t else undefTask d.free eng t))
      { d1 with free := d1.free + 1 }
  else d

/-- The status an engine has given its task by the task's own failure, 0 for none: it stays when containment follows (R447). -/
def ownEnd (t : Task) : Nat := if !t.ran then 0 else if t.res = 0 ∧ t.badSrc then resPoisoned else t.res

/-- The clocks that a matrix task has run when it is abandoned count as busy: how many is free, since the model keeps no clock within a task
(log 149). -/
def countRan (d : Dev) (i eng : Nat) (t : Task) : Dev :=
  if eng = 1 ∧ t.issued then
    { (d.modBench i (fun b => { b with mx := { b.mx with busyClk := cntAdd b.mx.busyClk (Config.choice d.free (2 ^ 64)) } })) with free := d.free + 1 }
  else d

/-- An engine without its tasks: LAST_RESULT 3, unless the running task had ended by itself. -/
def emptied (t : Task) (e : Eng) : Eng :=
  if ownEnd t = 0 then { e with slots := [], last := 3 } else { e with slots := [], last := BitVec.ofNat 4 (ownEnd t), taskCnt := cntInc e.taskCnt }

/-- One engine of a bench abandons its tasks: nothing is signalled; what the running task had written and counted stays (R87). -/
def abandonEng (i : Nat) (d : Dev) (eng : Nat) : Dev :=
  match (engOf (d.bench i) eng).slots with
  | [] => d
  | t :: _ => (countRan (d.abandonTask i eng t) i eng t).modBench i (fun b => setEng b eng (emptied t (engOf b eng)))

/-- Every engine of a bench abandons its tasks, and accesses waiting for a bank with them. -/
def abandonBench (d : Dev) (i : Nat) : Dev :=
  ([0, 1, 2, 3].foldl (abandonEng i) d).modBench i (fun x => { x with waits := x.waits.filter (fun w => w.master == 4) })

/-- Benches that hold tasks or waits. -/
def abandonAll (d : Dev) : Dev := (tabKeys d.benches).foldl abandonBench d

/-! ## Stopping jigs, stagers and planes -/

/-- Have all tasks of an issued record completed with OK? -/
def recordOk (x : Issued) : Bool := x.benches == 0 && !x.other && x.status == 0 && !x.lost && !x.aborted

/-- The signal that a record sends on completion, if any: target jig (5 another package), counter, amount (R230, R235). -/
def recordSig (r : List Nat) : Option (Nat × Nat × Nat) :=
  if bitAt (wordAt r 0) 6 then some (bits (wordAt r 5) 0 3, bits (wordAt r 5) 3 12, bits (wordAt r 5) 32 32) else none

/-- The signals of a queue's completed records to this package's jigs. -/
def queueSigs (q : Queue) : List (Nat × Nat × Nat) :=
  (q.issued.filter recordOk).filterMap (fun x => (recordSig (q.recs.getD x.recIdx [])).filter (fun s => s.1 != 5))

/-- Every signal of the package's own engines is applied before ABORTED is entered: that of a record whose tasks have all completed (R239). -/
def applyOwn (d : Dev) : Dev := (d.jigs.flatMap (fun g => g.2.queues.flatMap (fun q => queueSigs q.2))).foldl (fun x s => x.signal s.1 s.2.1 s.2.2) d

/-- A completed record whose signal to another package is still to be sent, by JIG_RECORD_COMPLETE. -/
def owesRemote (q : Queue) (x : Issued) : Bool := recordOk x && (recordSig (q.recs.getD x.recIdx [])).any (fun s => s.1 == 5)

/-- What a stop leaves of a queue's issued records: those that owe such a signal, and those whose collective still runs and will signal (R235,
R242). -/
def outlasts (q : Queue) (x : Issued) : Bool := owesRemote q x || (x.other && bits (wordAt (q.recs.getD x.recIdx []) 0) 0 4 == 11)

/-- A queue that a stop or an abort halts: done, unused and HOST_LOST queues keep their state (R236, R242); `stay` says which issued records
remain. -/
def stopQueue (stay : Queue → Issued → Bool) (q : Queue) : Queue :=
  { q with state := if q.state = 0 ∨ q.state = 5 ∨ q.state = 6 then q.state else 7, issued := q.issued.filter (stay q), hoisting := false, hoistedRecs := [] }

def stopJig (stay : Queue → Issued → Bool) (g : Jig) : Jig := { g with queues := tabMap {} g.queues (stopQueue stay) }
def stopJigs (d : Dev) (stay : Queue → Issued → Bool) : Dev := { d with jigs := tabMap {} d.jigs (stopJig stay) }

/-- Ticks from reach to now of every gate abandoned while reached and not open, at least `wd` if its watchdog expired (R250). -/
def gateStall (now wd : Nat) (gs : Tab Gate) : Nat :=
  (gs.map (fun p => match p.2.reach with | some r => if p.2.opened then 0 else max (now - r) (if p.2.watchdog then wd else 0) | none => 0)).sum

/-- A completion word, dropped where its address takes no write: unmapped (R57), or in the placed view (R193). -/
def landWord (d : Dev) (a v : Nat) : Dev :=
  match rangeOf a with
  | .farPlaced _ => d
  | _ => if d.homed a 8 then d.poke64 a v else d

/-- Word 7 of a collective's descriptor that an abort ends: DONE with status 3, or the status it has failed with by itself (R340, R447). -/
def endColl (d : Dev) (o : CollOp) : Dev := d.landWord (o.desc + 56) ((if o.status = 0 then 3 else o.status) + 2 ^ 63)

/-- Reads of a fill that is given up find nobody waiting. -/
def orphanFill (d : Dev) (b : Nat) : Dev :=
  let drop := fun (m : OpenMsg) => if m.issuer = .fill b then { m with issuer := .none } else m
  d.modFab (fun g => { g with flows := tabMap {} g.flows (fun f => { f with msgs := f.msgs.map drop }) })

/-- Word 7 of a stager's running descriptor when its stager stops: aborted, or the status it has ended with by itself (R208, R447). -/
def endRunning (d : Dev) (x : StgDesc) : Dev :=
  d.landWord (x.addr + 56) ((if x.ran ∧ x.status ≠ 0 then x.status else 3) + x.entriesWritten * 2 ^ 32 + 2 ^ 63)

/-- One stager stops: its running descriptor ends aborted, descriptors of jig records behind it go, slots are released but
those held for a repair, FILLING segments are freed (R196, R236, R252). -/
def stopStager (d : Dev) (b : Nat) : Dev :=
  let g := d.stager b
  let d1 := g.filling.foldl freeSeg (d.orphanFill b)
  let d2 := match g.queue.head? with
    | some x => d1.endRunning x
    | none => d1
  let held := tabMap {} (g.slots.filter (fun p => p.2.state == 3)) (fun s => { s with stale := true })
  d2.modStager b (fun x => { x with queue := (g.queue.drop 1).filter (fun x => x.tag.isNone), filling := [], slots := held })

/-- Does a held consumer stay when the stagers stop: a window slot, or a read of the unified range (R225, R252)? -/
def heldStays (d : Dev) (u : HeldUse) : Bool :=
  let g := d.stager u.stager
  g.slots.any (fun p => p.2.state == 3 && decide (u.dest = g.winBase.toNat + (p.1 * g.slotSize.toNat + p.2.done) * 4096))

def dropHeld (d : Dev) (r : Repair) : Repair := { r with held := r.held.filter d.heldStays }

/-- Stagers stop for an abort or a stop (R250, R252). -/
def stopStagers (d : Dev) (now : Nat) : Dev :=
  let d1 := (tabKeys d.stagers).foldl stopStager d
  let d2 := d1.modFar (fun f => { f with repairs := f.repairs.map d1.dropHeld, repairWait := f.repairWait.map d1.dropHeld })
  d2.modStream (fun m => { m with stallTimeCnt := cntAdd m.stallTimeCnt (gateStall now (max 1000 m.watchdogTicks.toNat) m.gates), gates := [] })

/-- A plane stops (R48, R284): an update in COMPUTING is cut short and waits for its re-run; later states go on. -/
def stopPlane (p : Plane) : Plane :=
  let halt := { p with halted := true }
  match p.state, p.cur with
  | .computing, some u => { halt with state := .stopped, cur := none, stopped := p.stopped ++ [(u.idx, u.step)], outq := [] }
  | _, _ => halt

def stopPlanes (d : Dev) : Dev := { d with planes := tabMap {} d.planes stopPlane }

/-- Is an update at work in some plane, of an owner, a twin or a replica? -/
def planesActive (d : Dev) : Bool := d.planes.any (fun p => p.2.active)

/-- Does a stop stop the planes: UPDATE runs, or some plane is at work (R284)? -/
def stopsPlanes (d : Dev) : Dev := if d.life.update || d.planesActive then d.stopPlanes else d

/-- Early signals whose epoch has come are applied, the rest stay held (R238). -/
def earlyJig (epoch : BitVec 16) (rel : Nat) (g : Jig) : Jig :=
  let ctr := (g.early.filter (fun e => e.epoch == epoch)).foldl (fun t e => tabMod 0 t e.ctr (fun v => v + BitVec.ofNat 32 e.add)) g.ctr
  latchJig rel { g with ctr := ctr, early := g.early.filter (fun e => e.epoch != epoch) }
def applyEarly (d : Dev) : Dev := { d with jigs := tabMap {} d.jigs (earlyJig d.life.epoch d.relStep) }

/-- A stager as no program leaves it (R243, Jig and streaming registers). -/
def unloadStager (g : Stager) : Stager :=
  { g with winBase := 0, slotSize := 0, streamBase := 0, entries := 0, lookahead := 0, table := [], slots := [] }

/-- The program is unloaded (R422): what a load set reads 0. -/
def unload (d : Dev) : Dev :=
  let d1 := { d with jigs := tabMap {} d.jigs (fun g => { g with queues := [], restore := [] }), stagers := tabMap {} d.stagers unloadStager }
  (d1.modStream (fun m => { m with cur := 0, gates := [], kerfBase := 0, kerfLen := 0 })).modLife (fun l => { l with loaded := false })

/-- A pending stop is done: IDLE with JIG_STEP at the next step to run (R50, R242, R484), and the program unloaded if that was
asked (R422). -/
def stopDone (d : Dev) : Dev :=
  let go := d.life.stopPending == some true
  let d1 := d.modLife (fun l => { l with state := .idle, stopPending := none, step := BitVec.ofNat 64 (l.nextStep.getD l.step.toNat) })
  if go then unload d1 else d1

/-- The ABORTED transition of R49: engines stop, nothing of the step commits, the epoch advances once (R238). GRAD_SENDs that it ends have not
completed with OK, and whether the backward phase was complete tells the clamp record (R350). -/
def abortStep (d : Dev) (now : Nat) : Dev :=
  let d1 := (((d.abandonAll.applyOwn).stopJigs owesRemote).stopStagers now)
  let d2 := d1.stopsPlanes
  let mine := d2.coll.ops.filter (fun o => o.tag.isSome)
  let d3 := mine.foldl endColl (d2.modColl (fun m => { m with ops := m.ops.filter (fun o => o.tag.isNone), opCnt := cntAdd m.opCnt mine.length, gradBad := mine.foldl (fun a o => a ||| gradBit d.life.step.toNat o) m.gradBad }))
  let d4 := d3.modLife (fun l => { l with state := .aborted, epoch := l.epoch + 1, wasAborted := true, update := false, backDone := l.state == .clamp || (l.state == .backward && backwardDone d) })
  let d5 := if d4.life.stopPending.isSome then d4.stopDone else d4
  d5.applyEarly

/-- Updates that run with no step beside them stop, and a start that waits for re-runs is off (R48). -/
def stopUpdates (d : Dev) : Dev :=
  let d1 := d.stopPlanes
  d1.modLife (fun l => { l with starting := false, update := d1.planesActive })

/-- Is a stop pending that the result of the present step has been received for: no next step runs (R48, R50)? -/
def stopping (l : StepLife) : Bool := l.state == .clamp && l.stopPending.isSome && l.nextStep == some (l.step.toNat + 1)

/-- The containment of a severity-2 raise (R447): with the jig IDLE nothing stops. In CLAMP it aborts the step, its record sent or not, unless no next step runs (R48, R49). -/
def contain (d : Dev) (now : Nat) : Dev :=
  match d.life.state with
  | .forward => d.abortStep now
  | .backward => d.abortStep now
  | .clamp =>
    if stopping d.life then
      let d1 := d.stopPlanes
      if d1.planesActive then d1 else (d1.modLife (fun l => { l with update := false })).stopDone
    else d.abortStep now
  | .idle => d
  | .aborted => if d.life.update || d.planesActive then d.stopUpdates else d

/-! ## The safe state (R460, R461) -/

/-- A home in the safe state: requests in flight are discarded, the directory stays (R460). -/
def safeHome (h : Home) : Home := { h with txns := [], chain := [], overflow := [], ingress := [] }

/-- Entry to the safe state: everything that stops, stops; contents of near memory and the jigs' registers stay. Every Ethernet port begins Local Fault ordered sets (R296). -/
def enterSafe (d : Dev) (now src : Nat) : Dev :=
  let d1 := d.abandonAll.stopPlanes
  let d2 := foldRange 132 { d1 with homes := tabMap {} d1.homes safeHome } (fun i x => if x.benchActive i then x.modBench i (fun b => { b with gated := true }) else x)
  let d3 := d2.modNear (fun n => { n with ctl := tabMap {} n.ctl (fun x => { x with bcLines := [] }) })
  let d4 := d3.modFc (fun c => { c with entering := true, safeValid := true, safeSrc := BitVec.ofNat 9 src, safeTime := BitVec.ofNat 64 now, owedI3c := true })
  (d4.modSilkai (fun m => { m with puwellHalted := true })).emit (.localFault (List.range (64 / max 1 d.fab.cfgWidth.toNat)))

/-- After SILKAI_LOCKSTEP or SILKAI_SRAM_UE, raised with the entry or later, Silkai is held in reset and the mailboxes read NOT_READY (R460). -/
def holdSilkai (d : Dev) : Dev :=
  foldRange 16 (d.modSilkai (fun m => { m with heldReset := true })) (fun k x => x.modMbx k (fun b => { b with st := .notReady }))

end Dev

/-! ## The collector -/

/-- Highest severity among pending sources, `none` with none pending. -/
def Collector.maxPend (fc : Collector) : Option Nat :=
  fc.srcs.foldl (fun a p => if p.2.pending then some (max (a.getD 0) p.2.pendSev.toNat) else a) none

/-- Is some source pending at or above the pin's threshold? -/
def Collector.qualifies (fc : Collector) : Bool := fc.srcs.any (fun p => p.2.pending && decide (fc.threshold.toNat ≤ p.2.pendSev.toNat))

/-- The condition of FLT_N (R431, R455, R456, R459, R460). -/
def Collector.pin (fc : Collector) : Bool :=
  fc.halted || fc.entering || fc.deaf || (if fc.mode = 1 then fc.qualifies else fc.pulse || fc.hold)

/-- The slot of a new log entry: the next in ring order, or the oldest of severity below 3, or none (R451). -/
def Collector.logSlot (fc : Collector) : Option Nat :=
  if fc.log.length < 1024 then ((List.range 1024).map (fun i => (fc.logPtr + i) % 1024)).find? (fun i => (tabFind fc.log i).isNone)
  else (minBy (fun p => p.2.seq.toNat) (fc.log.filter (fun p => p.2.sev != 3))).map Prod.fst

/-- Add an entry to the log. -/
def Collector.addLog (fc : Collector) (e : LogEntry) : Collector :=
  let lost := if fc.log.length < 1024 then fc.lostCnt else cntInc fc.lostCnt
  match fc.logSlot with
  | none => { fc with lostCnt := lost }
  | some i => { fc with log := tabPut fc.log i { e with seq := fc.seq }, seq := fc.seq + 1, logPtr := (i + 1) % 1024, lostCnt := lost }

/-- NOTIFY rises: each path is owed one notification (R446). -/
def Collector.setNotify (fc : Collector) (msix : Bool) : Collector :=
  if fc.notify then fc else { fc with notify := true, owedMsix := msix, owedI3c := true }

/-- One source's raise: `floor` its event floor, `n` how often in this cycle (R444, R445, R448); `quiet` says that a higher raise of the cycle
enters the safe state, whose actions alone are taken (R449). The second part is the effective severity. -/
def Collector.raise1 (fc : Collector) (now : Nat) (life : StepLife) (msix : Bool) (src floor info n : Nat) (quiet : Bool := false) : Collector × Nat :=
  let x := fc.src src
  let eff := max x.sev.toNat floor
  let had := fc.qualifies
  let logged := (!x.pending && (eff != 0 || !x.noLog)) || (x.pending && (decide (2 ≤ eff) || (decide (x.pendSev.toNat < eff) && (eff != 0 || !x.noLog))))
  let x' := { x with pending := true, pendSev := BitVec.ofNat 2 (max x.pendSev.toNat eff), count := cntAdd x.count n }
  let fc1 := { fc.setSrc src x' with raiseCnt := cntAdd fc.raiseCnt n, gddrUe := fc.gddrUe || src == Fs.gddrUe }
  let fc2 := if logged then fc1.addLog
      { time := BitVec.ofNat 64 now, src := BitVec.ofNat 9 src, sev := BitVec.ofNat 2 eff, floor := decide (x.sev.toNat < floor), rep := x.pending,
        epoch := life.epoch, step := BitVec.ofNat 32 life.step.toNat, info := BitVec.ofNat 64 info, seq := 0 } else fc1
  let tell := (eff == 0 && x.notify) || (eff == 1 && !x.noNotify) || eff == 2
  let fc3 := if tell && !fc.entering && !quiet then fc2.setNotify msix else fc2
  let fc4 := if fc.entering then { fc3 with owedI3c := true } else fc3
  ({ fc4 with pulse := fc4.pulse || (fc4.mode == 0 && !had && fc4.qualifies) }, eff)

/-- The raises of one cycle merged by source: source, highest floor, INFO of the first, number of raises (R449). -/
def mergeRaises (rs : List (Nat × Nat × Nat)) : Tab (Nat × Nat × Nat) :=
  rs.foldl (fun t r => match tabFind t r.1 with
    | none => tabPut t r.1 (r.2.1, r.2.2, 1)
    | some v => tabPut t r.1 (max v.1 r.2.1, v.2.1, v.2.2 + 1)) []

/-- Sources raised in one cycle (R444 to R449): source, event floor, INFO. The highest effective severity's action is taken
once: safe state at 3, containment at 2. -/
def raiseOnce (c : Ctl) (d : Dev) (rs : List (Nat × Nat × Nat)) : Dev :=
  if d.fc.deaf then d else
  let msix := (d.cxl 0).role == 1
  let quiet := (mergeRaises rs).any (fun p => max (d.fc.src p.1).sev.toNat p.2.1 == 3)
  let r := (mergeRaises rs).foldl (fun (a : Collector × Nat × Option Nat) p =>
      let q := a.1.raise1 c.now d.life msix p.1 p.2.1 p.2.2.1 p.2.2.2 quiet
      (q.1, max a.2.1 q.2, if a.2.2.isNone && q.2 == 3 then some p.1 else a.2.2)) (d.fc, 0, none)
  let d1 := { d with fc := r.1 }
  let d2 := if d.fc.entering then d1
    else match r.2.2 with
      | some src => d1.enterSafe c.now src
      | none => if r.2.1 = 2 then d1.contain c.now else d1
  if rs.any (fun x => decide (x.1 = Fs.lockstep) || decide (x.1 = Fs.sramUe)) then d2.holdSilkai else d2

/-- An access dropped or refused (R18, R19, R57): INFO holds address, requester port and direction (R452). -/
def dropInfo (addr port : Nat) (write : Bool) : Nat := addr % 2 ^ 48 + port * 2 ^ 48 + (if write then 2 ^ 52 else 0)

/-- INFO of the port sources: port and width after the event (R452). -/
def portInfo (p w : Nat) : Nat := p % 64 + w % 16 * 2 ^ 8

/-- INFO of the sources of a jig: queue, record, status of R414 (R452). -/
def jigInfo (queue record st : Nat) : Nat := queue % 2 ^ 8 + record % 2 ^ 16 * 2 ^ 8 + st % 16 * 2 ^ 24

/-- Status of the task of a record that its engine, stager or collective has ended by its own failure, 0 for none. -/
def ownEndOf (d : Dev) (t : Tag) : Nat :=
  let engs := d.benches.flatMap (fun p => [p.2.dma, p.2.mx, p.2.vec, p.2.row].flatMap (fun e => (e.slots.take 1).filterMap (fun x =>
    if x.tag = t ∧ Dev.ownEnd x ≠ 0 then some (stOfEng (Dev.ownEnd x)) else none)))
  let stgs := d.stagers.flatMap (fun p => (p.2.queue.take 1).filterMap (fun x => if x.tag = some t ∧ x.ran ∧ x.status ≠ 0 then some (stOfStg x.status) else none))
  let ops := d.coll.ops.filterMap (fun o => if o.tag = some t ∧ o.status ≠ 0 then some (stOfColl o.status) else none)
  ((engs ++ stgs ++ ops).head?).getD 0

/-- Collectives that an abort has ended, with a status of their own or as aborted: each raises COLL_OP_FAIL, and a DOVETAIL DOVE_FAIL (R365). -/
def cutColls (d d1 : Dev) : List (Nat × Nat × Nat) :=
  (d.coll.ops.filter (fun o => o.tag.isSome && !d1.coll.ops.any (fun x => x.seq == o.seq))).flatMap (fun o =>
    let info := bits (wordAt o.words 0) 16 16 + o.blame.getD d.fab.node.toNat * 2 ^ 16
    (Fs.collOpFail, 0, info) :: (if bits (wordAt o.words 0) 0 8 = 8 then [(Fs.doveFail, 0, info)] else []))

/-- Records that have failed when containment stops the step: a task of theirs has ended with a status of its own (R236, R447). -/
def ownFails (d : Dev) : List (Nat × Nat × Nat) :=
  d.jigs.flatMap (fun g => g.2.queues.flatMap (fun q => q.2.issued.filterMap (fun x =>
    let st := if x.status ≠ 0 then x.status else ownEndOf d { jig := g.1, queue := q.1, record := x.serial }
    if st = 0 ∨ st = 9 then none else some (Fs.jigTaskFail g.1, 0, jigInfo q.1 x.recIdx st))))

/-- Completion words that stopped descriptors could not write where they lie (R57, R193). -/
def ownDrops (d : Dev) : List (Nat × Nat × Nat) :=
  d.stagers.flatMap (fun p => (p.2.queue.take 1).flatMap (fun x =>
    match rangeOf (x.addr + 56) with
    | .farPlaced n => [(Fs.farWriteRefused n, 0, x.addr + 56)]
    | _ => if d.homed (x.addr + 56) 8 then [] else [(Fs.addrDecode, 0, dropInfo (x.addr + 56) (9 + p.1) true)]))

/-- What a step cut off by an abort raises: `d1` is `d` after the abort. -/
def noteCuts (c : Ctl) (d d1 : Dev) : Dev := (cutColls d d1 ++ ownFails d ++ ownDrops d).foldl (fun x r => raiseOnce c x [r]) d1

/-- An abort that no fault of this package's brings: one carried by the clamp, or a clamp without a result (R49, R356). -/
def abortNow (c : Ctl) (d : Dev) : Dev := noteCuts c d (d.abortStep c.now)

/-- Sources raised in one cycle, and what an abort by their containment raises beside them: JIG_TASK_FAIL of records that failed by themselves,
COLL_OP_FAIL of the collectives it ends (R236, R365, R447). -/
def raiseAll (c : Ctl) (d : Dev) (rs : List (Nat × Nat × Nat)) : Dev :=
  let d1 := raiseOnce c d rs
  if d1.life.state = d.life.state then d1 else noteCuts c d d1

/-- One raise. -/
def raise (c : Ctl) (d : Dev) (src info : Nat) : Dev := raiseAll c d [(src, 0, info)]

/-- A raise with an event floor (R443). -/
def raiseFloor (c : Ctl) (d : Dev) (src floor info : Nat) : Dev := raiseAll c d [(src, floor, info)]

/-- A row becomes a repair candidate (R164). -/
def addCandidate (h k : Nat) (d : Dev) : Dev :=
  if (d.nearCtl h).candidates.contains k || (d.nearCtl h).ppr == some k then d
  else d.modNearCtl h (fun n => { n with candidates := n.candidates ++ [k] })

/-- An uncorrectable read of a stack line counts and latches its address (R153). -/
def latchUe (h line : Nat) (d : Dev) : Dev :=
  d.modNearCtl h (fun n => { n with ueCnt := cntInc n.ueCnt, ueAddr := if n.ueValid then n.ueAddr else BitVec.ofNat 48 (line * 64), ueValid := true })

/-- A demand read of a physical stack line was uncorrectable (R153, R155, R164): the line stays poisoned. -/
def noteUe (c : Ctl) (d : Dev) (line : Nat) : Dev :=
  if !inStack line then d else
  let h := d.stackOf line
  let k := d.rowKey line
  let r := tabGet {} d.near.rows k
  let d1 := { (latchUe h line d) with mem := d.mem.poisonLine line }
  let d2 := d1.modNear (fun n => { n with rows := tabSet {} n.rows k { r with ue := r.ue + 1, first := some (r.first.getD line) } })
  raise c (if 2 ≤ r.ue + 1 then addCandidate h k d2 else d2) (Fs.nearUe h) (line * 64)

/-- The same for a line by its device address; an error recorded ahead of this read is not recorded again. -/
def noteUeLine (c : Ctl) (d : Dev) (line : Nat) : Dev :=
  match d.place (line * 64) with
  | some a => if d.near.badReads.contains (a / 64) then d.modNear (fun n => { n with badReads := n.badReads.filter (fun l => l != a / 64) }) else noteUe c d (a / 64)
  | none => d

/-- A tag that does not match its block: DOWEL_MISMATCH, and the consumer's own count (R159, R452). -/
def dowelFault (c : Ctl) (consumer unit addr : Nat) (d : Dev) : Dev :=
  raise c (d.modNear (fun n => { n with mismatch := tabMod 0 n.mismatch (consumer * 256 + unit) cntInc })) Fs.dowel (addr + consumer * 2 ^ 48 + unit * 2 ^ 56)

/-- The lines of a half that share the set of a line (R177). -/
def bcSetOf (n : NearCtl) (line : Nat) : List Nat := (n.bcLines.map Prod.fst).filter (fun l => Config.bcSet l % 32768 == Config.bcSet line % 32768)

/-- A line is allocated in its bay-cache half (R178). The half has 32,768 sets of 16 ways; the set of a line and the line that leaves a full
set are the part's own (DESIGN CHOICE, log 23). -/
def fillBc (h l : Nat) (d : Dev) : Dev :=
  let n := d.nearCtl h
  let full := bcSetOf n l
  let left := if full.length < 16 then n.bcLines else tabDel n.bcLines (full.getD (Config.choice d.free 16 % 16) 0)
  { d.modNearCtl h (fun m => { m with bcLines := tabPut left l true }) with free := d.free + 1 }

/-- The result of an access performed at the home is allocated in the bay cache, unless it is there (R178, R385). -/
def installBc (d : Dev) (line : Nat) : Dev :=
  match d.place (line * 64) with
  | none => d
  | some a =>
    let n := d.nearCtl (homeOf a)
    if !inStack (a / 64) || !n.bcEn || n.bcInvalidating || (tabFind n.bcLines (a / 64)).isSome then d else fillBc (homeOf a) (a / 64) d

/-- A read of a stack line at the bay cache (R177, R178, R180, R181): hit or miss counted, the line allocated on a miss if the
requester's reads allocate and a fill may be installed. -/
def countBc (alloc : Bool) (d : Dev) (line : Nat) : Dev :=
  match d.place (line * 64) with
  | none => d
  | some a =>
    let l := a / 64
    if !inStack l then d else
    let h := homeOf a
    let n := d.nearCtl h
    if !n.bcEn || n.bcInvalidating then d
    else if (tabFind n.bcLines l).isSome then d.modNearCtl h (fun m => { m with bcHitCnt := cntInc m.bcHitCnt })
    else
      let d1 := d.modNearCtl h (fun m => { m with bcMissCnt := cntInc m.bcMissCnt })
      if alloc then fillBc h l d1 else d1

/-- An engine's read of a line at its bay-cache half and, on a miss, at its controller (R152, R178). -/
def readLine (alloc : Bool) (d : Dev) (line : Nat) : Dev :=
  match d.place (line * 64) with
  | none => d
  | some a => if d.bcHolds line then countBc alloc d line else readServed (a / 64) (queueRead (a / 64) (countBc alloc d line))

/-- Stack errors met by a read of a span are recorded (R153). -/
def notePoison (c : Ctl) (a n : Nat) (d : Dev) : Dev := ((Memory.linesOf a n).filter d.linePoison).foldl (noteUeLine c) d

/-- The bad blocks of FAR pages in a span that have no sources (R220): segment and block. -/
def badFarBlocks (d : Dev) (a n : Nat) : List (Nat × Nat) :=
  if n = 0 ∨ rangeOf a ≠ .unified ∨ !d.far.peers.isEmpty then [] else
  (List.range ((a + n - 1) / 4096 - a / 4096 + 1)).filterMap (fun i =>
    let x := (a / 4096 + i) * 4096
    match tabFind d.far.pages (pageOf x) with
    | some p => if p.res = .far ∨ p.res = .promoting then
        (match d.readBlock p.seg (x % 0x200000 / 4096) with
        | .bad _ => some (p.seg, x % 0x200000 / 4096)
        | _ => none) else none
    | none => none)

/-- INFO of the far-block sources (R452). -/
def farInfo (id j : Nat) : Nat := id % 2 ^ 21 + j * 2 ^ 32

/-- A read that had timed out is over: the next read of the block finds its bytes as stored (R226). -/
def dropTimeout (id j : Nat) (d : Dev) : Dev :=
  let sp := Dev.blockSpan (d.seg id) j
  let ls := Memory.linesOf (Dev.segBase id + sp.1) (max 8 sp.2)
  if d.near.badReads.any ls.contains then d.modNear (fun n => { n with badReads := n.badReads.filter (fun l => !ls.contains l) }) else d

/-- The far block has no source to be repaired from: recorded at severity 2 (R220). A read of it that had timed out is over. -/
def farBlockLost (c : Ctl) (id j : Nat) (d : Dev) : Dev := raiseFloor c (dropTimeout id j d) Fs.farBlockBad 2 (farInfo id j)

/-- A read of the unified range that meets a bad block without sources ends POISONED, and FAR_BLOCK_BAD is recorded at severity 2 (R220). -/
def noteFarBad (c : Ctl) (a n : Nat) (d : Dev) : Dev :=
  (badFarBlocks d a n).foldl (fun x b => farBlockLost c b.1 b.2 x) d

/-- A write of `n` bytes by an engine at an address of its own finding: the placed view takes none but a stager's into a FILLING segment
(R193), an unmapped address none at all (R57). `port` is its requester port (R368). -/
def writeAt (c : Ctl) (port a n : Nat) (f : Dev → Dev) (d : Dev) : Dev :=
  match rangeOf a with
  | .farPlaced m => raise c d (Fs.farWriteRefused m) a
  | _ => if d.homed a n then f d else raise c d Fs.addrDecode (dropInfo a port true)

/-- Bytes that an engine writes at an address of its own finding. -/
def pokeAt (c : Ctl) (port a : Nat) (bs : List Byte) (d : Dev) : Dev := writeAt c port a bs.length (fun x => x.poke a bs) d

/-- A read by an engine: the bytes, and whether any line is poisoned. Stack errors and bad far blocks met on the way are recorded.
`alloc` says whether the reads allocate in the bay caches. -/
def readSpanBy (alloc : Bool) (c : Ctl) (d : Dev) (a n : Nat) : List Byte × Bool × Dev :=
  let bad := (Memory.linesOf a n).filter d.linePoison
  (d.peekBytes a n, !bad.isEmpty, bad.foldl (noteUeLine c) ((Memory.linesOf a n).foldl (readLine alloc) (noteFarBad c a n (d.noteReads a n))))

/-- A read by an engine whose reads do not allocate (R178). -/
def readSpan (c : Ctl) (d : Dev) (a n : Nat) : List Byte × Bool × Dev := readSpanBy false c d a n

/-! ## Tags as consumers read them (R147, R152, R153, R159) -/

/-- The line in which the tag of the block that holds `a` lies, of a block with a near frame. -/
def tagLine (d : Dev) (a : Nat) : Option Nat := (d.place a).map (fun _ => d.tagPlace a / 64)

/-- Does the tag of a block read as poisoned? DESIGN CHOICE (log 164): a tag line that was never written whole, and in which no error has been
found, is sound, so that a tag written alone can be read. -/
def tagPoisoned (d : Dev) (a : Nat) : Bool := (tagLine d a).any (fun l => (tabFind d.mem.lines l).getD false)

/-- The tag of a block is read at its controller; an uncorrectable error in its line is recorded (R152, R153). -/
def readTag (c : Ctl) (d : Dev) (a : Nat) : Dev :=
  match tagLine d a with
  | none => d
  | some l =>
    let d1 := readServed l (queueRead l d)
    if tagPoisoned d a then noteUe c d1 l else d1

/-- Addresses of the blocks of a span. -/
def blocksOf (a n : Nat) : List Nat := (List.range (ceilDiv n 4096)).map (fun i => a + 4096 * i)

/-- Is some tag of a span poisoned, so that its reader ends POISONED? -/
def tagsPoisoned (d : Dev) (a n : Nat) : Bool := (blocksOf a n).any (tagPoisoned d)

/-- The tags of the blocks of a span are read. -/
def readTags (c : Ctl) (a n : Nat) (d : Dev) : Dev := (blocksOf a n).foldl (readTag c) d

end Sys2Proof.Machine
end

