-- ==== Sys2Proof/Machine/FaultEvents.lean ====
section
/-! DEFINITION. The collector's own events and registers with rows: raises, notifications, the sweep, heartbeat, pulse, the
severity and pin registers (12). -/

namespace Sys2Proof.Machine

open Sys2Proof

/-- The event floor of a raise: FAR_BLOCK_BAD alone has one, of 2 (R443, R444). -/
def eventFloor (src floor : Nat) : Nat := if src = Fs.farBlockBad ∧ floor ≠ 0 then 2 else 0

/-- Raises as the collector takes them: source, event floor, INFO. -/
def raisesOf (rs : List (Fin 480 × Nat × W64)) : List (Nat × Nat × Nat) := rs.map (fun r => (r.1.val, eventFloor r.1.val r.2.1, r.2.2.toNat))

/-- A block raises one or several sources in one cycle: source, event floor, INFO (R444 to R449). -/
def devFaultRaise (rs : List (Fin 480 × Nat × W64)) (c : Ctl) (d : Dev) : Dev := raiseAll c d (raisesOf rs)

def execFaultRaise (raises : List (Fin 480 × Nat × W64)) (s : State) : Host.Outcome State Fault Refusal := onDev (devFaultRaise raises) s

/-- Entry to the safe state goes on: every stack is in self-refresh (step 5), and, but for `refreshOnly`, it is complete, SAFE = 1 (step 6, R461). -/
def devSafeComplete (refreshOnly : Bool) (_ : Ctl) (d : Dev) : Dev :=
  if !d.fc.entering then d
  else
    let d1 := d.modNear (fun n => { n with selfRefresh := true })
    if refreshOnly then d1 else d1.modFc (fun f => { f with safe := true })

def execSafeStateComplete (s : State) (refreshOnly : Bool := false) : Host.Outcome State Fault Refusal := onDev (devSafeComplete refreshOnly) s

/-- Can port 0 send an MSI-X message: upstream, up, enabled, not in the safe state (R446, R460)? -/
def Dev.msixPath (d : Dev) : Bool :=
  (d.cxl 0).role == 1 && (d.host.st == .up || d.host.st == .retraining) && d.silkai.msixEn && !d.fc.entering

/-- Send a vector, or set its pending bit while it is masked (R402, R446). -/
def Dev.sendMsix (d : Dev) (v : Nat) : Dev :=
  if !d.msixPath then d
  else if bitAt d.silkai.msixMask.toNat v then d.modSilkai (fun m => { m with msixPba := BitVec.ofNat 17 (setBit m.msixPba.toNat v true) })
  else d.emit (.msix v)

/-- An owed notification on path 0 MSI-X or 1 I3C (R446). -/
def devDeliver (path : Nat) (_ : Ctl) (d : Dev) : Dev :=
  if path = 0 then
    if d.fc.owedMsix && d.fc.notify && d.msixPath then (d.modFc (fun f => { f with owedMsix := false })).sendMsix 16 else d
  else if d.fc.owedI3c && (d.fc.notify || d.fc.entering) then (d.modFc (fun f => { f with owedI3c := false })).emit .ibi else d

def execNotificationDeliver (path : Fin 2) (s : State) : Host.Outcome State Fault Refusal := onDev (devDeliver path.val) s

/-- A self-check failure (R459): recorded in FC_SELF_STATUS, safe state at once, nothing recorded any more. -/
def selfFail (kind : Bool) (off : BitVec 20) (c : Ctl) (d : Dev) : Dev :=
  let d1 := if d.fc.entering then d.modFc (fun f => { f with safeSrc := 0x1FF, safeValid := true }) else d.enterSafe c.now 0x1FF
  d1.modFc (fun f => { f with selfErr := true, selfKind := BitVec.ofNat 1 (b2n kind), selfOff := off, deaf := true })

/-- The sweep of every 100 µs: log words corrected, and a failing word if there is one (R459). -/
def devSweep (ces : Nat) (failure : Option (Bool × BitVec 20)) (c : Ctl) (d : Dev) : Dev :=
  let d1 := d.modFc (fun f => { f with logCeCnt := cntAdd f.logCeCnt ces })
  match failure with
  | none => d1
  | some x => if d.fc.deaf then d1 else selfFail x.1 x.2 c d1

def execCollectorSweep (logCe : List (Fin 1024)) (failure : Option (Bool × BitVec 20)) (s : State) : Host.Outcome State Fault Refusal :=
  onDev (devSweep logCe.length failure) s

/-- 10 ms without a heartbeat: static mode, FALLBACK, SILKAI_HEARTBEAT_LOST; on a tie the write wins (R458). -/
def devHeartbeatExpiry (tie : Bool) (c : Ctl) (d : Dev) : Dev :=
  if tie then d.modFc (fun f => { f with fresh := true, tieCnt := cntInc f.tieCnt })
  else if !d.fc.fresh then d
  else raise c (d.modFc (fun f => { f with fresh := false, mode := 1, pulse := false, fallback := true })) Fs.heartbeatLost 0

def execSilkaiHeartbeatExpiry (tie : Bool) (s : State) : Host.Outcome State Fault Refusal := onDev (devHeartbeatExpiry tie) s

/-- The pulse timer ends; a start in the same cycle restarts it (R455). -/
def devPulseEnd (tie : Bool) (_ : Ctl) (d : Dev) : Dev :=
  if !d.fc.pulse then d
  else if tie then d.modFc (fun f => { f with tieCnt := cntInc f.tieCnt })
  else d.modFc (fun f => { f with pulse := false })

def execFltNPulseEnd (tie : Bool) (s : State) : Host.Outcome State Fault Refusal := onDev (devPulseEnd tie) s

/-! ## Registers with rows -/

/-- A write dropped under R18 or R19: recorded with address, requester port, direction. -/
def dropWrite (addr port : Nat) (c : Ctl) (d : Dev) : Dev := raise c d Fs.csrDrop (dropInfo addr port true)

/-- A read that R19 answers with zero: recorded likewise. -/
def dropRead (addr port : Nat) (c : Ctl) (d : Dev) : Dev := raise c d Fs.csrDrop (dropInfo addr port false)

/-- Does an access of a requester reach the register blocks: Silkai's, and a Puwell core's that the tables permit (R64, R66, R436)? -/
def reachesCsr (c : Ctl) (port ty a n : Nat) : Bool := port == 15 || (decide (port < 8) && ptPermits c .puwell ty a n)

/-- A register write by a row of its own, at its address: one that does not reach the block is dropped and recorded (R57, R66). -/
def guardCsr (port a n : Nat) (f : Ctl → Dev → Dev) (c : Ctl) (d : Dev) : Dev :=
  if !arrives d port then d else if reachesCsr c port 2 a n then f c d else dropWrite a port c d

/-- Requesters that may write the collector: Silkai and the Puwell cores (R450). -/
def fcWriter (port : Nat) : Bool := decide (port < 8) || port == 15

/-- FC_HEARTBEAT: Silkai's write restarts the 10 ms; any other is dropped (R458). -/
def devHeartbeat (port : Nat) (tie : Bool) (c : Ctl) (d : Dev) : Dev :=
  if port = 15 then d.modFc (fun f => { f with fresh := true, tieCnt := cntIf tie f.tieCnt })
  else dropWrite 0x3F0001000018 port c d

def execFcHeartbeatWrite (port : Fin 16) (tie : Bool) (s : State) : Host.Outcome State Fault Refusal := onDev (guardCsr port.val 0x3F0001000018 4 (devHeartbeat port.val tie)) s

/-- The change of mode a write makes (R457, R458): a return to pulse mode needs no fallback or a fresh heartbeat. -/
def setPinMode (pulseMode : Bool) (f : Collector) : Collector :=
  if pulseMode then
    if !f.fallback || f.fresh then { f with mode := 0, fallback := false } else { f with refusedCnt := cntInc f.refusedCnt }
  else { f with mode := 1, pulse := false }

/-- FC_PIN_CFG (R450, R457, R458). DESIGN CHOICE (log 169): up to the end of boot stage 4, where the collector runs in static mode with THRESHOLD 2, a
write changes nothing. -/
def devPinCfg (port : Nat) (v : Nat) (c : Ctl) (d : Dev) : Dev :=
  if !fcWriter port then dropWrite 0x3F0001000010 port c d
  else if port ≠ 15 ∧ c.cfg.faultCfgLock then d.modFc (fun f => { f with refusedCnt := cntInc f.refusedCnt })
  else if c.boot.stage.toNat < 5 then d
  else d.modFc (fun f => setPinMode (!bitAt v 2) { f with threshold := BitVec.ofNat 2 (bits v 0 2), pulseMinUs := BitVec.ofNat 14 (bits v 16 14) })

def execFcPinCfgWrite (port : Fin 16) (value : W32) (s : State) : Host.Outcome State Fault Refusal := onDev (guardCsr port.val 0x3F0001000010 4 (devPinCfg port.val value.toNat)) s

/-- Writing 1 to PENDING clears PENDING, PEND_SEV and COUNT (R448). -/
def clearPending (x : Src) : Src := { x with pending := false, pendSev := 0, count := 0 }

/-- FC_SEVERITY[n]: severity and action bits unless refused, PENDING cleared by a 1 (R448, R450). -/
def writeSeverity (lockedOut : Bool) (n v : Nat) (f : Collector) : Collector :=
  let x := f.src n
  let no := lockedOut || x.lock
  let noSev := no || (sevFixed n && decide (bits v 0 2 < 3))
  let x1 := if noSev then x else { x with sev := BitVec.ofNat 2 (bits v 0 2) }
  let x2 := if no then x1 else { x1 with noLog := bitAt v 4, notify := bitAt v 5, noNotify := bitAt v 6 }
  let x3 := if bitAt v 8 then clearPending x2 else x2
  { f.setSrc n x3 with refusedCnt := cntIf noSev f.refusedCnt }

def devSeverity (port n v : Nat) (c : Ctl) (d : Dev) : Dev :=
  if !fcWriter port then dropWrite (0x3F0001001000 + 4 * n) port c d
  else d.modFc (writeSeverity (port != 15 && c.cfg.faultCfgLock) n v)

/-- The same with sources raised in the cycle of the write: a clear takes effect before the raises, and they see the severity and the action
bits as they stood before the write (R444, R449). -/
def devSeverityRaised (port n v : Nat) (rs : List (Nat × Nat × Nat)) (c : Ctl) (d : Dev) : Dev :=
  let a := 0x3F0001001000 + 4 * n
  if !arrives d port then raiseAll c d rs else if !(reachesCsr c port 2 a 4 && fcWriter port) then raiseAll c d ((Fs.csrDrop, 0, dropInfo a port true) :: rs)
  else
    let d1 := if bitAt v 8 then d.modFc (fun f => f.setSrc n (clearPending (f.src n))) else d
    (raiseAll c d1 rs).modFc (writeSeverity (port != 15 && c.cfg.faultCfgLock) n (setBit v 8 false))

def execFcSeverityWrite (port : Fin 16) (source : Fin 480) (value : W32) (s : State) (raised : List (Fin 480 × Nat × W64) := []) :
    Host.Outcome State Fault Refusal :=
  if raised.isEmpty then onDev (guardCsr port.val (0x3F0001001000 + 4 * source.val) 4 (devSeverity port.val source.val value.toNat)) s
  else onDev (devSeverityRaised port.val source.val value.toNat (raisesOf raised)) s

/-! ## Protection registers (R16, R18, R438) -/

/-- Run a register write of the protection block in the control part. -/
def ptWrite (ok : Bool) (addr port : Nat) (f : Ctl → Ctl) (c : Ctl) (d : Dev) : Ctl × Dev :=
  if !c.live || !arrives d port then (c, d) else if ok then (f c, d) else (c, dropWrite addr port c d)

/-- PT_LOCK is set by a write of 1; only a cold reset clears it (R16, R18). -/
def execPtLockSet (port : Fin 16) (s : State) : Host.Outcome State Fault Refusal :=
  onAll (fun c d => ptWrite (reachesCsr c port.val 2 0x3F0001200800 4) 0x3F0001200800 port.val (fun c => { c with ptLock := true }) c d) s

/-- A word of an entry. -/
def ptWord (e : PtEntry) (high : Bool) : W64 := if high then e.hi else e.lo

/-- Address of a word of entry `k`, class × 32 + index (R436). -/
def ptAddr (k : Nat) (high : Bool) : Nat := 0x3F0001201000 + k * 16 + (if high then 8 else 0)

/-- The bits of a word of a protection entry that are not reserved (R14, R436): VALID to ATOM and BASE; LAST. -/
def ptMask (high : Bool) (v : W64) : W64 := v &&& (if high then 0x0000FFFFFFFFF000 else 0x0000FFFFFFFFF00F)

/-- PT_ENTRY[c][i]: Silkai while unlocked; any other write is dropped and recorded (R438, R18). -/
def setPt (k : Nat) (high : Bool) (v : W64) (c : Ctl) : Ctl :=
  { c with pt := tabMod {} c.pt k (fun e => if high then { e with hi := ptMask high v } else { e with lo := ptMask high v }) }

def execPtEntryWrite (port : Fin 16) (cls : Fin 4) (index : Fin 32) (high : Bool) (value : W64) (s : State) : Host.Outcome State Fault Refusal :=
  onAll (fun c d => ptWrite (port.val == 15 && !c.ptLock) (ptAddr (cls.val * 32 + index.val) high) port.val
    (setPt (cls.val * 32 + index.val) high value) c d) s

end Sys2Proof.Machine
end

