-- ==== Sys2Proof/Machine/Bench.lean ====
section
/-! DEFINITION. Benches (02, 03): scratchpad ownership and accesses, and the tasks of the matrix, vector and row engines. -/

namespace Sys2Proof.Machine

open Sys2Proof

/-! ## Banks and ownership (R107 to R119) -/

/-- Address of a register of a bench's block (R64). -/
def benchAddr (i off : Nat) : Nat := 0x3F0100000000 + i * 0x10000 + off

/-- A register write of a requester to a bench: the block of a bench not in use is under R19 (R65). -/
def onBench (port i off : Nat) (f : Bench → Bench) (c : Ctl) (d : Dev) : Dev :=
  if d.benchActive i then d.modBench i f else dropWrite (benchAddr i off) port c d

/-- The same by a row of its own, from a requester whose access must reach the block (R66, R436). -/
def benchRow (port i off : Nat) (f : Bench → Bench) : Ctl → Dev → Dev := guardCsr port (benchAddr i off) 4 (onBench port i off f)

/-- Banks a write to bank `i` sets: the pair while it is paired (R110). -/
def withPair (b : Bench) (i : Nat) : List Nat := if bitAt b.paired.toNat (i / 2) then [i / 2 * 2, i / 2 * 2 + 1] else [i]

/-- Owners named, handovers begun (R117). -/
def giveBanks (m : Nat) (b : Bench) (banks : List Nat) : Bench :=
  banks.foldl (fun x i => { x with owner := tabSet 0 x.owner i m, handover := BitVec.ofNat 16 (setBit x.handover.toNat i true) }) b

/-- A write to SPAD_OWNER or SPAD_OWNER_SET (R110, R118): banks selected, owner, COND, EXPECT. -/
def writeOwner (banks : List Nat) (m : Nat) (cond : Bool) (expect : Nat) (b : Bench) : Bench :=
  let ok := m != 5 && m != 6 && (!cond || banks.all (fun i => tabGet 0 b.owner (if bitAt b.paired.toNat (i / 2) then i / 2 * 2 else i) == expect))
  if ok then giveBanks m b (banks.flatMap (withPair b)) else { b with handoverFailCnt := cntInc b.handoverFailCnt }

/-- Would the write take effect (R118)? -/
def ownerWriteOk (banks : List Nat) (m : Nat) (cond : Bool) (expect : Nat) (b : Bench) : Bool :=
  m != 5 && m != 6 && (!cond || banks.all (fun i => tabGet 0 b.owner (if bitAt b.paired.toNat (i / 2) then i / 2 * 2 else i) == expect))

def execSpadOwnerWrite (bench : Fin 132) (bank : Fin 16) (value : W32) (s : State) (port : Fin 16 := 15) : Host.Outcome State Fault Refusal :=
  onWork (benchRow port.val bench.val (4 * bank.val) (writeOwner [bank.val] (bits value.toNat 0 3) (bitAt value.toNat 3) (bits value.toNat 4 3))) s

/-- The effect of a value written to SPAD_OWNER_SET. -/
def writeOwnerSet (v : Nat) (b : Bench) : Bench := writeOwner (setBitsOf v 16) (bits v 16 3) (bitAt v 19) (bits v 20 3) b

def execSpadOwnerSetWrite (bench : Fin 132) (value : W32) (s : State) (port : Fin 16 := 15) : Host.Outcome State Fault Refusal :=
  onWork (benchRow port.val bench.val 0x40 (writeOwnerSet value.toNat)) s

/-- One bit of a write to SPAD_PAIR (R109): both banks NONE and settled; the contents of the pair become undefined. -/
def writePairBit (free v k : Nat) (b : Bench) : Bench :=
  if bitAt v k = bitAt b.paired.toNat k then b
  else if (tabGet 0 b.owner (2 * k) == 7) && (tabGet 0 b.owner (2 * k + 1) == 7) && bits b.handover.toNat (2 * k) 2 == 0 then
    { b with paired := BitVec.ofNat 8 (setBit b.paired.toNat k (bitAt v k)), spad := Dev.undefSpan (free + k) b.spad (k * 0x40000, 0x40000),
             dbl := b.dbl.filter (fun p => p.1 / 0x8000 != k) }
  else { b with handoverFailCnt := cntInc b.handoverFailCnt }

def devSpadPair (port i v : Nat) (c : Ctl) (d : Dev) : Dev := onBench port i 0x44 (fun b => foldRange 8 b (writePairBit d.free v)) c { d with free := d.free + 8 }

def execSpadPairWrite (bench : Fin 132) (value : W32) (s : State) (port : Fin 16 := 15) : Host.Outcome State Fault Refusal :=
  onWork (guardCsr port.val (benchAddr bench.val 0x44) 4 (devSpadPair port.val bench.val value.toNat)) s

/-- A write to SPAD_STAT_OWNER: DMA, ROW or NONE only (R117, R118). -/
def writeStatOwner (v : Nat) (b : Bench) : Bench :=
  let m := bits v 0 3
  if (m == 0 || m == 3 || m == 7) && (!bitAt v 3 || b.statOwner.toNat == bits v 4 3) then { b with statOwner := BitVec.ofNat 3 m, statHandover := true }
  else { b with handoverFailCnt := cntInc b.handoverFailCnt }

def execSpadStatOwnerWrite (bench : Fin 132) (value : W32) (s : State) (port : Fin 16 := 15) : Host.Outcome State Fault Refusal :=
  onWork (benchRow port.val bench.val 0x48 (writeStatOwner value.toNat)) s

/-- Four bench clocks after the newest write the handover ends (R117). 16 is the stat store. -/
def endHandover (i : Nat) (b : Bench) : Bench :=
  if i = 16 then { b with statHandover := false }
  else { b with handover := BitVec.ofNat 16 ((withPair b i).foldl (fun h k => setBit h k false) b.handover.toNat) }

def execSpadHandoverEnd (bench : Fin 132) (bank : Fin 17) (s : State) : Host.Outcome State Fault Refusal :=
  onWork (fun _ d => d.modBench bench.val (endHandover bank.val)) s

/-! ## Accesses (R112, R114, R115) -/

/-- BENCH_ERR of a bench: cause, scratchpad offset or record, master (R452). -/
def benchErr (c : Ctl) (d : Dev) (i cause off m : Nat) : Dev := raise c d (Fs.benchErr i) (cause + off * 16 + m * 2 ^ 25)

def modSlot (d : Dev) (i m k : Nat) (f : Task → Task) : Dev := d.modBench i (fun b => setEng b m { engOf b m with slots := modAt f (engOf b m).slots k })

/-- The matrix engine has drained every tile before the one that meets an uncorrectable word, where its banks allow (R87). -/
def mxUpTo (i m : Nat) (d : Dev) : Dev :=
  match m, (d.bench i).mx.slots with
  | 1, t :: _ => if t.issued && !t.ran then d.modBench i (fun b => withMx (mxGo (mxRand d.opt.seed t) (mxDescOf t.words) (mxMoves (mxDescOf t.words)) b t)) else d
  | _, _ => d

/-- Words of a span of the scratchpad are marked as uncorrectable. -/
def markWords (off n : Nat) (t : Tab Bool) : Tab Bool := (List.range (if n = 0 then 0 else (off + n - 1) / 8 - off / 8 + 1)).foldl (fun t k => tabPut t (off / 8 + k) true) t

/-- Will the DMA's running descriptor meet the word at an offset by itself: is it in the descriptor, or in the span of a STORE, which
still writes every line (R112, R126)? -/
def dmaMeets (b : Bench) (o : Nat) : Bool :=
  match b.dma.slots with
  | t :: _ => !t.ran && (overlaps t.off 64 (o / 8 * 8) 8 || (let x := dmaDescOf (spadWords b.spad t.off)
      x.kind == 1 && overlaps (dmaSpadSpan x).1 (dmaSpadSpan x).2 (o / 8 * 8) 8))
  | [] => false

/-- An accepted access: `ecc` 0 sound, 1 corrected, 2 uncorrectable, on a read (R112); a write with `ecc` 2 writes poisoned data (R126). -/
def doAccess (i m : Nat) (write : Bool) (off len port : Nat) (bs : List Byte) (ecc : Nat) (c : Ctl) (d : Dev) : Dev :=
  if len = 0 then d
  else if write then d.modBench i (fun b => { b with spad := spadWrite b.spad off (bs.take len), dbl := (if ecc = 2 then markWords off (min len bs.length) else id) (clearDbl b.dbl off (min len bs.length)) })
  else
    let b := d.bench i
    let bad := decide (ecc = 2) || (badWord b [(off, len)]).isSome
    let d1 := d.emit (.bytes port (0x3F8000000000 + i * 0x200000 + off) (spadRead b.spad off len) bad)
    if bad then
      let o := (badWord b [(off, len)]).getD (off / 8 * 8)
      let d2 := mxUpTo i m (d1.modBench i (fun b => { b with dbl := tabPut b.dbl (o / 8) true }))
      if m = 0 ∧ dmaMeets b o then d2 else
      benchErr c (if m < 4 then modSlot d2 i m 0 (fun t => { t with res := resPoisoned, ran := true, issued := true }) else d2) i 0 o m
    else if ecc = 1 then raise c (d1.modBench i (fun b => { b with eccCeCnt := cntInc b.eccCeCnt })) (Fs.benchCe (i / 33)) 0
    else d1

/-- One access of at most 128 bytes lies within one aligned 128-byte unit (R107). -/
def oneUnit (off len : Nat) : Bool := decide (0 < len) && decide (len ≤ 128) && decide (off / 128 = (off + len - 1) / 128) && decide (off + len ≤ 0x200000)

/-- Has an engine of a bench a free descriptor slot (R83, R120)? -/
def engFree (d : Dev) (i m : Nat) : Bool := decide ((engOf (d.bench i) m).slots.length < 2)

/-- The master code of an engine kind: MX, VEC, ROW, DMA (R113, R231). -/
def kindEng (kind : Nat) : Nat := match kind with | 1 => 1 | 2 => 2 | 3 => 3 | _ => 0

/-- Logical benches that a queue's issuable head names. -/
def headBenches (d : Dev) (j : Nat) (q : Queue) : List Nat :=
  match q.recs[q.head]? with
  | some r =>
    let named := setBitsOf (bits (wordAt r 0) 16 32) 32
    let k := bits (wordAt r 0) 0 4
    if q.state == 1#4 && q.reached && (k == 0 || decide (4 < k) || (named.filterMap (d.physBench j)).all (fun i => engFree d i (kindEng k))) then named else []
  | none => []

def wantedBenches (d : Dev) (j : Nat) : Nat := maskOf ((d.jig j).queues.flatMap (fun p => headBenches d j p.2))

/-- The idle benches of a bay that no issuable record names clock-gate. -/
def gateBay (d : Dev) (b : Nat) : Dev :=
  let want := wantedBenches d b
  (d.activeOf b).zipIdx.foldl (fun x p => if idleBench (x.bench p.1) && !bitAt want p.2 then x.modBench p.1 (fun y => { y with gated := true }) else x) d

/-- While a gate is reached and not open, a bench that has no running or pending task and no issuable record clock-gates (R250): asked
when a gate is reached, when a task ends or is dropped, when a queue's head moves or its queue stops, and when the stream moves on. -/
def gateIdle (d : Dev) : Dev := if d.stream.gates.any (fun g => g.2.reach.isSome && !g.2.opened) then (List.range 4).foldl gateBay d else d

/-- The engine's task ends as for an abort: the others follow it (R87, R115). -/
def logicalOf (d : Dev) (i : Nat) : Nat := (d.activeOf (i / 33)).idxOf i

def dropTask (i m k : Nat) (d : Dev) : Dev :=
  match (engOf (d.bench i) m).slots[k]? with
  | none => d
  | some t =>
    let d1 := if k = 0 then d.abandonTask i m t |>.countRan i m t else d
    gateIdle ((d1.modBench i (fun b => leaveSlot m k (setEng b m { engOf b m with slots := (engOf b m).slots.eraseIdx k, last := 3 }))).noteTask t.tag (some (logicalOf d i)) 0xE)

/-- The task of another bench's DMA ends with a status once its accesses are in; one of them is over. -/
def dmaFails (b st : Nat) (d : Dev) : Dev :=
  let fail := fun (t : Task) => { t with hostWrites := t.hostWrites - 1, res := if t.res = 0 then st else t.res }
  d.modBench b (fun y => { y with dma := { y.dma with slots := modAt fail y.dma.slots 0 } })

/-- An access of another bench's DMA is performed: a write is acknowledged, a read's bytes go to its task (R123). -/
def doDmaAccess (i : Nat) (w : WaitAcc) (b dest : Nat) (c : Ctl) (d : Dev) : Dev :=
  if w.write then (doAccess i 4 true w.off w.len w.port w.data w.ecc c d).arriveTask b 0 []
  else match badWord (d.bench i) [(w.off, w.len)] with
    | some o => dmaFails b resPoisoned (benchErr c d i 0 o 4)
    | none => d.arriveTask b dest (spadRead (d.bench i).spad w.off w.len)

/-- A waiting or accepted access is performed. -/
def performWait (i : Nat) (w : WaitAcc) (c : Ctl) (d : Dev) : Dev :=
  match w.dma with
  | some p => doDmaAccess i w p.1 p.2 c d
  | none => doAccess i w.master w.write w.off w.len w.port w.data w.ecc c d

/-- What an abandoned access leaves: a DMA's is never acknowledged, so its descriptor ends with POISONED (DEDUCED). -/
def loseExt (i : Nat) (w : WaitAcc) (d : Dev) : Dev :=
  match w.dma with
  | some p => dmaFails p.1 resPoisoned d
  | none => if w.write then d else { d.emit (.bytes w.port (0x3F8000000000 + i * 0x200000 + w.off) (Dev.undefBytes d.free w.len) true) with free := d.free + 1 }

/-- An access that has waited the limit is abandoned (R115). -/
def abandonWait (i m : Nat) (w : WaitAcc) (held : Nat) (c : Ctl) (d : Dev) : Dev :=
  let d1 := d.modBench i (fun b => { b with waits := b.waits.erase w, waitCnt := tabMod 0 b.waitCnt m (fun v => cntAdd v (b.waitLimit.toNat - held)) })
  let d2 := if m < 4 then dropTask i m w.slot d1 else loseExt i w d1
  benchErr c d2 i 2 w.off m

/-- An access that must wait joins the waits; with a limit of zero it is abandoned at the end of its first clock (R114, R115). -/
def joinWaits (i : Nat) (w : WaitAcc) (c : Ctl) (d : Dev) : Dev :=
  let d1 := d.modBench i (fun b => { b with waits := b.waits ++ [w] })
  if (d.bench i).waitLimit = 0 then
    abandonWait i w.master w 0 c (d1.modBench i (fun b => { b with waitCnt := tabMod 0 b.waitCnt w.master cntInc }))
  else d1

/-- Does a master's access to an offset go at once: the bank is its own, and none of its own accesses waits for it (R114)? -/
def goesNow (b : Bench) (m off : Nat) : Bool := bankReady b m (bankOfOff b off)

/-- A master's access: performed if the bank is its own, else it waits behind the master's other waits (R114). -/
def accessBank (i m : Nat) (write : Bool) (off len port : Nat) (bs : List Byte) (ecc : Nat) (c : Ctl) (d : Dev) : Dev :=
  if goesNow (d.bench i) m off then doAccess i m write off len port bs ecc c d
  else joinWaits i { master := m, write := write, off := off, len := len, data := bs, port := port, ecc := ecc } c d

def devSpadAccess (i m : Nat) (write : Bool) (off : Nat) (bs : List Byte) (len ecc : Nat) (c : Ctl) (d : Dev) : Dev :=
  if !d.benchActive i || !oneUnit off len then d else accessBank i m write off len (9 + i / 33) bs (if write then 0 else ecc) c d

def execSpadAccess (bench : Fin 132) (master : Fin 5) (write : Bool) (off : BitVec 21) (data : List Byte) (len : Nat) (ecc : Fin 3) (s : State) :
    Host.Outcome State Fault Refusal := onWork (devSpadAccess bench.val master.val write off.toNat data len ecc.val) s

/-- Is the place a waiting access wants its master's now? -/
def waitOver (b : Bench) (w : WaitAcc) : Bool := if w.stat then ownsStat b w.master else ownsBank b w.master (bankOfOff b w.off)

/-- A waiting access leaves the waits and is performed. -/
def takeWait (i : Nat) (w : WaitAcc) (clocks : Nat) (c : Ctl) (d : Dev) : Dev :=
  performWait i w c
    (d.modBench i (fun b => { b with waits := b.waits.erase w, waitCnt := tabMod 0 b.waitCnt w.master (fun v => cntAdd v clocks) }))

/-- The first clock after the bank became the master's: its access is accepted. `clocks` are the clocks up to now in which the master had
an access waiting and that SPAD_WAIT_CNT does not hold yet: where waits of one master overlap, a clock counts once (R114). -/
def devSpadAccept (i m clocks : Nat) (c : Ctl) (d : Dev) : Dev :=
  match (d.bench i).waits.find? (fun w => w.master == m && waitOver (d.bench i) w) with
  | some w => takeWait i w clocks c d
  | none => d

def execSpadAccessAccept (bench : Fin 132) (master : Fin 5) (clocks : Nat) (s : State) : Host.Outcome State Fault Refusal :=
  onWork (devSpadAccept bench.val master.val clocks) s

/-- The wait limit of a master's oldest access expires; if the bank comes in the same cycle, the access is accepted (R115). `held` of
its clocks are in SPAD_WAIT_CNT already (R114). -/
def devSpadLimit (i m : Nat) (tie : Bool) (held : Nat) (c : Ctl) (d : Dev) : Dev :=
  match (d.bench i).waits.find? (fun w => w.master == m) with
  | none => d
  | some w =>
    if tie then takeWait i w ((d.bench i).waitLimit.toNat - held) c (d.modBench i (fun b => { b with tieCnt := cntInc b.tieCnt })) else abandonWait i m w held c d

def execSpadWaitLimitExpiry (bench : Fin 132) (master : Fin 5) (tie : Bool) (s : State) (held : Nat := 0) : Host.Outcome State Fault Refusal :=
  onWork (devSpadLimit bench.val master.val tie held) s

/-- Class of a requester port at the tables for CSR space (R66, R436). DESIGN CHOICE (log 121): a bay port, 9 to 12, is taken as its bench
DMA there, since a stager does not use a scratchpad window. -/
def csrAsker (port : Nat) : Asker := if port < 8 then .puwell else if port = 8 then .hostCls else if port < 13 then .bench else .silkai

/-- An access through a scratchpad window (R64, R65, R66): as master EXT; a wrong size, alignment or bench, and what the tables
refuse, under R19 (R57). -/
def devSpadWindow (port i : Nat) (write : Bool) (off : Nat) (bs : List Byte) (len : Nat) (c : Ctl) (d : Dev) : Dev :=
  let a := 0x3F8000000000 + i * 0x200000 + off
  if !arrives d port then d
  else if port = 8 ∨ !ptPermits c (csrAsker port) (if write then 2 else 1) a (max len 1) ∨ !d.benchActive i ∨ !oneUnit off len then
    raise c (if write then d else d.emit (.bytes port a (List.replicate len 0) false)) Fs.csrDrop (dropInfo a port write)
  else accessBank i 4 write off len port bs 0 c d

def execSpadWindowAccess (port : Fin 16) (bench : Fin 132) (write : Bool) (off : BitVec 21) (data : List Byte) (len : Nat) (s : State) :
    Host.Outcome State Fault Refusal := onWork (devSpadWindow port.val bench.val write off.toNat data len) s

/-! ## Tasks -/

/-- An access of task `k` of an engine at an offset, or to the stat store, that it may not make now: it waits behind the engine's own waits
for that place, with one wait for one place (R114, R135). -/
def awaitSlot (i m k : Nat) (stat : Bool) (off : Nat) (c : Ctl) (d : Dev) : Dev :=
  let w : WaitAcc := { master := m, stat := stat, write := false, off := off, len := 0, data := [], slot := k }
  if waitsFor (d.bench i) m (waitPlace (d.bench i) w) then d else joinWaits i w c d

/-- The same of the running task. -/
def awaitAt (i m : Nat) (stat : Bool) (off : Nat) (c : Ctl) (d : Dev) : Dev := awaitSlot i m 0 stat off c d

/-- The stream context of a descriptor, a region where SR is set (R478). -/
def ctxSpan (sr : Bool) (off : Nat) : List Span := if sr then [(off + 64, 8)] else []

/-- The random word of an element for a task (R79, R477, R478). -/
def taskRand (d : Dev) (i : Nat) (t : Task) (stream : Nat) : Nat → Nat :=
  srWord d.opt.seed.toNat t.step t.mb stream (leNat (spadRead (d.bench i).spad (t.off + 64) 8))

/-- A descriptor as its engine fetches it: the offset at which it waits, an uncorrectable word, or its words. -/
inductive Fetch where
  | waits (off : Nat)
  | bad (off : Nat)
  | words (ws : List Nat)
  deriving DecidableEq, Repr

def fetchDesc (b : Bench) (m off : Nat) : Fetch :=
  match missingAt b m [(off, 64)], badWord b [(off, 64)] with
  | some k, _ => .waits k
  | none, some o => .bad o
  | none, none => .words (spadWords b.spad off)

/-- A task completes: the engine counts it, the jig is told (R134, R235). -/
def endTask (i m st : Nat) (d : Dev) : Dev :=
  match (engOf (d.bench i) m).slots with
  | [] => d
  | t :: _ =>
    gateIdle ((d.modBench i (fun b => leaveSlot m 0 (setEng b m { engOf b m with slots := (engOf b m).slots.drop 1, last := BitVec.ofNat 4 st, taskCnt := cntInc (engOf b m).taskCnt }))).noteTask
      t.tag (some (logicalOf d i)) (stOfEng st))

/-- The running task's descriptor holds an uncorrectable word: it ends with POISONED (R112). -/
def endBad (i m o : Nat) (c : Ctl) (d : Dev) : Dev :=
  endTask i m resPoisoned (benchErr c (modSlot d i m 0 (fun x => { x with ran := true, res := resPoisoned })) i 0 o m)

/-- Non-finite outputs of a run (R139). -/
def noteNonfin (m n : Nat) (b : Bench) : Bench :=
  let e := engOf b m
  setEng b m { e with nonfinite := e.nonfinite || decide (0 < n), nonfinCnt := cntAdd e.nonfinCnt n }

/-- An event of an engine of bench `i`: a clock-gated bench runs nothing (R250, R513). -/
def onEngine (i : Nat) (f : Ctl → Dev → Dev) (s : State) : Host.Outcome State Fault Refusal :=
  onWork (fun c d => if (d.bench i).gated then d else f c d) s

/-! ### The matrix engine (R86, R87, R95, R103) -/

/-- The first task that has not been checked is fetched and checked; its stream context is read with the descriptor (R83, R86,
R478). -/
def devMxIssue (i : Nat) (c : Ctl) (d : Dev) : Dev :=
  match (d.bench i).mx.slots.zipIdx.find? (fun p => !p.1.issued) with
  | none => d
  | some (t, k) =>
    match fetchDesc (d.bench i) 1 t.off with
    | .waits o => awaitSlot i 1 k false o c d
    | .bad o => benchErr c (modSlot d i 1 k (fun x => { x with issued := true, ran := true, res := resPoisoned })) i 0 o 1
    | .words ws =>
      match mxCheck (mxDescOf ws) (ctxSpan (mxDescOf ws).sr t.off) with
      | some st => modSlot d i 1 k (fun x => { x with issued := true, ran := true, words := ws, res := st })
      | none =>
        match missingAt (d.bench i) 1 (ctxSpan (mxDescOf ws).sr t.off), badWord (d.bench i) (ctxSpan (mxDescOf ws).sr t.off) with
        | some o, _ => awaitSlot i 1 k false o c d
        | none, some o => benchErr c (modSlot d i 1 k (fun x => { x with issued := true, ran := true, words := ws, res := resPoisoned })) i 0 o 1
        | none, none => modSlot d i 1 k (fun x => { x with issued := true, words := ws, ctx := if (mxDescOf ws).sr then leNat (spadRead (d.bench i).spad (t.off + 64) 8) else 0 })

def execMxTaskIssue (bench : Fin 132) (s : State) : Host.Outcome State Fault Refusal := onEngine bench.val (devMxIssue bench.val) s

/-- Does the drain of the running task's next tile find its partial tiles (R95)? -/
def partialsIn (d : Dev) (i : Nat) (t : Task) : Bool :=
  let x := mxDescOf t.words
  decide ((t.tile + 1) * x.nPart ≤ (tabGet 0 (d.jig (i / 33)).ctr x.partCtr).toNat)

def devMxRelease (i : Nat) (_ : Ctl) (d : Dev) : Dev :=
  match (d.bench i).mx.slots with
  | t :: _ =>
    if t.issued && !t.ran && decide (t.tile < mxTiles (mxDescOf t.words)) && partialsIn d i t then
      modSlot d i 1 0 (fun x => { x with tile := x.tile + 1 })
    else d
  | [] => d

def execMxPartialWaitRelease (bench : Fin 132) (s : State) : Host.Outcome State Fault Refusal := onEngine bench.val (devMxRelease bench.val) s

/-- The running task has met an uncorrectable word: POISONED (R87, R112). -/
def mxPoisoned (i o : Nat) (c : Ctl) (d : Dev) : Dev := benchErr c (modSlot d i 1 0 (fun y => { y with ran := true, res := resPoisoned })) i 0 o 1

/-- The running task's end after its clocks (R103), where its streams can go that far: the array and the drain move on, each while its
banks are the engine's (R84). A task whose last tile is drained ends with OK; one that meets an uncorrectable word with POISONED (R87);
else its streams wait. -/
def devMxComplete (i clocks : Nat) (c : Ctl) (d : Dev) : Dev :=
  match (d.bench i).mx.slots with
  | [] => d
  | t :: _ =>
    let x := mxDescOf t.words
    let busy := fun (y : Dev) => y.modBench i (fun b => { b with mx := { b.mx with busyClk := cntAdd b.mx.busyClk clocks } })
    if !t.issued then d
    else if t.ran then endTask i 1 t.res (busy d)
    else
      let r := mxGo (mxRand d.opt.seed t) x (mxMoves x) (d.bench i) t
      let d1 := d.modBench i (fun _ => withMx r)
      if mxTiles x ≤ r.2.drain then endTask i 1 resOk ((busy d1).modBench i (fun b => { b with mx := { b.mx with usefulClk := cntAdd b.mx.usefulClk (mxUseful x) } }))
      else match mxBadAt r.1 x r.2 with
        | some o => endTask i 1 resPoisoned (busy (mxPoisoned i o c d1))
        | none =>
          let d2 := (mxWaits r.1 x r.2).foldl (fun y o => awaitAt i 1 false o c y) (d1.modBench i mxAhead)
          (mxAheadWaits (d2.bench i)).foldl (fun y o => awaitSlot i 1 1 false o c y) d2

def execMxTaskComplete (bench : Fin 132) (clocks : Nat) (s : State) : Host.Outcome State Fault Refusal := onEngine bench.val (devMxComplete bench.val clocks) s

/-! ### The vector engine (R128 to R134) -/

/-- A task whose reads met an uncorrectable word: POISONED, its written regions undefined (R112, R134). -/
def poisonTask (i m : Nat) (ws : List Nat) (cause off : Nat) (c : Ctl) (d : Dev) : Dev :=
  let d1 := modSlot d i m 0 (fun x => { x with issued := true, ran := true, words := ws, res := resPoisoned })
  let t : Task := { off := 0, tag := { jig := 0, queue := 0, record := 0 }, words := ws }
  benchErr c { (d1.modBench i (Dev.undefTask d1.free m t)) with free := d1.free + 1 } i cause off m

/-- Where a vector task must wait: for its mask and indices, then for what these name (R114, R131). -/
def vecMissing (b : Bench) (x : VecDesc) (ctx : List Span) : Option Nat :=
  (missingAt b 2 (vecMaskBytes x ++ vecIndexSpans x)).or (missingAt b 2 (vecReadBytes (spadRd b.spad) x ++ vecWritten (spadRd b.spad) x ++ ctx))

/-- An uncorrectable word that a vector task reads (R112). -/
def vecBad (b : Bench) (x : VecDesc) (ctx : List Span) : Option Nat :=
  (badWord b (vecMaskBytes x ++ vecIndexSpans x)).or (badWord b (vecReadBytes (spadRd b.spad) x ++ ctx))

/-- The run of a vector task whose checks pass. -/
def vecPerform (i : Nat) (t : Task) (ws : List Nat) (c : Ctl) (d : Dev) : Dev :=
  let x := vecDescOf ws
  let b := d.bench i
  match vecMissing b x (ctxSpan x.sr t.off), vecBad b x (ctxSpan x.sr t.off) with
  | some o, _ => awaitAt i 2 false o c d
  | none, some o => poisonTask i 2 ws 0 o c d
  | none, none =>
    let r := vecRun b.spad x d.free (taskRand d i t x.streamId)
    let d1 := d.modBench i (fun y => noteNonfin 2 r.2 { y with spad := r.1, dbl := soundWords (vecWritten (spadRd b.spad) x) y.dbl })
    { (modSlot d1 i 2 0 (fun y => { y with issued := true, ran := true, words := ws, res := resOk })) with free := d1.free + 1 }

/-- What the checks of a vector task come to: a status, nothing, a word of its indices that is uncorrectable, or the offset at which the
reading of its indices waits (R132). -/
inductive VecCheck where
  | ends (st : Nat)
  | passes
  | bad (off : Nat)
  | waits (off : Nat)
  deriving DecidableEq, Repr

/-- Check 6 reads the indices as the engine's accesses: they wait for their bank, and an uncorrectable word ends the task (R112, R114,
R132). -/
def vecChecks (b : Bench) (x : VecDesc) (ctx : List Span) : VecCheck :=
  match vecCheckShape x ctx, missingAt b 2 (vecIndexSpans x), badWord b (vecIndexSpans x), vecCheckList (spadRd b.spad) x with
  | some st, _, _, _ => .ends st
  | none, some o, _, _ => .waits o
  | none, none, some o, _ => .bad o
  | none, none, none, some st => .ends st
  | none, none, none, none => .passes

/-- The row of an operation: the head task, if it names the operation and its checks pass, runs. -/
def devVec (op i : Nat) (c : Ctl) (d : Dev) : Dev :=
  match (d.bench i).vec.slots with
  | [] => d
  | t :: _ =>
    if t.ran then d else
    match fetchDesc (d.bench i) 2 t.off with
    | .waits o => awaitAt i 2 false o c d
    | .bad _ => d
    | .words ws =>
      if (vecDescOf ws).op ≠ op then d
      else match vecChecks (d.bench i) (vecDescOf ws) (ctxSpan (vecDescOf ws).sr t.off) with
        | .passes => vecPerform i t ws c d
        | .waits o => awaitAt i 2 false o c d
        | _ => d

/-- The head task completes: as it ran, or as its checks end it (R132, R134). -/
def devVecComplete (i : Nat) (c : Ctl) (d : Dev) : Dev :=
  match (d.bench i).vec.slots with
  | [] => d
  | t :: _ =>
    if t.ran then endTask i 2 t.res d else
    match fetchDesc (d.bench i) 2 t.off with
    | .waits o => awaitAt i 2 false o c d
    | .bad o => endBad i 2 o c d
    | .words ws =>
      match vecChecks (d.bench i) (vecDescOf ws) (ctxSpan (vecDescOf ws).sr t.off) with
      | .ends st => endTask i 2 st d
      | .bad o => endBad i 2 o c d
      | .waits o => awaitAt i 2 false o c d
      | .passes => d

def execCopy (bench : Fin 132) (s : State) : Host.Outcome State Fault Refusal := onEngine bench.val (devVec 0 bench.val) s
def execFill (bench : Fin 132) (s : State) : Host.Outcome State Fault Refusal := onEngine bench.val (devVec 1 bench.val) s
def execBcast (bench : Fin 132) (s : State) : Host.Outcome State Fault Refusal := onEngine bench.val (devVec 2 bench.val) s
def execAdd (bench : Fin 132) (s : State) : Host.Outcome State Fault Refusal := onEngine bench.val (devVec 3 bench.val) s
def execSub (bench : Fin 132) (s : State) : Host.Outcome State Fault Refusal := onEngine bench.val (devVec 4 bench.val) s
def execMul (bench : Fin 132) (s : State) : Host.Outcome State Fault Refusal := onEngine bench.val (devVec 5 bench.val) s
def execFma (bench : Fin 132) (s : State) : Host.Outcome State Fault Refusal := onEngine bench.val (devVec 6 bench.val) s
def execMin (bench : Fin 132) (s : State) : Host.Outcome State Fault Refusal := onEngine bench.val (devVec 7 bench.val) s
def execMax (bench : Fin 132) (s : State) : Host.Outcome State Fault Refusal := onEngine bench.val (devVec 8 bench.val) s
def execAbs (bench : Fin 132) (s : State) : Host.Outcome State Fault Refusal := onEngine bench.val (devVec 9 bench.val) s
def execNeg (bench : Fin 132) (s : State) : Host.Outcome State Fault Refusal := onEngine bench.val (devVec 10 bench.val) s
def execColAdd (bench : Fin 132) (s : State) : Host.Outcome State Fault Refusal := onEngine bench.val (devVec 11 bench.val) s
def execRowMul (bench : Fin 132) (s : State) : Host.Outcome State Fault Refusal := onEngine bench.val (devVec 12 bench.val) s
def execCmpGt (bench : Fin 132) (s : State) : Host.Outcome State Fault Refusal := onEngine bench.val (devVec 13 bench.val) s
def execSelect (bench : Fin 132) (s : State) : Host.Outcome State Fault Refusal := onEngine bench.val (devVec 14 bench.val) s
def execDiv (bench : Fin 132) (s : State) : Host.Outcome State Fault Refusal := onEngine bench.val (devVec 15 bench.val) s
def execRecip (bench : Fin 132) (s : State) : Host.Outcome State Fault Refusal := onEngine bench.val (devVec 16 bench.val) s
def execSqrt (bench : Fin 132) (s : State) : Host.Outcome State Fault Refusal := onEngine bench.val (devVec 17 bench.val) s
def execRsqrt (bench : Fin 132) (s : State) : Host.Outcome State Fault Refusal := onEngine bench.val (devVec 18 bench.val) s
def execLog (bench : Fin 132) (s : State) : Host.Outcome State Fault Refusal := onEngine bench.val (devVec 19 bench.val) s
def execFunc (bench : Fin 132) (s : State) : Host.Outcome State Fault Refusal := onEngine bench.val (devVec 20 bench.val) s
def execDfunc (bench : Fin 132) (s : State) : Host.Outcome State Fault Refusal := onEngine bench.val (devVec 21 bench.val) s
def execRowSum (bench : Fin 132) (s : State) : Host.Outcome State Fault Refusal := onEngine bench.val (devVec 22 bench.val) s
def execRowMax (bench : Fin 132) (s : State) : Host.Outcome State Fault Refusal := onEngine bench.val (devVec 23 bench.val) s
def execRowTopk (bench : Fin 132) (s : State) : Host.Outcome State Fault Refusal := onEngine bench.val (devVec 24 bench.val) s
def execCompress (bench : Fin 132) (s : State) : Host.Outcome State Fault Refusal := onEngine bench.val (devVec 25 bench.val) s
def execExpand (bench : Fin 132) (s : State) : Host.Outcome State Fault Refusal := onEngine bench.val (devVec 26 bench.val) s
def execGather (bench : Fin 132) (s : State) : Host.Outcome State Fault Refusal := onEngine bench.val (devVec 27 bench.val) s

def execVecTaskComplete (bench : Fin 132) (s : State) : Host.Outcome State Fault Refusal := onEngine bench.val (devVecComplete bench.val) s

/-! ### The row engine (R137 to R141) -/

/-- The error code finds an error in a record that a task reads: `true` uncorrectable, marked; `false` corrected and counted (R112). -/
def statEcc (i : Nat) (e : Option (Fin 8192 × Bool)) (c : Ctl) (d : Dev) : Dev :=
  match e with
  | none => d
  | some (k, true) => d.modBench i (fun b => { b with statDbl := tabPut b.statDbl k.val true })
  | some (_, false) => raise c (d.modBench i (fun b => { b with eccCeCnt := cntInc b.eccCeCnt })) (Fs.benchCe (i / 33)) 0

/-- The error met is in a record that the task reads; else it is none of this task's. -/
def ownEcc (first n : Nat) (e : Option (Fin 8192 × Bool)) : Option (Fin 8192 × Bool) := e.filter (fun p => decide (first ≤ p.1.val) && decide (p.1.val < first + n))

/-- A record of the stat store with an uncorrectable error that the task reads (R112). -/
def badRecord (b : Bench) (first n : Nat) : Option Nat := (b.statDbl.find? (fun p => decide (first ≤ p.1) && decide (p.1 < first + n))).map Prod.fst

/-- The run of a row task whose accesses are its own: an uncorrectable word or record ends it with POISONED. -/
def rowGo (i : Nat) (t : Task) (ws : List Nat) (c : Ctl) (d : Dev) : Dev :=
  let x := rowDescOf ws
  let b := d.bench i
  match badWord b (rowReadBytes x ++ ctxSpan x.sr t.off), (if rowReadsRecord x then badRecord b x.statBase x.rows else none) with
  | some o, _ => poisonTask i 3 ws 0 o c d
  | none, some k => poisonTask i 3 ws 1 k c d
  | none, none =>
    let r := rowRun b.spad b.stat x (taskRand d i t x.streamId)
    let dbl := if x.op < 3 then b.statDbl.filter (fun p => !(decide (x.statBase ≤ p.1) && decide (p.1 < x.statBase + x.rows))) else b.statDbl
    let d1 := d.modBench i (fun y => noteNonfin 3 r.2.2 { y with spad := r.1, dbl := soundWords (rowWritten x) y.dbl, stat := r.2.1, statDbl := dbl })
    modSlot d1 i 3 0 (fun y => { y with issued := true, ran := true, words := ws, res := resOk })

/-- The run of a row task whose checks pass: it waits for the stat store if it accesses it, and for its banks (R114, R135). `e` is the
error that the code finds in a record it reads. -/
def rowPerform (i : Nat) (t : Task) (ws : List Nat) (e : Option (Fin 8192 × Bool)) (c : Ctl) (d : Dev) : Dev :=
  let x := rowDescOf ws
  if rowUsesStore x && !statReady (d.bench i) 3 then awaitAt i 3 true x.statBase c d else
  match missingAt (d.bench i) 3 (rowReadBytes x ++ rowWritten x ++ ctxSpan x.sr t.off) with
  | some o => awaitAt i 3 false o c d
  | none => rowGo i t ws c (if rowReadsRecord x then statEcc i (ownEcc x.statBase x.rows e) c d else d)

/-- A row of the row engine: the head task, if it names the operation and its checks pass, runs. -/
def devRow (op i : Nat) (e : Option (Fin 8192 × Bool)) (c : Ctl) (d : Dev) : Dev :=
  match (d.bench i).row.slots with
  | [] => d
  | t :: _ =>
    if t.ran then d else
    match fetchDesc (d.bench i) 3 t.off with
    | .waits o => awaitAt i 3 false o c d
    | .bad _ => d
    | .words ws => if (rowDescOf ws).op = op ∧ (rowCheck (rowDescOf ws) (ctxSpan (rowDescOf ws).sr t.off)).isNone then
        rowPerform i t ws e c d
      else d

def devRowComplete (i : Nat) (c : Ctl) (d : Dev) : Dev :=
  match (d.bench i).row.slots with
  | [] => d
  | t :: _ =>
    if t.ran then endTask i 3 t.res d else
    match fetchDesc (d.bench i) 3 t.off with
    | .waits o => awaitAt i 3 false o c d
    | .bad o => endBad i 3 o c d
    | .words ws =>
      match rowCheck (rowDescOf ws) (ctxSpan (rowDescOf ws).sr t.off) with
      | some st => endTask i 3 st d
      | none => d

def execLnFwd (bench : Fin 132) (s : State) : Host.Outcome State Fault Refusal := onEngine bench.val (devRow 0 bench.val none) s
def execRmsFwd (bench : Fin 132) (s : State) : Host.Outcome State Fault Refusal := onEngine bench.val (devRow 1 bench.val none) s
def execSmFin (bench : Fin 132) (s : State) : Host.Outcome State Fault Refusal := onEngine bench.val (devRow 2 bench.val none) s
def execLnBwd (bench : Fin 132) (s : State) (ecc : Option (Fin 8192 × Bool) := none) : Host.Outcome State Fault Refusal := onEngine bench.val (devRow 3 bench.val ecc) s
def execRmsBwd (bench : Fin 132) (s : State) (ecc : Option (Fin 8192 × Bool) := none) : Host.Outcome State Fault Refusal := onEngine bench.val (devRow 4 bench.val ecc) s
def execSmBwd (bench : Fin 132) (s : State) (ecc : Option (Fin 8192 × Bool) := none) : Host.Outcome State Fault Refusal := onEngine bench.val (devRow 5 bench.val ecc) s

def execRowTaskComplete (bench : Fin 132) (s : State) : Host.Outcome State Fault Refusal := onEngine bench.val (devRowComplete bench.val) s

end Sys2Proof.Machine
end

