-- ==== Sys2Proof/Machine/PowerClock.lean ====
section
/-! DEFINITION. Power, clocks, thermal limits and JTAG (14): the meanings of their events. -/

namespace Sys2Proof.Machine

open Sys2Proof

/-! ## Divisions (R508) -/

/-- The next slower division, the next faster one. -/
def slower (x : Nat) : Nat := if x = 5 then 6 else if x = 6 then 8 else 10
def faster (x : Nat) : Nat := if x = 10 then 8 else if x = 8 then 6 else 5

/-- The division of a bay: the slowest of the demands (R508). -/
def demand (p : Power) (b : BayPower) : Nat := max (max b.limitDiv b.thermDiv) (if p.brake then 10 else p.brakeDiv)

/-- Every bay takes the slowest of its demands. -/
def Dev.redivide (d : Dev) : Dev :=
  foldRange 4 d (fun b x => x.modBay b (fun y => { y with div := demand x.pwr y }))

/-- PWRBRK_N asserts the brake (R515). -/
def devBrake (c : Ctl) (d : Dev) : Dev :=
  if d.pwr.brake then d else
  raise c ((d.modPwr (fun p => { p with brake := true, brakeDiv := 10, brakeCnt := cntInc p.brakeCnt })).redivide) Fs.pwrBrake 0

def execPwrbrkNAssert (s : State) : Host.Outcome State Fault Refusal :=
  onAll (fun c d => ({ c with pins := { c.pins with pwrbrkN := false } }, if c.live then devBrake c d else d)) s

/-- The brake ends after 100 µs of PWRBRK_N high (R515); the divisions then recover step by step. -/
def execBrakeEnd (s : State) : Host.Outcome State Fault Refusal :=
  onAll (fun c d => ({ c with pins := { c.pins with pwrbrkN := true } }, if c.live then d.modPwr (fun p => { p with brake := false }) else d)) s

/-- Every 10 µs after the brake, one step faster for every bay (R515). -/
def devBrakeStep (_ : Ctl) (d : Dev) : Dev :=
  if d.pwr.brake then d else (d.modPwr (fun p => { p with brakeDiv := faster p.brakeDiv })).redivide

def execBrakeRecoveryStep (s : State) : Host.Outcome State Fault Refusal := onDev devBrakeStep s

/-! ## Regulators (R498, R499) -/

/-- A regulator's STATUS_WORD shows a fault (R499): INFO holds its PMBus address. -/
def devRegStatus (rail : Nat) (fault : Bool) (c : Ctl) (d : Dev) : Dev :=
  if fault then raise c d Fs.pwrRegFault (0x40 + rail) else d

def execPmbAlertNFall (rail : Fin 10) (fault : Bool) (s : State) : Host.Outcome State Fault Refusal :=
  onDev (devRegStatus rail.val fault) s

/-- The 2 ms poll: voltage and current of a regulator that answers, 0 for one that does not (R498, R499). -/
def devPoll (rail : Nat) (reading : Option (Nat × Nat)) (fault : Bool) (c : Ctl) (d : Dev) : Dev :=
  devRegStatus rail (fault && reading.isSome) c (d.modPwr (fun p => { p with regs := tabSet (0, 0) p.regs rail (reading.getD (0, 0)) }))

def execPmbusPoll (rail : Fin 10) (reading : Option (Nat × Nat)) (fault : Bool) (s : State) : Host.Outcome State Fault Refusal :=
  onDev (devPoll rail.val reading fault) s

/-! ## Clock monitors (R506, R507) -/

def execRefclkLoss (s : State) : Host.Outcome State Fault Refusal :=
  onAll (fun c d => ({ c with clk := { c.clk with refclkOk := false } }, if c.live then raise c d Fs.refclkLoss 0 else d)) s

def execPllUnlock (s : State) : Host.Outcome State Fault Refusal :=
  onAll (fun c d => ({ c with clk := { c.clk with pllLock := false } }, if c.live then raise c d Fs.pllUnlock 0 else d)) s

/-- Every Ethernet port goes down; a port that has run keeps its width for the retraining (R506). -/
def Dev.portsDown (d : Dev) : Dev := d.modFab (fun f => { f with ports := tabMap {} f.ports (fun p => { p with up := false }) })

def execEthRefclkLoss (s : State) : Host.Outcome State Fault Refusal :=
  onAll (fun c d => ({ c with clk := { c.clk with ethRefclkOk := false } }, if c.live then raise c d.portsDown Fs.ethRefclkLoss 0 else d)) s

/-- ETH_REFCLK returns: ports that had come up retrain at their widths before the loss (R506). -/
def Dev.portsRetrain (d : Dev) : Dev :=
  d.modFab (fun f => { f with ports := tabMap {} f.ports (fun p => if decide (0 < p.width) && !p.dead && !p.up then { p with retraining := true } else p) })

def execEthRefclkReturn (s : State) : Host.Outcome State Fault Refusal :=
  onAll (fun c d => ({ c with clk := { c.clk with ethRefclkOk := true } }, if c.live && !c.clk.ethRefclkOk then d.portsRetrain else d)) s

/-- Once the entry to the safe state is complete, the always-on oscillator takes over (R507). -/
def execOscSwitchover (s : State) : Host.Outcome State Fault Refusal :=
  onAll (fun c d => (if (c.clk.refclkOk && c.clk.pllLock) || !d.fc.safe then c else { c with clk := { c.clk with onOsc := true } }, d)) s

/-! ## Temperatures (R149, R516, R517) -/

/-- A temperature reading of unit `u` (0 carcass, 1 to 4 bays, 5 to 12 stacks), in 1/16 °C, against its levels in °C (R516). -/
def devTemp (u : Nat) (temp : BitVec 16) (warn crit : Int) (c : Ctl) (d : Dev) : Dev :=
  let t := signed 16 temp.toNat
  let w := bitAt d.pwr.warm.toNat u
  let k := bitAt d.pwr.crit.toNat u
  let w' := if decide (warn * 16 ≤ t) then true else if decide (t ≤ (warn - 3) * 16) then false else w
  let k' := decide (crit * 16 ≤ t)
  let d1 := d.modPwr (fun p => { p with temps := setAt p.temps u temp, warm := BitVec.ofNat 13 (setBit p.warm.toNat u w'), crit := BitVec.ofNat 13 (setBit p.crit.toNat u k') })
  raiseAll c d1 ((if w' && !w then [(Fs.thermWarn u, 0, temp.toNat)] else []) ++ (if k' && !k then [(Fs.thermCrit u, 0, temp.toNat)] else []))

/-- The voltages that a rail passes on its way from `v` to `w`, at most 5 mV a step (R498). -/
def voltSteps (w : Nat) : Nat → Nat → List Nat
  | 0, _ => []
  | n + 1, v => if v = w then [] else let x := if v < w then min w (v + 5) else max w (v - 5)
    x :: voltSteps w n x

/-- The power controller moves a rail to compensate temperature, by at most 5 mV per 10 µs and so ten steps from one reading to the next, within
the range of R497; how far is its own choice (R498; DESIGN CHOICE, log 147). -/
def compensate (u : Nat) (d : Dev) : Dev :=
  let rail := if u = 0 then 4 else u - 1
  if d.pwr.vout.isEmpty then d else
  let v := d.pwr.vout.getD rail 0
  let lo := if rail = 4 then 750 else 700
  let w := min (lo + 100) (max lo (v + Config.choice d.free 101 % 101 - 50))
  if w = v then { d with free := d.free + 1 }
  else { (voltSteps w 10 v).foldl (fun x y => x.emit (.vout rail y)) (d.modPwr (fun p => { p with vout := setAt p.vout rail w })) with free := d.free + 1 }

def execDieSensorRead (die : Fin 5) (temp : BitVec 16) (s : State) : Host.Outcome State Fault Refusal :=
  onDev (fun c d => devTemp die.val temp 100 110 c (compensate die.val d)) s

/-- THERMTRIP_N stays low until PWR_OK falls (R517). -/
def execThermtripAssert (s : State) : Host.Outcome State Fault Refusal :=
  onAll (fun c d => (if c.pins.pwrOk then { c with pins := { c.pins with thermtrip := true } } else c, d)) s

/-- The controller's reading of a stack: refresh rate (R149), then the thermal levels (R516). -/
def devHbmTemp (h : Nat) (temp : BitVec 16) (c : Ctl) (d : Dev) : Dev :=
  let t := signed 16 temp.toNat
  let was := (d.nearCtl h).refresh2x
  let now := if decide (85 * 16 ≤ t) then true else if decide (t ≤ 83 * 16) then false else was
  let d1 := d.modNearCtl h (fun n => { n with refresh2x := now, temp := BitVec.ofNat 8 (t / 16).toNat })
  let d2 := if now && !was then raise c d1 (Fs.nearTempHigh h) (h * 64) else d1
  devTemp (5 + h) temp 92 100 c d2

def execHbmTempRead (stack : Fin 8) (temp : BitVec 16) (s : State) : Host.Outcome State Fault Refusal :=
  onClocked (devHbmTemp stack.val temp) s

/-- Units that hold a bay: itself, its stacks, the carcass. -/
def bayUnits (b : Nat) : List Nat := [0, 1 + b, 5 + 2 * b, 6 + 2 * b]

/-- Is a unit of a bay at or above its warning level (R516)? -/
def bayHot (p : Power) (b : Nat) : Bool := (bayUnits b).any (fun u => decide ((if u < 5 then 100 else 92) * 16 ≤ signed 16 (p.temps.getD u 0).toNat))

/-- Has a unit of a bay not left the warning condition, 3 °C below that level (R516)? -/
def bayWarm (p : Power) (b : Nat) : Bool :=
  (bayUnits b).any (fun u => bitAt p.warm.toNat u)

/-- One bay at the thermal loop's 1 ms tick: slower at or above the warning level, faster once the warning condition is left (R516). -/
def thermBay (b : Nat) (d : Dev) : Dev :=
  let y := d.bay b
  if bayHot d.pwr b then
    if y.div = 10 then d.modPwr (fun p => { p with coolMs := setAt p.coolMs b 0 })
    else (d.modBay b (fun z => { z with thermDiv := slower y.div })).modPwr (fun p => { p with coolMs := setAt p.coolMs b 0, throttleCnt := cntInc p.throttleCnt })
  else if bayWarm d.pwr b || y.thermDiv = 5 then d.modPwr (fun p => { p with coolMs := setAt p.coolMs b 0 })
  else if 10 ≤ d.pwr.coolMs.getD b 0 + 1 then
    (d.modBay b (fun z => { z with thermDiv := faster z.thermDiv })).modPwr (fun p => { p with coolMs := setAt p.coolMs b 0 })
  else d.modPwr (fun p => { p with coolMs := setAt p.coolMs b (p.coolMs.getD b 0 + 1) })

def devThermalTick (_ : Ctl) (d : Dev) : Dev := (foldRange 4 d thermBay).redivide

def execThermalLoopTick (s : State) : Host.Outcome State Fault Refusal := onDev devThermalTick s

/-! ## The power limit (R509) -/

/-- The bay the limit loop slows: highest power, lowest number, not at ÷10. -/
def limitSlow (d : Dev) (ps : List Nat) : Option Nat :=
  ((List.range 4).filter (fun b => (d.bay b).div != 10)).foldl (fun a b =>
    match a with
    | none => some b
    | some x => if ps.getD x 0 < ps.getD b 0 then some b else some x) none

/-- The bay the limit loop quickens: the slowest it holds, lowest number. -/
def limitFast (d : Dev) : Option Nat :=
  ((List.range 4).filter (fun b => (d.bay b).limitDiv != 5)).foldl (fun a b =>
    match a with
    | none => some b
    | some x => if (d.bay x).limitDiv < (d.bay b).limitDiv then some b else some x) none

/-- The limit loop's 1 ms evaluation (R509). -/
def devPowerEval (mw : W32) (ps : List Nat) (c : Ctl) (d : Dev) : Dev :=
  let lim := d.pwr.limit.toNat * 1000
  let d0 := d.modPwr (fun p => { p with inputMw := mw })
  if lim < mw.toNat then
    let d1 := d0.modPwr (fun p => { p with belowMs := 0 })
    match limitSlow d1 ps with
    | none => d1.modPwr (fun p => { p with limitMiss := true })
    | some b =>
      let first := (List.range 4).all (fun x => (d1.bay x).limitDiv == 5)
      let d2 := ((d1.modBay b (fun y => { y with limitDiv := slower y.div })).modPwr (fun p => { p with throttleCnt := cntInc p.throttleCnt })).redivide
      if first then raise c d2 Fs.pwrThrottle 0 else d2
  else if mw.toNat * 100 < lim * 95 then
    if 10 ≤ d0.pwr.belowMs + 1 then
      let d1 := d0.modPwr (fun p => { p with belowMs := 0 })
      match limitFast d1 with
      | none => d1
      | some b => (d1.modBay b (fun y => { y with limitDiv := faster y.limitDiv })).redivide
    else d0.modPwr (fun p => { p with belowMs := p.belowMs + 1 })
  else d0.modPwr (fun p => { p with belowMs := 0 })

def execPowerLimitEval (mw : W32) (p0 p1 p2 p3 : Nat) (s : State) : Host.Outcome State Fault Refusal :=
  onDev (devPowerEval mw [p0, p1, p2, p3]) s

/-! ## Wakes (R511 to R514) -/

/-- The share of a wake by the bay's division, in 0.01 A/µs (R511). -/
def wakeShare (div : Nat) : Nat := if div = 5 then 375 else if div = 6 then 313 else if div = 8 then 235 else 188

/-- A clock-gated bench asks to wake. -/
def devWakeRequest (i : Nat) (c : Ctl) (d : Dev) : Dev :=
  if (d.bench i).gated && !((d.bay (i / 33)).queue.any (fun q => q.1 == i)) then
    d.modBay (i / 33) (fun y => { y with queue := y.queue ++ [(i, c.now)] })
  else d

def execWakeRequest (bench : Fin 132) (s : State) : Host.Outcome State Fault Refusal := onWork (devWakeRequest bench.val) s

/-- May a share be reserved now: budget, and the bay's admission window (R513)? -/
def wakeAdmits (now budget b share : Nat) (held : List Wake) : Bool :=
  let sum := (held.map Wake.share).sum
  (decide (sum + share ≤ budget) || (decide (budget < share) && held.isEmpty)) && decide (now / 25 % 4 = b)

/-- The oldest wake request of a bay is admitted (R513, R514). -/
def devWakeAdmit (b : Nat) (c : Ctl) (d : Dev) : Dev :=
  let y := d.bay b
  match y.queue with
  | [] => d
  | (i, t) :: rest =>
    let sh := wakeShare y.div
    if wakeAdmits c.now d.pwr.budget.toNat b sh y.reserved then
      let d1 := d.modBay b (fun z => { z with queue := rest, reserved := z.reserved ++ [{ bench := i, share := sh }] })
      let d2 := d1.modBench i (fun x => { x with gated := false, rate := 1 })
      d2.modPwr (fun p => { p with wakeCnt := cntInc p.wakeCnt, waitCnt := cntIf (decide (t < c.now)) p.waitCnt })
    else d

def execWakeAdmit (bay : Fin 4) (s : State) : Host.Outcome State Fault Refusal := onWork (devWakeAdmit bay.val) s

/-- A reservation, the oldest of its bench, ends 2 µs after its admission. -/
def devWakeRelease (i : Nat) (_ : Ctl) (d : Dev) : Dev :=
  d.modBay (i / 33) (fun y => { y with reserved := y.reserved.eraseP (fun w => w.bench == i) })

def execWakeReservationRelease (bench : Fin 132) (s : State) : Host.Outcome State Fault Refusal := onDev (devWakeRelease bench.val) s

/-- Requests that wait at a tick of the timebase: each adds one to PWR_WAKE_WAIT_TIME_CNT (R513). -/
def Dev.countWaits (d : Dev) : Dev :=
  let n := ((List.range 4).map (fun b => (d.bay b).queue.length)).sum
  if n = 0 then d else d.modPwr (fun p => { p with waitTimeCnt := cntAdd p.waitTimeCnt n })

/-- The K-step rate rises by a quarter, to the full rate (R514). -/
def devWakeRamp (i : Nat) (_ : Ctl) (d : Dev) : Dev :=
  d.modBench i (fun x => { x with rate := if x.rate.toNat < 4 then x.rate + 1 else x.rate })

def execWakeRampStep (bench : Fin 132) (s : State) : Host.Outcome State Fault Refusal := onWork (devWakeRamp bench.val) s

/-! ## JTAG (R519, R520). Instruction codes are the model's own: 0 BYPASS, 1 IDCODE, 2 SAMPLE/PRELOAD, 3 EXTEST, 4 CLAMP,
5 HIGHZ, 6 UNLOCK_CHAL, 7 UNLOCK_RESP, from 8 on debug instructions, in a register of eight bits, whose all ones are BYPASS
(DESIGN CHOICE, log 73). -/

/-- TRST_N low holds the TAP in reset, with IDCODE selected. -/
def execJtagTrst (low : Bool) (s : State) : Host.Outcome State Fault Refusal :=
  onAll (fun c d => ({ c with jtag := { c.jtag with trst := low, instr := if low then 1 else c.jtag.instr } }, d)) s

/-- What an instruction acts as: EXTEST, CLAMP and HIGHZ need SYS_RST_N low, debug instructions the open lock. -/
def jtagActs (c : Ctl) (i : Nat) : Nat :=
  if i = 255 then 0 else if 3 ≤ i ∧ i ≤ 5 ∧ c.pins.sysRstN then 0 else if 8 ≤ i ∧ !c.jtag.unlocked then 0 else i

/-- The instruction in effect: it follows SYS_RST_N and the lock (R519, R520). -/
def Ctl.tap (c : Ctl) : Nat := jtagActs c c.jtag.instr

def execJtagInstructionUpdate (instr : Nat) (s : State) : Host.Outcome State Fault Refusal :=
  onAll (fun c d => (if c.jtag.trst then c else { c with jtag := { c.jtag with instr := instr % 256 } }, d)) s

/-- IDCODE: stepping, part number, manufacturer, 1 (R519). -/
def idcode : Nat := 0x4 * 2 ^ 28 + 0xC096 * 2 ^ 12 + Config.jep106.toNat * 2 + 1

/-- Does the response verify over the SHA-384 of the nonce and IDCODE with the fused debug key (R520)? -/
def unlockOk (c : Ctl) (sig : BitVec 768) : Bool :=
  Config.ecdsaOk c.fuses.debugKey (Config.sha384 (natLE 48 c.jtag.nonce ++ natLE 4 idcode)) sig.toNat

/-- A response in UNLOCK_RESP: the lock opens, or a failure is counted and a new nonce made (R520). -/
def jtagRespond (sig : BitVec 768) (c : Ctl) (d : Dev) : Ctl × Dev :=
  if c.jtag.trst || c.jtag.unlocked || decide (8 ≤ c.jtag.failures) then (c, d)
  else if unlockOk c sig then ({ c with jtag := { c.jtag with unlocked := true } }, raise c d Fs.jtagUnlock 0)
  else ({ c with jtag := { c.jtag with failures := c.jtag.failures + 1, nonce := (Config.nonce d.free).toNat } }, { d with free := d.free + 1 })

def execJtagUnlockResp (signature : BitVec 768) (s : State) : Host.Outcome State Fault Refusal := onAll (jtagRespond signature) s

end Sys2Proof.Machine
end

