-- ==== Sys2Proof/Machine/Retire.lean ====
section
/-! DEFINITION. The repair and retirement log in the flash (R453), and the redirect tables that the retirement of a pseudo-channel leaves
(R173 to R175). -/

namespace Sys2Proof.Machine

open Sys2Proof

/-! ## The flash log (R453) -/

/-- Add an entry to the repair and retirement log: KIND, UNIT, DETAIL, ADDR. -/
def flashLog (c : Ctl) (kind unit detail addr : Nat) (d : Dev) : Dev :=
  let seq := d.flash.log.length
  let w1 := kind + unit * 2 ^ 16 + detail * 2 ^ 32
  let crc := crc32c (natLE 8 c.now ++ natLE 8 w1 ++ natLE 8 addr ++ natLE 4 seq)
  if 28672 ≤ seq then d else { d with flash := { d.flash with log := d.flash.log ++ [[c.now, w1, addr, seq + crc * 2 ^ 32]] } }

/-! ## Redirect tables -/

/-- The `t`-th surviving block of S_k, in ascending order, as a physical place: `gone` are the pseudo-channels retired with it. DESIGN
CHOICE (log 131): lost blocks take the surviving blocks in this order, those of the retirement first, then those of earlier ones. -/
def freshPlace (gone : List Nat) (k t : Nat) : Nat :=
  let alive := (List.range 512).filter (fun n => !gone.contains n)
  alive.getD (t % alive.length) 0 * 262144 + (261888 - 512 * k + t / alive.length)

/-- A redirect entry: its place, valid (R173). -/
def redirectEntry (place : Nat) : W32 := BitVec.ofNat 32 (place + 2 ^ 31)

/-- Earlier entries whose replacement lies on a pseudo-channel, of pages that remain after the k-th retirement. -/
def movedEntries (t : Tab W32) (n k : Nat) : List Nat :=
  (t.filter (fun e => bits e.2.toNat 0 27 / 262144 == n && decide (e.1 % 2 ^ 18 < 261888 - 512 * k))).map Prod.fst

/-- The redirect entries that the k-th retirement, of pseudo-channel `n`, leaves (R173). -/
def retireEntries (gone : List Nat) (n k : Nat) (t : Tab W32) : Tab W32 :=
  let pages := 261888 - 512 * k
  foldRange pages ((movedEntries t n k).zipIdx.foldl (fun x p => tabSet 0 x p.1 (redirectEntry (freshPlace (gone ++ [n]) k (pages + p.2)))) t)
    (fun p x => tabSet 0 x ((k - 1) * 2 ^ 18 + p) (redirectEntry (freshPlace (gone ++ [n]) k p)))

/-- A block's tag moves with its data to the tag slot of its new place (R147, R173). -/
def moveTag (old new : Nat) (d : Dev) : Dev :=
  d.memPut (tagSlot (new / 262144) (new % 262144)) (d.mem.bytes d.era (tagSlot (old / 262144) (old % 262144)) 4)

/-- The tags of every block that the k-th retirement copies: `d` still holds the earlier entries. -/
def retireTags (n k : Nat) (d : Dev) : Dev :=
  let pages := 261888 - 512 * k
  let gone := d.near.retired ++ [n]
  foldRange pages ((movedEntries d.near.redirect n k).zipIdx.foldl (fun x p =>
      moveTag (bits (tabGet 0 d.near.redirect p.1).toNat 0 27) (freshPlace gone k (pages + p.2)) x) d)
    (fun p x => moveTag (n * 262144 + p) (freshPlace gone k p) x)

/-- Pseudo-channel `n` is RETIRED as the k-th: its redirect entries are valid. -/
def retiredPc (n k : Nat) (d : Dev) : Dev :=
  (d.modPc n (fun p => { p with st := .retired, k := k, fromGddr := false })).modNear (fun m =>
    { m with redirect := retireEntries m.retired n k m.redirect, retired := m.retired ++ [n], retiring := none })

end Sys2Proof.Machine
end

