-- ==== Sys2Proof/Machine/Boot.lean ====
section
/-! DEFINITION. Resets, the boot stages and the images they check (11: R430 to R439, R495, R500 to R502). -/

namespace Sys2Proof.Machine

open Sys2Proof

/-! ## Images (R433 to R435) -/

/-- The factory default protection tables (R437): class, index, first and last page. -/
def ptFactory : List (Nat × Nat × Nat × Nat) :=
  [(0, 0, 0x0, 0x7FFFFFF), (0, 1, 0x10000000, 0x4FFFFFFF), (0, 2, 0x200000000, 0x2FFFFFFFF),
   (1, 0, 0x0, 0x7FFFFFF), (1, 1, 0x10000000, 0x4FFFFFFF), (1, 2, 0x80000000, 0x801FFFFF), (1, 3, 0x100000000, 0x1FFFFFFFF),
   (1, 4, 0x200000000, 0x2FFFFFFFF), (1, 5, 0x3E0000000, 0x3EFFFFFFF), (1, 6, 0x3F0000000, 0x3FFFFFFFF),
   (2, 0, 0x0, 0x7FFFFFF), (2, 1, 0x10000000, 0x4FFFFFFF), (2, 2, 0x200000000, 0x2FFFFFFFF),
   (3, 0, 0x0, 0x7FFFFFF), (3, 1, 0x10000000, 0x4FFFFFFF), (3, 2, 0x100000000, 0x1FFFFFFFF), (3, 3, 0x200000000, 0x2FFFFFFFF),
   (3, 4, 0x3E0000000, 0x3EFFFFFFF), (3, 5, 0x3F8000000, 0x3F80107FF)]

def ptFactoryTab : Tab PtEntry :=
  ptFactory.foldl (fun t e => tabPut t (e.1 * 32 + e.2.1) { lo := BitVec.ofNat 64 (0xF + e.2.2.1 * 4096), hi := BitVec.ofNat 64 (e.2.2.2 * 4096) }) []

/-- The protection entries of a config image: 16 bytes each from byte 128 (R433, R436). -/
def ptOfImage (bs : List Byte) : Tab PtEntry :=
  foldRange 128 [] (fun i t =>
    tabSet {} t i { lo := BitVec.ofNat 64 (leAt bs (128 + 16 * i) 8), hi := BitVec.ofNat 64 (leAt bs (136 + 16 * i) 8) })

/-- All bytes of a span are zero. -/
def zeroAt (bs : List Byte) (off len : Nat) : Bool := ((bs.drop off).take len).all (fun b => b == 0)

/-- Does a config image pass R433: magic, format, length, check word, every field a permitted value? -/
def cfgValid (bs : List Byte) : Bool :=
  let n := leAt bs 8 4
  decide (leAt bs 0 4 = 0x4E434647) && decide (leAt bs 4 2 = 1) && decide (2244 ≤ n) && decide (n ≤ 65536) && decide (n % 4 = 0) &&
  decide (n ≤ bs.length) && decide (leAt bs (n - 4) 4 = crc32c (bs.take (n - 4))) &&
  (List.range 4).all (fun p =>
    let w := leAt bs (16 + 4 * p) 4
    let role := bits w 0 2
    decide (w < 64) && (role == 0 || role == 2 || (role == 1 && p == 0)) && (role == 0 || !bitAt w 4) && (role == 0 || !bitAt w 5)) &&
  [8, 4, 2, 1].contains (leAt bs 32 1) && decide (leAt bs 48 1 < 2) && decide (leAt bs 49 1 < 4) &&
  decide (20 ≤ leAt bs 52 4) && decide (leAt bs 52 4 ≤ 10000) && decide (leAt bs 58 2 < 4) && decide (leAt bs 60 1 < 2) &&
  decide (leAt bs 68 1 < 128) &&
  (List.range 128).all (fun i => decide (bits (leAt bs (128 + 16 * i) 8) 4 8 = 0) && decide (leAt bs (128 + 16 * i) 8 < 2 ^ 48) &&
      decide (bits (leAt bs (136 + 16 * i) 8) 0 12 = 0) && decide (leAt bs (136 + 16 * i) 8 < 2 ^ 48)) &&
  zeroAt bs 6 2 && zeroAt bs 12 4 && zeroAt bs 33 7 && zeroAt bs 50 2 && zeroAt bs 61 3 && zeroAt bs 69 59 && zeroAt bs 2240 (n - 2244)

/-- The fields of an accepted image (R433). -/
def cfgOf (bs : List Byte) : Cfg :=
  { cxl := (List.range 4).map (fun p =>
      let w := leAt bs (16 + 4 * p) 4
      (bits w 0 2, bitAt w 2, bitAt w 3, bitAt w 4, bitAt w 5)),
    ethW := leAt bs 32 1, ethC2m := BitVec.ofNat 64 (leAt bs 40 8), fcMode := BitVec.ofNat 1 (leAt bs 48 1),
    fcThreshold := BitVec.ofNat 2 (leAt bs 49 1), fcPulseMinUs := BitVec.ofNat 14 (leAt bs 52 4), mbxAccess := BitVec.ofNat 16 (leAt bs 56 2),
    fwUpdateLock := bitAt (leAt bs 58 2) 0, faultCfgLock := bitAt (leAt bs 58 2) 1, puwellStart := leAt bs 60 1 == 1,
    slewOverride := BitVec.ofNat 32 (leAt bs 64 4), i3cAddr := BitVec.ofNat 7 (leAt bs 68 1), sevLock := BitVec.ofNat 512 (leAt bs 2176 64) }

/-- Does an image with a 4 KiB header authenticate against the fuses, its SVN aside (R434)? -/
def imageSigned (f : Fuses) (img : List Byte) : Bool :=
  let len := leAt img 12 4
  let key := leAt img 160 1
  decide (leAt img 0 4 = 0x4E465748) && decide (len ≤ 0x800000 - 4096) && decide (4096 + len ≤ img.length) && decide (leAt img 8 2 < 64) &&
  decide (key < 4) && !bitAt f.revoked.toNat key &&
  Config.ecdsaOk (f.keys.getD key 0) (Config.sha384 (img.take 64)) (leAt img 64 96) &&
  decide (beNat ((img.drop 16).take 48) = Config.sha384 ((img.drop 4096).take len))

/-- SVN of an image is not below the fused counter. -/
def svnOk (f : Fuses) (img : List Byte) : Bool := decide (f.svn ≤ leAt img 8 2)

def imageOk (f : Fuses) (img : List Byte) : Bool := imageSigned f img && svnOk f img

/-- The slot that boot uses: the valid copy with the higher SEQ, else A (R435). -/
def activeSlot (fl : Flash) : Nat :=
  match fl.records.filter (fun r => r.2.2) with
  | [] => 0
  | [r] => r.1
  | r :: q :: _ => if r.2.1 < q.2.1 then q.1 else r.1

def slotImage (fl : Flash) (k : Nat) : List Byte := if k = 0 then fl.slotA else fl.slotB

/-! ## Resets (R430, R495, R500 to R502) -/

/-- Cells and lines of the far tier only: what a reset that loses near memory keeps (R191, R523). -/
def farOnly : Memory → Memory := Memory.keep (fun a => decide (0x10000000000 ≤ a) && decide (a < 0x50000000000))

/-- Everything but board GDDR: what a warm reset from the safe state keeps (R462, R523). -/
def notGddr : Memory → Memory := Memory.keep (fun a => !(decide (0x80000000000 ≤ a) && decide (a < 0x80200000000)))

/-- The blocks after a cold reset: flash stays, memory loses its contents. -/
def coldDev (d : Dev) : Dev := { flash := d.flash, free := d.free, era := (d.era.1 + 1, d.era.2 + 1) }

/-- A CXL port through a warm reset: its buffer's contents and table, until the scan decides (R191). -/
def keepPort (p : CxlPort) : CxlPort := { segs := p.segs, cap := p.cap, farRetain := p.farRetain, up := false }

/-- The collector through a warm reset (R451). -/
def keepFc (f : Collector) : Collector :=
  { log := f.log, logPtr := f.logPtr, seq := f.seq, safeTime := f.safeTime, safeValid := f.safeValid, safeSrc := f.safeSrc,
    selfErr := f.selfErr, selfKind := f.selfKind, selfOff := f.selfOff }

/-- Ethernet ports through a warm reset: a dead one stays down until a cold reset, on its failed lanes (R294). -/
def keepFab (f : Fabric) : Fabric :=
  { laneFail := f.laneFail, ports := tabMap {} f.ports (fun q => { dead := q.dead }) }

/-- The blocks after a warm reset: near memory keeps its contents only from the safe state with the stacks in self-refresh (R462, R502). -/
def warmDev (d : Dev) : Dev :=
  { flash := d.flash, free := d.free, fc := keepFc d.fc, active := d.active, far := { ports := tabMap {} d.far.ports keepPort }, fab := keepFab d.fab,
    mem := if d.near.selfRefresh then notGddr d.mem else farOnly d.mem, era := (if d.near.selfRefresh then d.era.1 else d.era.1 + 1, d.era.2 + 1) }

/-- PWR_OK rises: a cold reset, in which every block waits for the internal release. TRST_N is as it stands (R519). -/
def execPwrOkRise (s : State) : Host.Outcome State Fault Refusal :=
  onAll (fun c d => if c.pins.pwrOk then (c, d) else
    ({ fuses := c.fuses, pins := { c.pins with pwrOk := true, perst := 0, perst0Open := true }, jtag := { trst := c.jtag.trst, nonce := (Config.nonce d.free).toNat } },
      { coldDev d with free := d.free + 1 })) s

/-- PWR_OK falls: lanes stop, root-port PERST_N low, FLT_N and THERMTRIP_N released, every block in reset (R501). -/
def execPwrOkFall (s : State) : Host.Outcome State Fault Refusal :=
  onAll (fun c d => if c.pins.pwrOk then
    ({ fuses := c.fuses, pins := { c.pins with pwrOk := false, perst := 0, thermtrip := false }, jtag := { trst := c.jtag.trst } }, coldDev d) else (c, d)) s

/-- SYS_RST_N asserted: once the part has been released from cold reset, a warm reset (R430). -/
def execSysRstNAssert (s : State) : Host.Outcome State Fault Refusal :=
  onAll (fun c d =>
    let c1 := { c with pins := { c.pins with sysRstN := false } }
    if c.pins.pwrOk && c.clk.counting then
      ({ c1 with boot := { cold := false }, cfg := {}, live := false, clk := { c.clk with onOsc := false } }, warmDev d)
    else (c1, d)) s

/-- Boot may begin: PWR_OK high, the internal reset released, SYS_RST_N high. -/
def Ctl.begin (c : Ctl) : Ctl :=
  if c.pins.pwrOk && c.clk.counting && c.pins.sysRstN && !c.live then { c with live := true, boot := { c.boot with running := true } } else c

/-- Boot begins, or does not yet; with PWRBRK_N low the brake is in force from then on (R515). -/
def beginBoot (was c : Ctl) (d : Dev) : Ctl × Dev :=
  let c1 := c.begin
  (c1, if c1.live && !was.live && !c1.pins.pwrbrkN then devBrake c1 d else d)

def execSysRstNRelease (s : State) : Host.Outcome State Fault Refusal :=
  onAll (fun c d => beginBoot c { c with pins := { c.pins with sysRstN := true } } d) s

/-- PWR_OK + 200 µs: the timebase starts from 0, the root PLL is locked (R500, R504). -/
def execInternalResetRelease (s : State) : Host.Outcome State Fault Refusal :=
  onAll (fun c d => if c.pins.pwrOk && !c.clk.counting then
    beginBoot c { c with clk := { c.clk with pllLock := true, refclkOk := true, ethRefclkOk := true, counting := true, timebase := 0 } } d else (c, d)) s

/-! ## Boot stages (R430) -/

/-- Boot halts: FAILED and FAIL_CODE, FLT_N asserts; mailboxes stay NOT_READY (R431). -/
def halt (code : Nat) (c : Ctl) (d : Dev) : Ctl × Dev :=
  ({ c with boot := { c.boot with failed := true, failCode := BitVec.ofNat 8 code, running := false } }, d.modFc (fun f => { f with halted := true }))

/-- A stage's end time is recorded and the next stage starts. -/
def Ctl.stageDone (c : Ctl) : Ctl :=
  { c with boot := { c.boot with stageTime := tabSet 0 c.boot.stageTime c.boot.stage.toNat c.clk.timebase, stage := c.boot.stage + 1 } }

/-- Stage 3 boots a slot. -/
def bootSlot (k : Nat) (c : Ctl) (d : Dev) : Ctl :=
  ({ c with boot := { c.boot with fwSlot := BitVec.ofNat 1 k, fwVersion := BitVec.ofNat 32 (leAt (slotImage d.flash k) 4 4) } } : Ctl).stageDone

/-- Stage 3: the active slot, then the other, unless it passes its own limit, then the halt (R430, R434). `other` says that the active slot has
passed its limit. -/
def stage3 (other : Bool) (obs : BootObs) (c : Ctl) (d : Dev) : Ctl × Dev :=
  let a := activeSlot d.flash
  if !other && imageOk c.fuses (slotImage d.flash a) then (bootSlot a c d, d)
  else if !obs.otherLate && imageOk c.fuses (slotImage d.flash (1 - a)) then
    (bootSlot (1 - a) { c with boot := { c.boot with fwFallback := true } } d, raise c d Fs.fwFallback 0)
  else halt 3 c d

/-- PERST_N at the end of stage 4 (R495): root ports with FAR_RETAIN keep their level, others go low. -/
def perstAfter (c : Ctl) (cfg : Cfg) : BitVec 4 :=
  BitVec.ofNat 4 (maskOf ((List.range 4).filter (fun n =>
    let p := cfg.cxl.getD n (2, false, false, false, false)
    if p.1 = 1 then bitAt c.pins.perst.toNat n else decide (p.1 = 0) && p.2.2.2.2 && bitAt c.pins.perst.toNat n)))

/-- The wake slew budget in 0.01 A/µs (R512): the override, else a tenth of the smallest MFR_IOUT_MAX, else 20 A/µs. -/
def slewBudget (cfg : Cfg) (iout : List (Option Nat)) : Nat :=
  if cfg.slewOverride ≠ 0 then cfg.slewOverride.toNat
  else if (List.range 4).all (fun b => (iout.getD b none).isSome) then
    (((List.range 4).map (fun b => (iout.getD b none).getD 0)).foldl min (10 ^ 9)) / 10
  else 2000

/-- Severity locks of the image. -/
def lockSources (cfg : Cfg) (f : Collector) : Collector :=
  foldRange 480 f (fun n g => if bitAt cfg.sevLock.toNat n then g.setSrc n { g.src n with lock := true } else g)

/-- Roles of the CXL ports and the Ethernet width are loaded. With port 0 UPSTREAM from now on, a NOTIFY that a raise before this has set owes
vector 16 too (R446). -/
def loadPorts (cfg : Cfg) (d : Dev) : Dev :=
  let d1 := foldRange 4 d (fun n x =>
    let p := cfg.cxl.getD n (2, false, false, false, false)
    x.modCxl n (fun q => { q with role := p.1, speed64 := !p.2.1, ide := p.2.2.1, split := p.2.2.2.1, farRetain := p.2.2.2.2 }))
  let d2 := d1.modFab (fun f => { f with cfgWidth := BitVec.ofNat 4 cfg.ethW })
  d2.modFc (fun f => { f with owedMsix := f.owedMsix || (f.notify && (d1.cxl 0).role == 1 && (d.cxl 0).role != 1) })

/-- Stage 4 (R430, R433, R457, R495, R512). `force` takes the factory defaults. -/
def stage4 (force : Bool) (obs : BootObs) (c : Ctl) (d : Dev) : Ctl × Dev :=
  let ok := !force && cfgValid d.flash.config
  let cfg : Cfg := if ok then cfgOf d.flash.config else {}
  let c1 := ({ c with cfg := cfg, pins := { c.pins with perst := perstAfter c cfg, perst0Open := (cfg.cxl.getD 0 (2, false, false, false, false)).1 == 1 },
                      boot := { c.boot with cfgDefaulted := !ok } } : Ctl).stageDone
  let d1 := if ok then d else raise c d Fs.cfgDefaulted 0
  let d2 := (loadPorts cfg d1).modFc (fun f => lockSources cfg { f with mode := cfg.fcMode, threshold := cfg.fcThreshold, pulseMinUs := cfg.fcPulseMinUs })
  (c1, d2.modPwr (fun p => { p with budget := BitVec.ofNat 24 (slewBudget cfg obs.iout) }))

/-- Stage 5 (R438): the tables are written and locked, or, locked already, compared with the image. -/
def stage5 (c : Ctl) (d : Dev) : Ctl × Dev :=
  let want := if c.boot.cfgDefaulted then ptFactoryTab else ptOfImage d.flash.config
  if c.ptLock then (({ c with boot := { c.boot with ptStale := decide (c.pt ≠ want) } } : Ctl).stageDone, d)
  else (({ c with pt := want, ptLock := true } : Ctl).stageDone, d)

/-- An entry of the repair and retirement log: KIND and UNIT, if its CRC holds (R453). -/
def logUnit (e : List Nat) : Option (Nat × Nat × Nat) :=
  if bits (wordAt e 3) 32 32 = crc32c ((e.flatMap (natLE 8)).take 28) then
    some (bits (wordAt e 1) 0 4, bits (wordAt e 1) 16 16, bits (wordAt e 1) 32 32) else none

/-- Retire a pseudo-channel without staging, if R174 allows: its redirect entries are rebuilt (R175). -/
def bootRetire (n : Nat) (r : Option Dev) : Option Dev :=
  match r with
  | none => none
  | some d =>
    if d.near.retired.contains n then some d
    else if 8 ≤ d.near.retired.length ∨ 2 ≤ (d.near.retired.filter (fun m => m / 64 == n / 64)).length then none
    else some (retiredPc n (d.near.retired.length + 1) d)

/-- Retire a pseudo-channel that failed training: the flash records it, as every retirement (R175). -/
def bootFailed (c : Ctl) (n : Nat) (r : Option Dev) : Option Dev :=
  match r with
  | some d => if d.near.retired.contains n then some d else (bootRetire n (some d)).map (flashLog c 1 n (d.near.retired.length + 1) 0)
  | none => none

/-- Apply one log entry: repairs use spare rows, retirements come back in order, benches stay retired (R166, R175, R476). -/
def bootLogEntry (cold : Bool) (fuses : Fuses) (r : Option Dev) (e : List Nat) : Option Dev :=
  match r, logUnit e with
  | some d, some (0, u, det) => some (d.modNear (fun m => { m with sparesUsed := tabMod 0 m.sparesUsed (u * 64 + bits det 0 2 + 4 * bits det 2 2 + 16 * bits det 4 2) (· + 1) }))
  | some d, some (1, u, _) => bootRetire u (some d)
  | some d, some (2, u, _) =>
    let b := u / 33
    if cold then some { d with active := setAt d.active b (BitVec.ofNat 33 (setBit (setBit (d.active.getD b 0).toNat (u % 33) false) (fuses.spare.getD b 32) true)) } else some d
  | some d, some (3, u, _) =>
    let b := u / 33
    if cold then some { d with active := setAt d.active b (BitVec.ofNat 33 (setBit (d.active.getD b 0).toNat (u % 33) false)) } else some d
  | some d, some (4, u, _) => some (d.modFab (fun f => { f with laneFail := BitVec.ofNat 64 (setBit f.laneFail.toNat u true) }))
  | r, _ => r

/-- The benches active before any replacement: all but each bay's fused spare (R5). -/
def benchesBySpare (f : Fuses) : List (BitVec 33) := (List.range 4).map (fun b => BitVec.ofNat 33 (setBit 0x1FFFFFFFF (f.spare.getD b 32) false))

/-- Stage 6 (R430, R166, R175): logged repairs and retirements, then pseudo-channels that failed training. -/
def stage6 (obs : BootObs) (c : Ctl) (d : Dev) : Ctl × Dev :=
  let d0 := if c.boot.cold then { d with active := benchesBySpare c.fuses } else d
  match obs.pcs.foldl (fun r n => bootFailed c n r) (d0.flash.log.foldl (bootLogEntry c.boot.cold c.fuses) (some d0)) with
  | some d1 => (c.stageDone, d1)
  | none => halt 6 c d0

/-- Is a scanned header bad: a state the format has not, or SEALED with a wrong HDR_CRC, FMT or NBLK (R198)? DESIGN CHOICE (log 153): STATE 15,
RESERVED, which R194 lists and the scan's table does not, is invalid in a segment that holds data. -/
def headerBad (g : Seg) : Bool :=
  decide (3 < g.state) || (g.state == 2 && (decide (1 < g.fmt) || g.nblk == 0 || decide (1008 < g.nblk) || g.crc != g.hdrCrc))

/-- What the scan makes of a header (R198). -/
def scanned (g : Seg) : Seg := if headerBad g then { g with state := 3 } else if g.state = 1 then { g with state := 0 } else g

/-- The headers that the scan of a port finds other than they were written. -/
def foundHeaders (obs : BootObs) (n : Nat) (segs : Tab Seg) : Tab Seg :=
  (obs.found.filter (fun f => Dev.segPort f.1 == n)).foldl (fun t f => tabSet {} t (Dev.segIdx f.1) (segOf f.2)) segs

/-- The segment table of a port at bring-up (R198): retained and scanned, with FAR_HDR_BAD for each bad header, or initialised. The first
C ÷ 1 GiB segments, RESERVED, are no part of it. DESIGN CHOICE (log 152): a retained port whose capacity is another than before the reset is
initialised as one whose contents are lost, so that no header is scanned and no FAR_HDR_BAD raised. -/
def scanPort (c : Ctl) (obs : BootObs) (n : Nat) (kept : Bool) (cap : Nat) (d : Dev) : Dev :=
  let p := d.cxl n
  let segs := if kept && p.cap == cap then (foundHeaders obs n p.segs).filter (fun g => decide (cap / 2 ^ 30 ≤ g.1)) else []
  ((segs.filter (fun g => headerBad g.2)).map Prod.fst).foldl (fun x i => raise c x (Fs.farHdrBad n) (n * 2 ^ 19 + i))
    (d.modCxl n (fun q => { q with up := true, failed := false, cap := cap, segs := tabMap {} segs scanned }))

/-- Capacity that a port's training and enumeration give: with SPLIT = 2 × 8 both halves train and their devices are of equal capacity, two
ways interleaved (R188). -/
def portCapacity (obs : BootObs) (n : Nat) (split : Bool) : Option Nat :=
  let a := obs.cxl.getD n (false, 0)
  let b := obs.cxlB.getD n (false, 0)
  if !a.1 then none else if !split then some a.2 else if b.1 && a.2 == b.2 then some (2 * a.2) else none

/-- Bring-up of one root port (R188): capacity in whole GiB, at most 1 TiB, at least 2 GiB. Contents count as lost after a cold reset or
with PERST_N asserted (R191). -/
def bringUp (c : Ctl) (obs : BootObs) (n : Nat) (d : Dev) : Dev :=
  let p := d.cxl n
  if p.role ≠ 0 then d else
  let kept := !c.boot.cold && p.farRetain && bitAt c.pins.perst.toNat n
  let cap := min ((portCapacity obs n p.split).getD 0 / 2 ^ 30 * 2 ^ 30) (2 ^ 40)
  if 2 ^ 31 ≤ cap then scanPort c obs n kept cap d
  else raise c (d.modCxl n (fun q => { q with up := false, failed := true, segs := if kept then q.segs else [] })) (Fs.farPortFail n) 0

/-- Contents of ports that did not keep them are gone: their cells read as unwritten (R191, R198). -/
def dropFar (n : Nat) (d : Dev) : Dev :=
  if (d.cxl n).segs.isEmpty then
    { d with mem := d.mem.keep (fun a => !decide (rangeOf a = .farPlaced n)) } else d

/-- Stage 7: every root port, PERST_N released (R188, R495). -/
def stage7 (obs : BootObs) (c : Ctl) (d : Dev) : Ctl × Dev :=
  let d1 := foldRange 4 d (fun n x => dropFar n (bringUp c obs n x))
  let up := (List.range 4).filter (fun n => (c.cfg.cxl.getD n (2, false, false, false, false)).1 == 0)
  (({ c with pins := { c.pins with perst := BitVec.ofNat 4 (c.pins.perst.toNat ||| maskOf up) } } : Ctl).stageDone, d1)

/-- The lanes of a port of width `w`. -/
def portLanes (w p : Nat) : List Nat := (List.range w).map (fun i => p * w + i)

/-- Lanes that did not calibrate have failed (R294): their port starts narrower, or stays down. -/
def ethInit (c : Ctl) (bad : Nat) (d : Dev) : Dev :=
  let w := c.cfg.ethW
  foldRange (64 / w) d (fun p x => x.modEth p (fun q =>
    let good := (portLanes w p).filter (fun l => !bitAt (bad ||| x.fab.laneFail.toNat) l)
    let lo := (portLanes w p).take (w / 2)
    let hi := (portLanes w p).drop (w / 2)
    let use := if good.length = w then portLanes w p else if lo.all (fun l => good.contains l) then lo else if hi.all (fun l => good.contains l) then hi else []
    { q with lanes := BitVec.ofNat 64 (maskOf use), dead := q.dead || use.isEmpty || decide (w = 1 ∧ good.isEmpty), width := 0, up := false }))

/-- Stage 8 ends, and with it boot reaches READY (R430, R432, R434). -/
def stage8 (obs : BootObs) (c : Ctl) (d : Dev) : Ctl × Dev :=
  let lanes := setBitsOf obs.lanes.toNat 64
  let d1 := ethInit c obs.lanes.toNat (d.modFab (fun f => { f with laneFail := BitVec.ofNat 64 (f.laneFail.toNat ||| obs.lanes.toNat) }))
  let lost := (List.range (64 / c.cfg.ethW)).filter (fun p => !(d.eth p).dead && (d1.eth p).dead)
  let d2 := raiseAll c d1 (lanes.map (fun l => (Fs.ethLaneFail l, 0, portInfo (l / c.cfg.ethW) (popcount (d1.eth (l / c.cfg.ethW)).lanes.toNat 64))) ++
    lost.map (fun p => (Fs.ethPortDown, 0, portInfo p 0)))
  let c1 := c.stageDone
  let img := slotImage d.flash c.boot.fwSlot.toNat
  let c2 := { c1 with
    boot := { c1.boot with stage := 9, ready := true, running := false, readyTime := c.clk.timebase, stageTime := tabSet 0 c1.boot.stageTime 9 c.clk.timebase },
    fuses := { c.fuses with svn := max c.fuses.svn (leAt img 8 2) } }
  let d3 := foldRange 16 d2 (fun k x => x.modMbx k (fun m => { m with st := .idle }))
  if !c.cfg.puwellStart then (c2, d3)
  else if imageOk c.fuses d.flash.loader then (c2, d3.modSilkai (fun m => { m with puwellRun := true }))
  else (c2, raise c d3 Fs.loaderFail 0)

/-- Stage 1 sets the core rails from the voltage codes of the fuses (R498). -/
def setRails (c : Ctl) (d : Dev) : Dev :=
  let vs := (List.range 5).map (fun r => c.fuses.vout.getD r 0)
  vs.zipIdx.foldl (fun x v => x.emit (.vout v.2 v.1)) (d.modPwr (fun p => { p with vout := vs }))

/-- The stage in progress completes its work. -/
def bootStage (obs : BootObs) (c : Ctl) (d : Dev) : Ctl × Dev :=
  if !c.boot.running || d.fc.entering then (c, d) else
  match c.boot.stage.toNat with
  | 1 => (c.stageDone, setRails c d)
  | 2 => (c.stageDone, d)
  | 3 => stage3 false obs c d
  | 4 => stage4 false obs c d
  | 5 => stage5 c d
  | 6 => stage6 obs c d
  | 7 => stage7 obs c d
  | 8 => stage8 obs c d
  | _ => (c, d)

/-- The stage in progress passes its limit (R430): halt, the other slot, the factory defaults, or the units that did not
come up left off. -/
def bootLimit (obs : BootObs) (c : Ctl) (d : Dev) : Ctl × Dev :=
  if !c.boot.running || d.fc.entering then (c, d) else
  match c.boot.stage.toNat with
  | 1 => halt 1 c d
  | 2 => halt 2 c d
  | 3 => stage3 true obs c d
  | 4 => stage4 true obs c d
  | 6 => stage6 obs c d
  | 7 => stage7 obs c d
  | 8 => stage8 obs c d
  | _ => (c, d)

def execBootStageEnd (obs : BootObs) (s : State) : Host.Outcome State Fault Refusal := onAll (bootStage obs) s

/-- A stage that ends in the cycle of its limit wins, by its own row, and the tie is counted (R24, R463). -/
def execBootStageLimitExpiry (obs : BootObs) (s : State) (tie : Bool := false) : Host.Outcome State Fault Refusal :=
  onAll (fun c d =>
    if tie then (if c.boot.running ∧ !d.fc.entering then (c, d.modFc (fun f => { f with tieCnt := cntInc f.tieCnt })) else (c, d))
    else bootLimit obs c d) s

end Sys2Proof.Machine
end

