-- ==== Sys2Proof/Machine/Packet.lean ====
section
/-! DEFINITION. What stands around a Rhavemo frame on an Ethernet port (08): the Rhavemo header as sent, the UDP, IP and Ethernet headers and
the FCS (R298 to R302), and priority flow control (R295). -/

namespace Sys2Proof.Machine

open Sys2Proof

/-! ## The Rhavemo header (R301, R303, R305) -/

/-- A number as big-endian bytes. -/
def beNum (n v : Nat) : List Byte := (natLE n v).reverse

/-- The Rhavemo header with a given GEN and RETX. -/
def rhavemoBytes (gen : Nat) (retx : Bool) (f : Frame) : List Byte :=
  let flags := b2n f.first + b2n f.last * 2 + b2n f.fence * 4 + b2n f.ordered * 8 + b2n f.poison * 16 + b2n f.tag * 32 + b2n retx * 64 + f.resv / 16 % 2 * 128
  beNum 4 (f.ver % 16 * 2 ^ 28 + f.resv % 16 * 2 ^ 24 + f.opc % 256 * 2 ^ 16 + flags * 256 + gen % 256) ++ beNum 2 f.srcNode ++ beNum 2 f.dstNode ++ beNum 2 f.dstFlow ++
    beNum 2 f.epoch.toNat ++ beNum 4 f.psn.toNat ++ beNum 2 f.msgId.toNat ++ beNum 2 f.len ++ beNum 8 f.addr.toNat ++ beNum 4 f.attr.toNat ++ beNum 4 f.ts.toNat ++ beNum 4 f.aux.toNat

/-- The header with GEN and RETX as zero: what the ICRC covers before the payload (R305). -/
def icrcHeader (f : Frame) : List Byte := rhavemoBytes 0 false f

/-- The ICRC of a frame (R305). -/
def frameIcrc (f : Frame) : W32 := BitVec.ofNat 32 (crc32c (icrcHeader f ++ f.payload))

/-! ## UDP, IP and Ethernet (R298 to R302) -/

/-- The ones' complement sum of 16-bit words, an odd last byte padded with zero: the checksum of IPv4 and UDP. PRESUMED (log 143): the spec names
the protocols and leaves their standard forms to them. -/
def inetSum (bs : List Byte) : Nat :=
  let s := ((chunksOf 2 (bs.length + 1) bs).map (fun w => (w.getD 0 0).toNat * 256 + (w.getD 1 0).toNat)).sum
  let fold := fun (x : Nat) => x % 65536 + x / 65536
  65535 - fold (fold (fold s))

/-- UDP source port of entropy index `k` of a flow to context `flow` (R299). -/
def udpSource (flow k : Nat) : Nat := 49152 + (flow * 16 + k) % 16384

/-- IPv6 flow label of entropy index `k` (R299). -/
def flowLabel (flow k : Nat) : Nat := (flow * 16 + k) % 2 ^ 20

/-- Address of a node at a port: the port stands in the low 6 bits (R298). -/
def portIp (ip : BitVec 128) (port : Nat) : Nat := ip.toNat / 64 * 64 + port % 64

/-- What the headers of a frame are made from. -/
structure PacketInfo where
  v6 : Bool
  dscp : Nat
  tc : Nat
  flow : Nat
  ent : Nat
  srcIp : Nat
  dstIp : Nat
  udpDst : Nat
  dstMac : Nat
  srcMac : Nat
  deriving DecidableEq, Repr

/-- The UDP datagram around `data`, its checksum generated (R293, R302). -/
def udpBytes (i : PacketInfo) (data : List Byte) : List Byte :=
  let n := 8 + data.length
  let ports := beNum 2 (udpSource i.flow i.ent) ++ beNum 2 i.udpDst ++ beNum 2 n
  let pseudo := if i.v6 then beNum 16 i.srcIp ++ beNum 16 i.dstIp ++ beNum 4 n ++ beNum 4 17 else beNum 4 i.srcIp ++ beNum 4 i.dstIp ++ beNum 2 17 ++ beNum 2 n
  let s := inetSum (pseudo ++ ports ++ data)
  ports ++ beNum 2 (if s = 0 then 65535 else s) ++ data

/-- The IP header in front of `n` bytes: DSCP of the traffic class, ECT(0), 64 hops; in IPv4 identification 0 and DF (R302). -/
def ipBytes (i : PacketInfo) (n : Nat) : List Byte :=
  let tos := i.dscp % 64 * 4 + 2
  if i.v6 then beNum 4 (6 * 2 ^ 28 + tos * 2 ^ 20 + flowLabel i.flow i.ent) ++ beNum 2 n ++ [17, 64] ++ beNum 16 i.srcIp ++ beNum 16 i.dstIp
  else
    let a := [0x45, BitVec.ofNat 8 tos] ++ beNum 2 (20 + n) ++ beNum 2 0 ++ beNum 2 0x4000 ++ [64, 17]
    let z := beNum 4 i.srcIp ++ beNum 4 i.dstIp
    a ++ beNum 2 (inetSum (a ++ z)) ++ z

/-- The Ethernet header. DESIGN CHOICE (log 144): the optional 802.1Q tag is sent where the traffic class is not 0, with VID 0; its PCP carries the
class (R293, R300). -/
def etherBytes (i : PacketInfo) : List Byte :=
  beNum 6 i.dstMac ++ beNum 6 i.srcMac ++ (if i.tc = 0 then [] else beNum 2 0x8100 ++ beNum 2 (i.tc % 8 * 2 ^ 13)) ++ beNum 2 (if i.v6 then 0x86DD else 0x0800)

/-- One bit, and one byte, of the check sequence of Ethernet. PRESUMED (log 143). -/
def fcsBit (c : Nat) : Nat := if c % 2 = 1 then (c / 2) ^^^ 0xEDB88320 else c / 2
def fcsByte (c : Nat) (b : Byte) : Nat :=
  let x := c ^^^ b.toNat
  fcsBit (fcsBit (fcsBit (fcsBit (fcsBit (fcsBit (fcsBit (fcsBit x)))))))

/-- Bytes with their FCS. -/
def withFcs (bs : List Byte) : List Byte := bs ++ natLE 4 (bs.foldl fcsByte 0xFFFFFFFF ^^^ 0xFFFFFFFF)

/-- A frame as a port sends it, part by part in the order of R300. -/
def packetBytes (i : PacketInfo) (f : Frame) : List Byte :=
  let data := rhavemoBytes f.gen.toNat f.retx f ++ f.payload ++ beNum 4 f.icrc.toNat
  withFcs (etherBytes i ++ ipBytes i (8 + data.length) ++ udpBytes i data)

/-- The headers of a frame that leaves by a port in a traffic class with an entropy index (R298, R299, R302). The port's own MAC address is free:
the spec gives none. -/
def packetInfo (d : Dev) (port tc ent : Nat) (f : Frame) : PacketInfo :=
  { v6 := d.fab.ipv6, dscp := tabGet 0 d.fab.dscp tc, tc := tc, flow := f.dstFlow, ent := ent, srcIp := portIp (d.node d.fab.node.toNat).ip port,
    dstIp := portIp (d.node f.dstNode).ip port, udpDst := d.fab.udpPort.toNat, dstMac := tabGet 0 d.fab.mac port, srcMac := (Config.portMac port).toNat }

/-! ## Priority flow control (R295) -/

/-- Something leaves by a port now, or waits while its priority is paused. Port 64 is the path inside the part. -/
def portOut (p prio : Nat) (fr : Option Frame) (bs : List Byte) (d : Dev) : Dev :=
  if p < 64 && bitAt (d.eth p).paused.toNat prio then d.modEth p (fun q => { q with txHeld := q.txHeld ++ [(prio, fr, bs)] })
  else match fr with
    | some f => d.emit (.frame p f bs)
    | none => d.emit (.raw p bs)

/-- A received PFC frame pauses a priority, or resumes it: what waited goes out in order. -/
def pfcReceive (p prio : Nat) (pause : Bool) (d : Dev) : Dev :=
  let q := d.eth p
  let d1 := d.modEth p (fun q => { q with paused := BitVec.ofNat 8 (setBit q.paused.toNat prio pause) })
  if pause || !q.txHeld.any (fun x => x.1 == prio) then d1
  else (q.txHeld.filter (fun x => x.1 == prio)).foldl (fun x h => portOut p prio h.2.1 h.2.2 x) (d1.modEth p (fun q => { q with txHeld := q.txHeld.filter (fun x => x.1 != prio) }))

/-- XOFF when a priority's share of the receive buffer of 2 MiB exceeds three quarters, XON when it falls below one half. -/
def pfcSignal (p prio : Nat) (d : Dev) : Dev :=
  let q := d.eth p
  let v := tabGet 0 q.buf prio
  if bitAt q.pfcEn.toNat prio && !bitAt q.xoff.toNat prio && decide (0x180000 < v) then
    (d.modEth p (fun q => { q with xoff := BitVec.ofNat 8 (setBit q.xoff.toNat prio true) })).emit (.pause p prio true)
  else if bitAt q.xoff.toNat prio && decide (v < 0x100000) then
    (d.modEth p (fun q => { q with xoff := BitVec.ofNat 8 (setBit q.xoff.toNat prio false) })).emit (.pause p prio false)
  else d

/-- A frame reaches the receive buffer of its port: `queued` bytes of its priority lie there with it. `none` where PFC is off for the priority and the
buffer is full. DESIGN CHOICE (log 145): how fast homes drain a buffer is timing, so the frame says what it finds. -/
def bufferFrame (p prio queued : Nat) (d : Dev) : Option Dev :=
  if queued = 0 then some d else
  let q := d.eth p
  if !bitAt q.pfcEn.toNat prio && decide (0x200000 < ((tabDel q.buf prio).map Prod.snd).sum + queued) then none
  else some (pfcSignal p prio (d.modEth p (fun q => { q with buf := tabSet 0 q.buf prio queued })))

/-- A tick passes: each share that lies in a buffer shrinks to a free part of it, and XON follows (log 145). -/
def drainShare (p : Nat) (d : Dev) (e : Nat × Nat) : Dev :=
  { pfcSignal p e.1 (d.modEth p (fun q => { q with buf := tabSet 0 q.buf e.1 (Config.choice d.free (e.2 + 1) % (e.2 + 1)) })) with free := d.free + 1 }

/-- Every receive buffer drains. -/
def drainPorts (d : Dev) : Dev :=
  if d.fc.entering then d else d.fab.ports.foldl (fun x q => q.2.buf.foldl (drainShare q.1) x) d

end Sys2Proof.Machine
end

