-- ==== Sys2Proof/Machine/FabricOps.lean ====
section
/-! DEFINITION. What the fabric engine sends (08): paths, sequenced frames, messages, the service flow, translation through the
window table, failures at an issuer. -/

namespace Sys2Proof.Machine

open Sys2Proof

/-! ## Opcodes (R304, R348) -/

namespace Opc
def write : Nat := 0x01
def readReq : Nat := 0x02
def readResp : Nat := 0x03
def atomicAdd : Nat := 0x04
def fetchAdd : Nat := 0x05
def cmpSwap : Nat := 0x06
def atomicResp : Nat := 0x07
def signal : Nat := 0x08
def panelAdd : Nat := 0x09
def mirror : Nat := 0x0A
def mirrorCredit : Nat := 0x0B
def twinDone : Nat := 0x0C
def ack : Nat := 0x10
def status : Nat := 0x11
def rnr : Nat := 0x12
def heartbeat : Nat := 0x13
def flowOpen : Nat := 0x14
def collData : Nat := 0x20
def clampPart : Nat := 0x21
def clampResult : Nat := 0x22
def clampAck : Nat := 0x23
def clampQuery : Nat := 0x24
def clampNone : Nat := 0x25
def barrierUp : Nat := 0x26
def barrierDown : Nat := 0x27
def dovePull : Nat := 0x28
end Opc

/-! ## Paths (R299, R318) -/

/-- Ports of a flow's mask that are up. -/
def upPorts (d : Dev) (fl : Flow) : List Nat := (List.range 64).filter (fun p => bitAt fl.portMask.toNat p && (d.eth p).up)

/-- The path rate in Mb/s: 200 Gb/s for every lane of the up ports (R292, R318). -/
def pathRate (d : Dev) (fl : Flow) : Nat := ((upPorts d fl).map (fun p => (d.eth p).width * 200000)).sum

/-- Paths of a flow as port × 16 + entropy index, in order. -/
def pathList (d : Dev) (fl : Flow) : List Nat := (upPorts d fl).flatMap (fun p => (List.range (fl.paths.toNat + 1)).map (fun e => p * 16 + e))

/-- The next path in rotation, past penalised ones; with every path penalised, the next of all. -/
def nextPath (d : Dev) (fl : Flow) : Option Nat :=
  let l := pathList d fl
  let rot := l.filter (fun k => decide (fl.pathPtr ≤ k)) ++ l.filter (fun k => decide (k < fl.pathPtr))
  match rot.find? (fun k => (tabFind fl.penalties k).isNone) with
  | some k => some k
  | none => rot.head?

/-- The port a frame leaves by: 64 stands for the path inside the package to its own node (R62). -/
def outPort (d : Dev) (fl : Flow) (path : Option Nat) : Option Nat := if fl.peerNode = d.fab.node.toNat then some 64 else path.map (fun k => k / 16)

/-! ## Frames (R303, R310, R314) -/

/-- The header fields a flow gives every frame. -/
def stamp (c : Ctl) (d : Dev) (fl : Flow) (fr : Frame) : Frame :=
  { fr with gen := fl.peerGen, srcNode := d.fab.node.toNat, dstNode := fl.peerNode, dstFlow := fl.peerFlow, epoch := d.life.epoch,
            ts := BitVec.ofNat 32 c.now, len := fr.payload.length }

/-- Put a frame on a path in a traffic class with an entropy index; with no port up, or in the safe state, it is lost (R296). Port 64 needs no packet
around it. DESIGN CHOICE (log 166): the ICRC is R305's over the frame as it is sent, so that a retransmission, which carries a new TS, has one of
its own, where R312 also says "the same ICRC". -/
def transmit (fr : Frame) (port : Option Nat) (tc ent : Nat) (d : Dev) : Dev :=
  match (if d.fc.entering then none else port) with
  | some p =>
    let full := { fr with icrc := frameIcrc fr }
    (portOut p tc (some full) (if p < 64 then packetBytes (packetInfo d p tc ent full) full else []) d).modAux (fun x => { x with txFrameCnt := cntInc x.txFrameCnt })
  | none => d

/-- Send a sequenced frame now: it takes the next PSN of the direction and waits for its acknowledgement. DESIGN CHOICE (log 156): its EPOCH is
that of this first transmission, also where an abort came between a SIGNAL's issue and it (R238). -/
def sendNow (c : Ctl) (f : Nat) (issuer : Issuer) (fr : Frame) (d : Dev) : Dev :=
  let fl := d.flow f
  let path := nextPath d fl
  let full := { stamp c d fl fr with psn := fl.txNext }
  let k := path.getD 0
  let t : TxFrame := { frame := full, sent := c.now, retries := 0, port := k / 16, ent := k % 16, issuer := issuer }
  transmit full (outPort d fl path) fl.tc.toNat (k % 16) (d.modFlow f (fun x => { x with txNext := x.txNext + 1, unacked := x.unacked ++ [t], pathPtr := k + 1 }))

/-- Send a sequenced frame, or queue it behind those that wait (R310, R313). -/
def sendSeq (c : Ctl) (f : Nat) (issuer : Issuer) (fr : Frame) (d : Dev) : Dev :=
  let fl := d.flow f
  if !fl.rnrHeld.isEmpty || !fl.waiting.isEmpty || decide (1024 ≤ fl.unacked.length) then d.modFlow f (fun x => { x with waiting := x.waiting ++ [(fr, issuer)] })
  else sendNow c f issuer fr d

/-- Frames that waited are sent as far as the direction lets them. -/
def flushWaiting (c : Ctl) (f : Nat) (d : Dev) : Dev :=
  let fl := d.flow f
  if !fl.rnrHeld.isEmpty then d else
  let n := 1024 - fl.unacked.length
  (fl.waiting.take n).foldl (fun x w => sendNow c f w.2 w.1 x) (d.modFlow f (fun x => { x with waiting := x.waiting.drop n }))

/-- Send an unsequenced frame. -/
def sendUnseq (c : Ctl) (f : Nat) (fr : Frame) (d : Dev) : Dev :=
  let fl := d.flow f
  let path := nextPath d fl
  transmit { stamp c d fl fr with psn := fr.psn } (outPort d fl path) fl.tc.toNat (path.getD 0 % 16) (d.modFlow f (fun x => { x with pathPtr := path.getD 0 + 1 }))

/-- Frames of one message: FIRST on the first, LAST on the last (R304). -/
def markEnds (id : BitVec 16) (frs : List Frame) : List Frame :=
  frs.zipIdx.map (fun p => { p.1 with msgId := id, first := decide (p.2 = 0), last := decide (p.2 + 1 = frs.length) })

/-- Start a message whose issuer waits for its end. -/
def startMsg (c : Ctl) (f : Nat) (issuer : Issuer) (frs : List Frame) (respDue addr dest : Nat) (d : Dev) : Dev :=
  let id := (d.flow f).nextMsg
  let m : OpenMsg := { msgId := id, issuer := issuer, respDue := respDue, addr := addr, dest := dest }
  (markEnds id frs).foldl (fun x fr => sendSeq c f issuer fr x) (d.modFlow f (fun x => { x with nextMsg := x.nextMsg + 1, msgs := x.msgs ++ [m] }))

/-- Send frames that answer message `id` of the peer, on the reverse direction of its flow (R315). -/
def respond (c : Ctl) (f : Nat) (id : BitVec 16) (frs : List Frame) (d : Dev) : Dev :=
  (markEnds id frs).foldl (fun x fr => sendSeq c f .none fr x) d

/-- A STATUS for a message (R323). -/
def sendStatus (c : Ctl) (f : Nat) (id : BitVec 16) (st : Nat) (d : Dev) : Dev :=
  respond c f id [{ opc := Opc.status, attr := BitVec.ofNat 32 st }] d

/-- Is a message over: every frame acknowledged, every response received (R314)? -/
def msgOver (fl : Flow) (m : OpenMsg) : Bool :=
  m.respDue == 0 && !(fl.unacked.any (fun t => t.frame.msgId == m.msgId && t.issuer == m.issuer)) &&
    !(fl.waiting.any (fun w => w.1.msgId == m.msgId && w.2 == m.issuer))

/-! ## Whom a message goes to (R316, R320) -/

/-- Is a context OPEN to a node? -/
def openTo (d : Dev) (f node : Nat) : Bool := (d.flow f).state == .opn && (d.flow f).peerNode == node

/-- The service flow of a node: the OPEN context of lowest index to it (R316). -/
def serviceFlow (d : Dev) (node : Nat) : Option Nat := (d.fab.flows.find? (fun p => p.2.state == .opn && p.2.peerNode == node)).map Prod.fst

/-- A window access as translated: flow, node, remote address. -/
structure Translated where
  flow : Nat
  node : Nat
  addr : Nat
  deriving DecidableEq, Repr

/-- Translation of a window access of `n` bytes: `ty` 1 read, 2 write, 3 atomic (R61, R320). -/
def translate (d : Dev) (ty a n : Nat) : Option Translated :=
  let e := tabGet (0, 0) d.fab.win (bits a 32 12)
  let lo := e.1.toNat
  let t : Translated := { flow := bits lo 32 16, node := bits lo 16 16, addr := bits e.2.toNat 0 48 + a % 2 ^ 32 }
  if bitAt lo 0 && bitAt lo ty && decide (a % 2 ^ 32 + n ≤ 2 ^ 32) && openTo d t.flow t.node then some t else none

/-- A span cut at 4 KiB boundaries: address and length of each piece (R322, R324). -/
def cut4k (a n : Nat) : List (Nat × Nat) :=
  if n = 0 then [] else
  (List.range ((a + n - 1) / 4096 - a / 4096 + 1)).map (fun i =>
    let lo := max a ((a / 4096 + i) * 4096)
    (lo, min (a + n) ((a / 4096 + i + 1) * 4096) - lo))

/-- The frames of a remote write. -/
def writeFrames (a : Nat) (bs : List Byte) (poison : Bool) : List Frame :=
  (cut4k a bs.length).map (fun p => { opc := Opc.write, addr := BitVec.ofNat 64 p.1, payload := (bs.drop (p.1 - a)).take p.2, poison := poison })

/-- The frames of a remote read. -/
def readFrames (a n : Nat) (tag : Bool) : List Frame :=
  (cut4k a n).map (fun p => { opc := Opc.readReq, addr := BitVec.ofNat 64 p.1, attr := BitVec.ofNat 32 p.2, tag := tag })

/-! ## Failures (R317) -/

/-- INFO of the fabric sources (R452). -/
def fabInfo (node flow st : Nat) : Nat := node % 2 ^ 16 + flow % 2 ^ 16 * 2 ^ 16 + st % 16 * 2 ^ 32

/-- FAB_LAST_ERR takes the first failure and FAB_REMOTE_ERR is raised. -/
def fabError (c : Ctl) (st node flow : Nat) (d : Dev) : Dev :=
  let d1 := d.modAux (fun x => if x.errValid then x else
    { x with errStatus := BitVec.ofNat 4 st, errNode := BitVec.ofNat 16 node, errFlow := BitVec.ofNat 16 flow, errValid := true })
  raise c d1 Fs.fabRemoteErr (fabInfo node flow st)

/-- Status of R414 that a wire status stands for; a failed flow is POISONED (R236, R317). -/
def stOfWire (w : Nat) : Nat := if w = 1 then 6 else if w = 2 then 4 else if w = 4 then 0xD else if w = 5 then 2 else 0xA

/-! ## Jig records (R236, R452) -/

/-- JIG_TASK_FAIL for a record (R236). -/
def failRecord (c : Ctl) (jig queue record st : Nat) (d : Dev) : Dev := raise c d (Fs.jigTaskFail jig) (jigInfo queue record st)

/-- The remote signal of a record, on the service flow of the node (R236, R316, R327). -/
def sendSignal (c : Ctl) (node rjig ctr add jig queue record : Nat) (d : Dev) : Dev :=
  match serviceFlow d node with
  | none => failRecord c jig queue record 6 (fabError c 1 node 0 d)
  | some f =>
    let fr : Frame := { opc := Opc.signal, addr := BitVec.ofNat 64 (ctr % 4096 + rjig % 8 * 4096), aux := BitVec.ofNat 32 add }
    startMsg c f (.jig { jig := jig, queue := queue, record := record }) [fr] 0 0 0 d

end Sys2Proof.Machine
end

