-- ==== Sys2Proof/Machine/FarTier.lean ====
section
/-! DEFINITION. The far tier (05): stager descriptors, image maps, segments, repair of bad blocks, unified pages, CXL root
ports. -/

namespace Sys2Proof.Machine

open Sys2Proof

/-! ## Stager descriptors (R208, R211, R214) -/

/-- Counters of a jig: 4,096 in the global jig, 1,024 in a bay jig (R120). -/
def ctrCount (jig : Nat) : Nat := if jig = 4 then 4096 else 1024

/-- The fields of a stager descriptor (R208). -/
structure StgFields where
  op : Nat
  kind : Nat
  page : Bool
  chk : Bool
  sigEn : Bool
  sigTgt : Nat
  sigCtr : Nat
  portMask : Nat
  resv : Bool
  nearAddr : Nat
  mapAddr : Nat
  firstBlock : Nat
  nblocks : Nat
  owner : Nat
  entry0 : Nat
  word7 : Nat
  deriving DecidableEq, Repr

def stgFieldsOf (ws : List Nat) : StgFields :=
  let w := wordAt ws
  { op := bits (w 0) 0 4, kind := bits (w 0) 4 4, page := bitAt (w 0) 8, chk := bitAt (w 0) 9, sigEn := bitAt (w 0) 10,
    sigTgt := bits (w 0) 11 3, sigCtr := bits (w 0) 14 12, portMask := bits (w 0) 26 4,
    resv := bits (w 0) 30 34 != 0 || bits (w 1) 48 16 != 0 || bits (w 2) 48 16 != 0 || bits (w 5) 32 32 != 0 || w 6 != 0,
    nearAddr := bits (w 1) 0 48, mapAddr := bits (w 2) 0 48, firstBlock := bits (w 3) 0 32, nblocks := bits (w 3) 32 32,
    owner := w 4, entry0 := bits (w 5) 0 32, word7 := w 7 }

namespace Dev

/-- Entries and blocks of an image map, and entry `i` as (segment, GEN[10:0], FIRST_BLOCK) (R207). -/
def mapEntries (d : Dev) (m : Nat) : Nat := d.peek32 m
def mapBlocks (d : Dev) (m : Nat) : Nat := d.peek32 (m + 8)
def mapEntry (d : Dev) (m i : Nat) : Nat × Nat × Nat :=
  let w := d.peek64 (m + 64 + 8 * i)
  (bits w 0 21, bits w 21 11, bits w 32 32)

/-- The repair sources of an image map that are in use (R207). -/
def mapSources (d : Dev) (m : Nat) : List Nat := ((List.range 3).map (fun i => d.peek64 (m + 16 + 8 * i))).filter (fun x => x != 0)

/-- Segment identifiers that a map names. -/
def mapSegs (d : Dev) (m : Nat) : List Nat := (List.range (d.mapEntries m)).map (fun i => (d.mapEntry m i).1)

end Dev

/-- Can an engine not read a span: unmapped, or poisoned (R57, R153)? -/
def spanSick (d : Dev) (a n : Nat) : Bool := !d.homed a n || d.peekPoison a n

/-- What a read of such a span records. -/
def noteSick (c : Ctl) (port a n : Nat) (d : Dev) : Dev := if d.homed a n then notePoison c a n d else raise c d Fs.addrDecode (dropInfo a port false)

/-- Can an image map not be read (R57, R153, R182)? -/
def mapSick (d : Dev) (m : Nat) : Bool := spanSick d m 64 || spanSick d (m + 64) (8 * d.mapEntries m)

def noteMap (c : Ctl) (port m : Nat) (d : Dev) : Dev :=
  if spanSick d m 64 then noteSick c port m 64 d else noteSick c port (m + 64) (8 * d.mapEntries m) d

/-- Checks 1, 2 and 4 of R211, and zero blocks: the status at which a descriptor ends before it moves anything. A GET whose map cannot be
read ends POISONED (R57, R153). -/
def stgCheck (d : Dev) (x : StgFields) : Option Nat :=
  if x.word7 ≠ 0 ∨ x.resv ∨ 2 ≤ x.op ∨ (x.op = 0 ∧ (x.kind ≠ 0 ∨ x.page ∨ x.chk ∨ x.portMask ≠ 0)) ∨ (x.op = 1 ∧ (3 ≤ x.kind ∨ x.portMask = 0)) ∨
      (x.page ∧ x.nblocks ≠ 512) ∨ 5 ≤ x.sigTgt ∨ (x.sigEn ∧ ctrCount x.sigTgt ≤ x.sigCtr) then some 1
  else if x.nearAddr % 4096 ≠ 0 ∨ x.mapAddr % 64 ≠ 0 then some 1
  else if x.nblocks = 0 then some 0
  else if !(d.isNear x.nearAddr (x.nblocks * 4096) && d.engineSpan x.nearAddr (x.nblocks * 4096)) then some 2
  else if x.op = 0 ∧ mapSick d x.mapAddr then some 4
  else if x.op = 0 ∧ d.mapBlocks x.mapAddr < x.firstBlock + x.nblocks then some 2
  else if x.op = 1 ∧ !d.engineSpan x.mapAddr (64 + 8 * (x.entry0 + ceilDiv x.nblocks 510)) then some 2
  else none

/-! ## Bad blocks (R220 to R222) -/

/-- What a block of an image leads to. -/
inductive ImageRead where
  | good (bs : List Byte) (dowel len : Nat)
  /-- stale map entry (R199), or a block that no segment of the map holds -/
  | stale
  /-- a POISON block (R200) -/
  | poison
  /-- its port is down (R190) -/
  | down
  /-- the map cannot be read (R57, R153) -/
  | map
  | bad (entry id j : Nat) (dowel : Option Nat)
  deriving DecidableEq, Repr

/-- Index of the map entry that holds block `b`: the last whose FIRST_BLOCK is not above it (R209). -/
def mapIndex (d : Dev) (m b : Nat) : Option Nat :=
  ((List.range (d.mapEntries m)).filter (fun i => decide ((d.mapEntry m i).2.2 ≤ b))).getLast?

/-- Block `b` of an image by its map (R199, R209). DESIGN CHOICE (log 139): a block that no map entry covers, or that lies past NBLK of
the segment found, is read as one of a stale entry: the spec gives its read no end of its own. -/
def imageBlock (d : Dev) (m b : Nat) : ImageRead :=
  if mapSick d m then .map else
  match mapIndex d m b with
  | none => .stale
  | some i =>
    let e := d.mapEntry m i
    let g := d.seg e.1
    if !(d.cxl (Dev.segPort e.1)).up then .down
    else if g.state ≠ 2 ∨ g.gen.toNat % 2048 ≠ e.2.1 ∨ g.nblk ≤ b - e.2.2 then .stale
    else match d.readBlock e.1 (b - e.2.2) with
      | .good bs dw n => .good bs dw n
      | .poison => .poison
      | .bad dw => .bad i e.1 (b - e.2.2) dw

/-! ### The repair table (R221, R225) -/

/-- Does an entry name this bad block? -/
def Repair.names (r : Repair) (isPage : Bool) (target seg block : Nat) : Bool := r.isPage == isPage && r.target == target && r.seg == seg && r.block == block

/-- Are two entries of the same bad block? -/
def Repair.same (r q : Repair) : Bool := r.names q.isPage q.target q.seg q.block

/-- Is the block repaired, or given up as poisoned? -/
def Repair.decided (r : Repair) : Bool := r.fixed.isSome || r.poisoned

/-- Is it a bad block of the image that a FAR_COPY copies (R478)? Its entry names the source map by its fabric address above 2^64, and
its segment, which is another package's, above the identifiers of this one. -/
def Repair.copied (r : Repair) : Bool := decide (2 ^ 64 ≤ r.target)

/-- The FAR_COPY under way. -/
def copyOf (d : Dev) : FarCopy := match d.coll.reshard with | some r => r.copy | none => {}

/-- Change the entry of a bad block, in the table or waiting for room in it. -/
def modEntry (r : Repair) (f : Repair → Repair) (d : Dev) : Dev :=
  let g := fun (x : Repair) => if x.same r then f x else x
  d.modFar (fun t => { t with repairs := t.repairs.map g, repairWait := t.repairWait.map g })

/-- Change the head descriptor. -/
def modHead (d : Dev) (bay : Nat) (f : StgDesc → StgDesc) : Dev := d.modStager bay (fun g => { g with queue := modAt f g.queue 0 })

/-- One held consumer gets the block, or poison (R221, R224). -/
def releaseUse (bytes : Option (List Byte)) (dowel : Nat) (d : Dev) (u : HeldUse) : Dev :=
  let g := d.stager u.stager
  let slot := g.slots.find? (fun p => p.2.state == 3 && decide (u.dest = g.winBase.toNat + (p.1 * g.slotSize.toNat + p.2.done) * 4096))
  let d1 := match bytes with
    | some bs => ((d.poke u.dest bs).setTag u.dest dowel)
    | none => d
  match slot with
  | some p =>
    let next : Slot := { p.2 with state := 1, done := p.2.done + (if bytes.isSome then 1 else 0) }
    d1.modStager u.stager (fun x => { x with slots := if p.2.stale then tabDel x.slots p.1 else tabPut x.slots p.1 next })
  | none => modHead d1 u.stager (fun y => { y with heldBlocks := y.heldBlocks - 1, status := if bytes.isSome then y.status else if y.status = 0 then 4 else y.status })

/-! ### The fetch of a bad block over the fabric (R221, R222) -/

/-- Fabric addresses of the sources of a repair, in order: the maps of REPAIR_SRC, which for a copied block are the source map's (R478), or
the same block of the unified range in each peer (R220). -/
def repairSources (d : Dev) (r : Repair) : List Nat :=
  if r.copied then (copyOf d).sources
  else if r.isPage then d.far.peers.map (fun p => p * 2 ^ 48 + 0x200000000000 + r.target * 0x200000 + r.block * 4096) else d.mapSources r.target

/-- A fetch has ended: FAR_REPAIR_FETCH_DONE finds what it brought. -/
def fetchEnds (r : Repair) (res : Option (List Byte)) (d : Dev) : Dev :=
  modEntry r (fun y => { y with fetch := { y.fetch with stage := .idle, buf := [], ready := some res } }) d

/-- Read `n` bytes of the source's package, on the service flow of its node; with none OPEN the fetch fails with DENIED (R316, R317). A block
of the unified range is a TAG read (R324). -/
def askSource (c : Ctl) (r : Repair) (f : RepairFetch) (stage : FetchStage) (a n : Nat) (d : Dev) : Dev :=
  let d1 := modEntry r (fun y => { y with fetch := { f with stage := stage, base := a, buf := [], bad := false, ready := none } }) d
  match serviceFlow d1 (f.src / 2 ^ 48) with
  | some fl => startMsg c fl (.repair r.isPage r.target r.seg r.block) (readFrames a n (stage == .page)) n a 0 d1
  | none => fetchEnds r none (fabError c 1 (f.src / 2 ^ 48) 0 d1)

/-- The block is fetched from the next source in order, wrapping to the first. -/
def startFetch (c : Ctl) (r : Repair) (d : Dev) : Dev :=
  let srcs := repairSources d r
  match srcs[r.fetch.asked % srcs.length]? with
  | none => fetchEnds r none d
  | some x =>
    let f : RepairFetch := { asked := r.fetch.asked + 1, src := x }
    if r.isPage then askSource c r f .page (x % 2 ^ 48) 4096 d else askSource c r f .entry (x % 2 ^ 48 + 64 + 8 * r.entry) 8 d

/-- Read the header of the segment that a source's map entry names (R192). -/
def askHeader (c : Ctl) (r : Repair) (f : RepairFetch) (entry : Nat) (d : Dev) : Dev :=
  askSource c r { f with found := some entry } .header (0x10000000000 * (Dev.segPort entry + 1) + entry % 2 ^ 19 * 4096) 4096 d

/-- The next probe of the search for the last entry of the source's map whose FIRST_BLOCK is not above the block. -/
def askProbe (c : Ctl) (r : Repair) (f : RepairFetch) (d : Dev) : Dev :=
  if f.lo < f.hi then askSource c r f .probe (f.src % 2 ^ 48 + 64 + 8 * ((f.lo + f.hi) / 2)) 8 d
  else match f.found with
    | some e => askHeader c r f e d
    | none => fetchEnds r none d

/-- The stored bytes of a block of another package, decoded under the header of its segment (R204). -/
def decodeFrom (g : Seg) (jj : Nat) (bs : List Byte) : Option (List Byte) :=
  if g.fmt = 1 then (if crc32c bs = wordAt g.index jj then some bs else none)
  else match veneerDecode bs (g.dataLen - (Dev.blockSpan g jj).1) with
    | .data x _ => some x
    | _ => none

/-- The bytes of an open read. -/
def fetchBytes (f : RepairFetch) (n : Nat) : List Byte := (List.range n).map (fun i => (tabFind f.buf i).getD 0)

/-- A read of a fetch has ended: the fetch goes on to its next read, or ends (R221). A segment that is not SEALED, or of another
generation than the entry names, gives nothing (R199). -/
def fetchNext (c : Ctl) (r : Repair) (d : Dev) : Dev :=
  let f := r.fetch
  let own := if r.copied then bits (copyOf d).word 32 32 else (d.mapEntry r.target r.entry).2.2
  let b := own + r.block
  let w := leNat (fetchBytes f 8)
  if f.bad then fetchEnds r none d else
  match f.stage with
  | .idle => d
  | .page => fetchEnds r (some (fetchBytes f 4096)) d
  | .entry => if bits w 32 32 = own then askHeader c r f (bits w 0 32) d else askSource c r f .mapHead (f.src % 2 ^ 48) 8 d
  | .mapHead => askProbe c r { f with lo := 0, hi := bits w 0 32, found := none } d
  | .probe =>
    let mid := (f.lo + f.hi) / 2
    if bits w 32 32 ≤ b then askProbe c r { f with lo := mid + 1, found := some w } d else askProbe c r { f with hi := mid } d
  | .header =>
    let hdr := fetchBytes f 4096
    let g := segOfHeader hdr
    let e := f.found.getD 0
    let jj := b - g.firstBlock
    if g.state ≠ 2 ∨ g.gen.toNat % 2048 ≠ bits e 21 11 ∨ b < g.firstBlock ∨ g.nblk ≤ jj then fetchEnds r none d
    else askSource c r { f with hdr := hdr } .block (0x10000000000 * (Dev.segPort e + 1) + e % 2 ^ 19 * 0x200000 + (Dev.blockSpan g jj).1) (Dev.blockSpan g jj).2 d
  | .block =>
    let g := segOfHeader f.hdr
    fetchEnds r (decodeFrom g (b - g.firstBlock) (fetchBytes f (Dev.blockSpan g (b - g.firstBlock)).2)) d

/-- The open entry of a bad block that the table holds. -/
def openRepair (d : Dev) (isPage : Bool) (target seg block : Nat) : Option Repair := d.far.repairs.find? (fun r => r.names isPage target seg block)

/-- Bytes of a fetch arrive at an offset of its open read; the requester checks the tag of a TAG read (R324). -/
def fetchTakes (isPage : Bool) (target seg block off : Nat) (bs : List Byte) (tag : Nat) (bad : Bool) (d : Dev) : Dev :=
  match openRepair d isPage target seg block with
  | some r =>
    let wrong := r.fetch.stage == .page && crc32c bs != tag
    modEntry r (fun y => { y with fetch := { y.fetch with buf := cellsPut y.fetch.buf off bs, bad := y.fetch.bad || bad || wrong } }) d
  | none => d

/-- The open read of a fetch is over. -/
def fetchOver (c : Ctl) (isPage : Bool) (target seg block : Nat) (d : Dev) : Dev :=
  match openRepair d isPage target seg block with
  | some r => fetchNext c r d
  | none => d

/-- The open read of a fetch failed (R317). -/
def fetchFails (isPage : Bool) (target seg block : Nat) (d : Dev) : Dev :=
  match openRepair d isPage target seg block with
  | some r => fetchEnds r none d
  | none => d

/-- Waiting bad blocks take the entries that are free (R225). DESIGN CHOICE (log 163): an entry is in use until its block is decided. -/
def admitRepairs (c : Ctl) (d : Dev) : Dev :=
  let room := 16 - (d.far.repairs.filter (fun r => !r.decided)).length
  (d.far.repairWait.take room).foldl (fun x r => startFetch c r x)
    (d.modFar (fun f => { f with repairs := f.repairs ++ f.repairWait.take room, repairWait := f.repairWait.drop room }))

/-- A bad block with sources becomes pending and its fetch starts, or its consumer joins the repair already open; one whose block is
decided by then gets the block at once (R221, R225). `bay` is the stager that finds the block bad. -/
def startRepair (c : Ctl) (d : Dev) (bay target : Nat) (isPage : Bool) (entry id j : Nat) (dowel : Option Nat) (held : List HeldUse) : Dev :=
  match (d.far.repairs ++ d.far.repairWait).find? (fun r => r.names isPage target id j) with
  | some r =>
    if r.decided then held.foldl (releaseUse r.fixed ((r.fixed.map crc32c).getD 0)) d
    else modEntry r (fun y => { y with held := y.held ++ held }) d
  | none =>
    let r : Repair := { target := target, isPage := isPage, entry := entry, block := j, seg := id, dowel := dowel, attempts := 0, firstFetch := [],
                        held := held, fixed := none, poisoned := false, finder := bay }
    let d1 := raise c ((dropTimeout id j d).modFar (fun f => { f with repairWait := f.repairWait ++ [r] })) Fs.farBlockBad (farInfo id j)
    if d1.fc.entering then d1 else admitRepairs c d1

/-- A repaired or poisoned form of a bad block of an image, which waits for its segment's rewrite. -/
def repairedBlock (d : Dev) (m id j : Nat) : Option (Option (List Byte)) :=
  (d.far.repairs.find? (fun r => r.names false m id j && r.decided)).map (fun r => r.fixed)

/-- The bad blocks of FAR pages in a span that have peers and no decision yet: a read of the unified range is held on them (R220, R221). -/
def badPageBlocks (d : Dev) (a n : Nat) : List (Nat × Nat × Nat × Option Nat) :=
  if n = 0 ∨ rangeOf a ≠ .unified ∨ d.far.peers.isEmpty then [] else
  (List.range ((a + n - 1) / 4096 - a / 4096 + 1)).filterMap (fun i =>
    let x := (a / 4096 + i) * 4096
    match tabFind d.far.pages (pageOf x) with
    | some p =>
      let j := x % 0x200000 / 4096
      if (p.res == .far || p.res == .promoting) && (d.farBlock (pageOf x) p.seg j).isNone && !((d.pageRepair (pageOf x) j).any (fun r => r.poisoned)) then
        match d.readBlock p.seg j with
        | .bad dw => some (pageOf x, p.seg, j, dw)
        | _ => none
      else none
    | none => none)

/-- Start the repairs a read of a span is held on; the flag says that it is held. -/
def holdOnPages (c : Ctl) (d : Dev) (a n : Nat) : Bool × Dev :=
  let bad := badPageBlocks d a n
  (!bad.isEmpty, bad.foldl (fun x b => if (x.pageRepair b.1 b.2.2.1).isSome then x else startRepair c x (b.1 % 4) b.1 true 0 b.2.1 b.2.2.1 b.2.2.2 []) d)

/-! ## GET (R209) -/

/-- Read counters of a stager. -/
def countGet (bay len : Nat) (d : Dev) : Dev :=
  d.modStager bay (fun g => { g with farRdBytes := cntAdd g.farRdBytes len, decodedBytes := cntAdd g.decodedBytes 4096 })

/-- A running GET: status so far, blocks held on repairs. -/
structure GetRun where
  dev : Dev
  status : Nat := 0
  held : Nat := 0
  deriving DecidableEq

/-- Change the head descriptor if it is still the one being carried out: containment may have ended that one (R447). -/
def modRunHead (d : Dev) (bay : Nat) (f : StgDesc → StgDesc) : Dev := modHead d bay (fun y => if y.ran then f y else y)

/-- Is the head descriptor of a stager being carried out? -/
def runsHead (d : Dev) (bay : Nat) : Bool := ((d.stager bay).queue.take 1).any (fun y => y.ran)

/-- One block of a GET: written with its tag, held on a repair, or the reason the descriptor ends (R199, R220). -/
def getBlock (c : Ctl) (bay : Nat) (x : StgFields) (i : Nat) (r : GetRun) : GetRun :=
  if r.status ≠ 0 || !runsHead r.dev bay then r else
  let dest := x.nearAddr + i * 4096
  match imageBlock r.dev x.mapAddr (x.firstBlock + i) with
  | .good bs dw n => { r with dev := countGet bay n ((r.dev.poke dest bs).setTag dest dw) }
  | .stale => { r with status := 5 }
  | .down => { r with status := 4 }
  | .map => { r with status := 4 }
  | .poison => { r with status := 4 }
  | .bad e id j dw =>
    match repairedBlock r.dev x.mapAddr id j with
    | some (some bs) => { r with dev := (r.dev.poke dest bs).setTag dest (crc32c bs) }
    | some none => { r with status := 4 }
    | none =>
    if (r.dev.mapSources x.mapAddr).isEmpty then { r with dev := farBlockLost c id j (modRunHead r.dev bay (fun y => { y with status := 4 })), status := 4 }
    else { r with dev := startRepair c r.dev bay x.mapAddr false e id j dw [{ stager := bay, dest := dest }], held := r.held + 1 }

/-- The words of the descriptor at the head of a stager's queue. -/
def stgHead (d : Dev) (bay : Nat) : Option (StgDesc × StgFields) :=
  match (d.stager bay).queue with
  | [] => none
  | h :: _ => some (h, stgFieldsOf ((List.range 8).map (fun i => d.peek64 (h.addr + 8 * i))))

/-- The head descriptor that cannot be read, or whose map cannot, ends POISONED (R57, R153, R182). -/
def headSick (d : Dev) (h : StgDesc) (x : StgFields) : Bool := !h.ran && (spanSick d h.addr 64 || stgCheck d x == some 4)

def endSick (c : Ctl) (bay : Nat) (h : StgDesc) (x : StgFields) (d : Dev) : Dev :=
  let d1 := modHead d bay (fun y => { y with ran := true, status := 4 })
  if spanSick d h.addr 64 then noteSick c (9 + bay) h.addr 64 d1 else noteMap c (9 + bay) x.mapAddr d1

/-- A GET is carried out: its blocks are decoded into the near tier. -/
def runGet (c : Ctl) (bay : Nat) (x : StgFields) (d : Dev) : Dev :=
  let r := foldRange x.nblocks ({ dev := modHead d bay (fun y => { y with ran := true }) } : GetRun) (getBlock c bay x)
  modRunHead r.dev bay (fun y => { y with status := r.status, heldBlocks := r.held })

/-- The head descriptor, not run yet, is a GET: it is checked and its blocks are decoded into the near tier, none of whose blocks is held
(R165). -/
def devGet (bay : Nat) (c : Ctl) (d : Dev) : Dev :=
  match stgHead d bay with
  | none => d
  | some (h, x) =>
    if headSick d h x then endSick c bay h x d
    else if h.ran || x.op != 0 || spanHeld d x.nearAddr (x.nblocks * 4096) then d else
    match stgCheck d x with
    | some st => modHead d bay (fun y => { y with ran := true, status := st })
    | none => runGet c bay x d

def execGet (bay : Fin 4) (s : State) : Host.Outcome State Fault Refusal := onWork (devGet bay.val) s

/-! ## PUT (R210, R203, R205, R206) -/

/-- Blocks packed into segments: bytes so far, index words, first block. -/
structure Packed where
  data : List Byte := []
  index : List Nat := []
  first : Nat := 0
  fmt : Nat := 0
  deriving DecidableEq, Repr

/-- Add one veneer block to the last segment, or start a segment with it (R205). `done` is in reverse order. -/
def packAdd (done : List Packed) (blk : List Byte) (b : Nat) : List Packed :=
  let padded := blk ++ List.replicate (vnPadded blk - blk.length) 0
  let word := fun (off : Nat) => off / 16 + padded.length / 16 * 2 ^ 17
  match done with
  | [] => [{ data := padded, index := [word 0], first := b }]
  | p :: rest =>
    if p.data.length + padded.length ≤ 0x200000 then { p with data := p.data ++ padded, index := p.index ++ [word p.data.length] } :: rest
    else { data := padded, index := [word 0], first := b } :: p :: rest

/-- Blocks of an image, packed in order from image block `first` on. -/
def packBlocks (kind first : Nat) (blocks : List (List Byte)) : List Packed :=
  (blocks.zipIdx.foldl (fun a p => packAdd a (veneerEncode kind p.1) (first + p.2)) []).reverse

/-- The 512 blocks of a page: one VENEER segment if they fit, else one PLAIN segment (R206). -/
def packPage (kind first : Nat) (blocks : List (List Byte)) : List Packed :=
  match packBlocks kind first blocks with
  | [p] => [p]
  | _ => [{ data := blocks.flatten, index := blocks.map crc32c, first := first, fmt := 1 }]

/-- Segments of a port that hold data: the table takes the first C ÷ 1 GiB (R192). -/
def usable (p : CxlPort) : Nat × Nat := (p.cap / 2 ^ 30, p.cap / 2 ^ 21)

/-- The lowest FREE segment of a port (R210), by search upwards past those in use. -/
def lowestFree (p : CxlPort) : Option Nat :=
  let u := usable p
  if !p.up then none else
  (((List.range (p.segs.length + 1)).map (fun i => u.1 + i)).filter (fun i => decide (i < u.2))).find? (fun i => (tabGet {} p.segs i).state == 0)

/-- A port of the mask with a FREE segment, starting after `last` in rotation. -/
def pickSegment (d : Dev) (mask last : Nat) : Option Nat :=
  (((List.range 4).map (fun i => (last + 1 + i) % 4)).filter (fun n => bitAt mask n)).findSome? (fun n =>
    if (d.cxl n).role = 0 then (lowestFree (d.cxl n)).map (fun i => n * 2 ^ 19 + i) else none)

/-- A FREE segment is taken: FILLING, GEN incremented (R194, R196). -/
def claimSegment (id : Nat) (d : Dev) : Dev := d.modSeg id (fun g => { g with state := 1, gen := g.gen + 1, raw := [] })

/-- Data, index and header fields of a FILLING segment (R194, R205). DEDUCED (log 133): the stager leaves no line of the data half
written, so the last one is sound too, whatever unwritten bytes follow in it; a GET of the last block could else not be served. -/
def writeSegment (id owner : Nat) (p : Packed) (d : Dev) : Dev :=
  let d1 := d.modSeg id (fun g => { g with owner := BitVec.ofNat 64 owner, firstBlock := p.first, nblk := p.index.length, fmt := p.fmt,
                                           dataLen := p.data.length, index := p.index })
  { d1 with mem := (d1.mem.put (Dev.segBase id) p.data).soundLine ((Dev.segBase id + p.data.length - 1) / 64) }

/-- Fill a FREE segment with packed blocks (R196). -/
def fillSegment (d : Dev) (id : Nat) (owner : Nat) (p : Packed) : Dev := writeSegment id owner p (claimSegment id d)

/-- Seal a FILLING segment (R196, R197). -/
def sealSegment (now id : Nat) (d : Dev) : Dev :=
  d.modSeg id (fun g => let h := { g with state := 2, sealTime := now }; { h with hdrCrc := crc32c (headerBytes h 0) })

/-- Blocks of a near span. -/
def nearBlocks (d : Dev) (a n : Nat) : List (List Byte) := (List.range n).map (fun i => d.peekBytes (a + i * 4096) 4096)

/-- Take segments for packed blocks in order; the flag says that space ran out (R210). -/
def takeSegments (owner mask : Nat) : List Packed → Nat → Dev → List Nat → Dev × List Nat × Bool
  | [], _, d, ids => (d, ids, false)
  | p :: ps, last, d, ids =>
    match pickSegment d mask last with
    | none => (d, ids, true)
    | some id => takeSegments owner mask ps (Dev.segPort id) (fillSegment d id owner p) (ids ++ [id])

/-- The data movement of a PUT: encoded blocks go to fresh FILLING segments. -/
def runPut (c : Ctl) (bay : Nat) (x : StgFields) (d : Dev) : Dev :=
  let len := x.nblocks * 4096
  let sick := d.peekPoison x.nearAddr len || (x.chk && tagsPoisoned d x.nearAddr len)
  let rd0 := readSpan c (if sick then modHead d bay (fun y => { y with ran := true, status := 4 }) else d) x.nearAddr len
  let rd := (rd0.1, rd0.2.1, if x.chk && !rd0.2.1 then readTags c x.nearAddr len rd0.2.2 else rd0.2.2)
  let bad := if x.chk && !sick then d.badTag x.nearAddr rd.1 else none
  match sick, bad with
  | true, _ => rd.2.2
  | false, some a => dowelFault c 1 bay a (modHead rd.2.2 bay (fun y => { y with ran := true, status := 5 }))
  | false, none =>
    let blocks := chunksOf 4096 (len + 1) rd.1
    let packed := if x.page then packPage x.kind x.firstBlock blocks else packBlocks x.kind x.firstBlock blocks
    let r := takeSegments x.owner x.portMask packed (rd.2.2.stager bay).lastPort rd.2.2 []
    let wrote := ((r.2.1.map (fun id => (r.1.seg id).dataLen)).sum)
    (modHead r.1 bay (fun y => { y with ran := true, status := if r.2.2 then 6 else 0 })).modStager bay (fun g =>
      { g with filling := r.2.1, farWrBytes := cntAdd g.farWrBytes wrote, encodeInBytes := cntAdd g.encodeInBytes len })

/-- The head descriptor, not run yet, is a PUT. -/
def devPut (bay : Nat) (c : Ctl) (d : Dev) : Dev :=
  match stgHead d bay with
  | none => d
  | some (h, x) =>
    if headSick d h x then endSick c bay h x d
    else if h.ran || x.op != 1 || spanHeld d x.nearAddr (x.nblocks * 4096) then d else
    match stgCheck d x with
    | some st => modHead d bay (fun y => { y with ran := true, status := st })
    | none => runPut c bay x d

def execPut (bay : Fin 4) (s : State) : Host.Outcome State Fault Refusal := onWork (devPut bay.val) s

/-- The oldest FILLING segment of a stager is sealed, then its map entry is written (R197, R210). What a jig record's PUT seals is noted,
for an abort (R252). -/
def devSeal (bay id : Nat) (c : Ctl) (d : Dev) : Dev :=
  match (d.stager bay).filling, stgHead d bay with
  | f :: rest, some (h, x) =>
    if f ≠ id then d else
    let d1 := (sealSegment c.now id d).modStager bay (fun g => { g with filling := rest, lastPort := Dev.segPort id })
    let g := d1.seg id
    let d2 := pokeAt c (9 + bay) (x.mapAddr + 64 + 8 * (x.entry0 + h.entriesWritten)) (natLE 8 (id + g.gen.toNat % 2048 * 2 ^ 21 + g.firstBlock * 2 ^ 32)) d1
    let d3 := if h.tag.isSome then d2.modLife (fun l => { l with putSegs := l.putSegs ++ [(id, g.gen)], putMaps := if l.putMaps.contains x.mapAddr then l.putMaps else l.putMaps ++ [x.mapAddr] }) else d2
    modRunHead d3 bay (fun y => { y with entriesWritten := y.entriesWritten + 1 })
  | _, _ => d

def execSegmentSeal (bay : Fin 4) (segment : Nat) (s : State) : Host.Outcome State Fault Refusal := onWork (devSeal bay.val segment) s

/-- The head descriptor, with words `x`, completes (R212): map header, word 7, then the signal if OK. -/
def completeHead (bay : Nat) (h : StgDesc) (x : StgFields) (c : Ctl) (d : Dev) : Dev :=
    let early := if h.ran then none else stgCheck d x
    if (!h.ran && early.isNone) || h.heldBlocks != 0 || !(d.stager bay).filling.isEmpty then d else
    let st := early.getD h.status
    let d1 := d.modStager bay (fun g => { g with queue := g.queue.drop 1 })
    let d2 := if x.op = 1 ∧ h.ran ∧ (st = 0 ∨ st = 6) ∧ x.nblocks ≠ 0 then pokeAt c (9 + bay) x.mapAddr (natLE 4 (x.entry0 + h.entriesWritten)) d1 else d1
    let d3 := pokeAt c (9 + bay) (h.addr + 56) (natLE 8 (st + h.entriesWritten * 2 ^ 32 + 2 ^ 63)) d2
    let d4 := if st = 0 ∧ x.sigEn then d3.signal x.sigTgt x.sigCtr 1 else d3
    match h.tag with
    | some t => d4.noteTask t none (stOfStg st)
    | none => d4

/-- The head descriptor completes. One that its checks end, or whose OP is reserved, completes without having run, and so does one that cannot
be read. -/
def devStgComplete (bay : Nat) (c : Ctl) (d : Dev) : Dev :=
  match stgHead d bay with
  | none => d
  | some (h, x) =>
    if headSick d h x then
      let d1 := endSick c bay h x d
      match (d1.stager bay).queue with
      | y :: _ => if y.ran && y.addr == h.addr then completeHead bay y x c d1 else d1
      | [] => d1
    else completeHead bay h x c d

def execStagerDescComplete (bay : Fin 4) (s : State) : Host.Outcome State Fault Refusal := onWork (devStgComplete bay.val) s

/-- A write to STRM_SUBMIT (R214): queued, or dropped and counted. -/
def devSubmit (bay v : Nat) (_ : Ctl) (d : Dev) : Dev :=
  let a := bits v 0 48
  d.modStager bay (fun g => if a % 64 ≠ 0 ∨ 64 ≤ g.queue.length then { g with submitFullCnt := cntInc g.submitFullCnt }
    else { g with queue := g.queue ++ [{ addr := a }] })

def execStrmSubmitWrite (bay : Fin 4) (port : Fin 16) (value : W64) (s : State) : Host.Outcome State Fault Refusal :=
  onWork (guardCsr port.val (0x3F0007001000 + bay.val * 0x100000) 8 (devSubmit bay.val value.toNat)) s

/-! ## Repair (R221 to R225) -/

/-- Change repair entry `i`. -/
def modRepair (d : Dev) (i : Nat) (f : Repair → Repair) : Dev := d.modFar (fun t => { t with repairs := modAt f t.repairs i })

/-- Is a fetched block accepted: by the local DOWEL, or, with none, by two identical blocks (R221, R222)? -/
def fetchOk (r : Repair) (bs : List Byte) : Bool :=
  match r.dowel with
  | some w => crc32c bs == w
  | none => !r.firstFetch.isEmpty && r.firstFetch == bs

/-- A good fetch releases the held consumers (R221). DESIGN CHOICE (log 134): a repair counts in the stager that found the block bad. -/
def repairGood (i : Nat) (r : Repair) (bs : List Byte) (d : Dev) : Dev :=
  let d1 := r.held.foldl (releaseUse (some bs) (crc32c bs)) d
  let d2 := d1.modStager r.finder (fun g => { g with repairCnt := cntInc g.repairCnt })
  modRepair d2 i (fun x => { x with fixed := some bs, held := [] })

/-- A failed attempt: the first is followed by one from the next source, the second poisons the block (R221, R224). -/
def repairBad (c : Ctl) (i : Nat) (r : Repair) (d : Dev) : Dev :=
  if r.attempts = 0 then startFetch c r (modRepair d i (fun x => { x with attempts := 1, firstFetch := [] }))
  else
    let d1 := r.held.foldl (releaseUse none 0) d
    let d2 := d1.modStager r.finder (fun g => { g with repairFailCnt := cntInc g.repairFailCnt })
    let d3 := raise c (modRepair d2 i (fun x => { x with attempts := 2, poisoned := true, held := [] })) Fs.farRepairFail (farInfo r.seg r.block)
    if d3.fc.entering then d3 else admitRepairs c d3

/-- A repair fetch returns a decoded block, or fails. A fetch whose frames the part has seen brings what they brought; else the command
brings it (log 51). -/
def devRepairFetch (i : Nat) (block : Option (List Byte)) (c : Ctl) (d : Dev) : Dev :=
  match d.far.repairs[i]? with
  | none => d
  | some r =>
    if r.decided then d else
    match r.fetch.ready.getD block with
    | some bs =>
      if bs.length ≠ 4096 then repairBad c i r d
      else if fetchOk r bs then admitRepairs c (repairGood i r bs d)
      else if r.dowel.isNone && r.firstFetch.isEmpty && decide (2 ≤ (repairSources d r).length) then startFetch c r (modRepair d i (fun x => { x with firstFetch := bs }))
      else repairBad c i r d
    | none => repairBad c i r d

/-- The KIND under which a repaired block takes the place of the one its segment stored: that of its header, or, where that cannot be
read, the first whose block has the length in INDEX (R203, R223). -/
def rewriteKind (old bs : List Byte) (len : Nat) : Nat :=
  if vnKind old ≤ 2 ∧ vnPadded (veneerEncode (vnKind old) bs) = len then vnKind old
  else ([1, 2, 0].find? (fun k => vnPadded (veneerEncode k bs) == len)).getD 1

/-- The stored form of block `j` in the rewritten segment: repaired, POISON, or as stored (R223, R224). -/
def rewriteBlock (d : Dev) (rs : List Repair) (id j : Nat) : List Byte :=
  let g := d.seg id
  let sp := Dev.blockSpan g j
  let old := d.mem.bytes d.era (Dev.segBase id + sp.1) sp.2
  match rs.find? (fun r => r.block == j) with
  | some r =>
    match r.fixed with
    | some bs => if g.fmt = 1 then bs else veneerEncode (rewriteKind old bs sp.2) bs
    | none => if g.fmt = 1 then old else veneerPoison
  | none => if g.fmt = 1 then old else old.take (vnLen old)

/-- The fresh segment of a rewrite: the same port if it has a free segment, else any in service (R223). -/
def rewriteTarget (d : Dev) (id : Nat) : Option Nat :=
  match lowestFree (d.cxl (Dev.segPort id)) with
  | some i => some (Dev.segPort id * 2 ^ 19 + i)
  | none => pickSegment d 0xF 3

/-- Other blocks of a segment that its copy finds bad: block and DOWEL (R223). -/
def foundBad (d : Dev) (id : Nat) : List (Nat × Option Nat) :=
  (List.range (d.seg id).nblk).filterMap (fun j =>
    if d.far.repairs.any (fun r => r.seg == id && r.block == j) then none
    else match d.readBlock id j with
      | .bad dw => some (j, dw)
      | _ => none)

/-- The rewritten segment's blocks. DESIGN CHOICE (log 135): a PLAIN segment has no POISON block; its copy stays PLAIN, as stored, and
the lines of a block given up hold poison. -/
def rewritePacked (d : Dev) (rs : List Repair) (id : Nat) : Packed :=
  let g := d.seg id
  let blocks := (List.range g.nblk).map (rewriteBlock d rs id)
  if g.fmt = 1 then { data := blocks.flatten, index := blocks.zipIdx.map (fun p => if rs.any (fun r => r.block == p.2 && r.fixed.isNone) then wordAt g.index p.2 else crc32c p.1),
                      first := g.firstBlock, fmt := 1 }
  else (blocks.zipIdx.foldl (fun a p => packAdd a p.1 (g.firstBlock + p.2)) []).reverse.headD {}

/-- The lines of a PLAIN segment's blocks that were given up hold poison. -/
def poisonPlain (rs : List Repair) (id : Nat) (d : Dev) : Dev :=
  if (d.seg id).fmt ≠ 1 then d else
  (rs.filter (fun r => r.fixed.isNone)).foldl (fun x r =>
    { x with mem := (List.range 64).foldl (fun m i => m.poisonLine ((Dev.segBase id + r.block * 4096) / 64 + i)) x.mem }) d

/-- The fresh segment takes the old one's place: map entry or page, the old one QUARANTINED, the table's entries free, and bad blocks of
the old segment that wait are those of the fresh one (R223, R225). -/
def rewriteEnds (c : Ctl) (r : Repair) (id : Nat) (d : Dev) : Dev :=
  let n := d.seg id
  let d1 := if r.isPage then
      match tabFind d.far.pages r.target with
      | some p => d.modPage r.target { p with seg := id, gen := n.gen.toNat }
      | none => d
    else pokeAt c (9 + r.finder) (r.target + 64 + 8 * r.entry) (natLE 8 (id + n.gen.toNat % 2048 * 2 ^ 21 + n.firstBlock * 2 ^ 32)) d
  let d2 := d1.modSeg r.seg (fun x => { x with state := 3 })
  let moved := fun (x : Repair) => if x.seg = r.seg then { x with seg := id } else x
  admitRepairs c (d2.modFar (fun f => { f with repairs := f.repairs.filter (fun x => x.seg != r.seg), repairWait := f.repairWait.map moved }))

/-- The rewrite of the segment of repair entry `i` ends, once every bad block of it is decided (R223). Another block that its copy finds bad is
repaired within it. The stager seals the fresh segment (R210). -/
def devRewrite (i : Nat) (c : Ctl) (d : Dev) : Dev :=
  match d.far.repairs[i]? with
  | none => d
  | some r =>
    let rs := d.far.repairs.filter (fun x => x.seg == r.seg)
    if rs.any (fun x => !x.decided) || d.far.repairWait.any (fun x => x.seg == r.seg) then d else
    let more := foundBad d r.seg
    if !more.isEmpty then more.foldl (fun x b => startRepair c x r.finder r.target r.isPage r.entry r.seg b.1 b.2 []) d else
    match rewriteTarget d r.seg with
    | none => d
    | some id =>
      let packed := rewritePacked d rs r.seg
      let d1 := poisonPlain rs id (sealSegment c.now id (fillSegment d id (d.seg r.seg).owner.toNat packed))
      rewriteEnds c r id (d1.modStager r.finder (fun g => { g with lastPort := Dev.segPort id, farRdBytes := cntAdd g.farRdBytes (d.seg r.seg).dataLen, farWrBytes := cntAdd g.farWrBytes packed.data.length }))

def execFarSegmentRewriteDone (entry : Nat) (s : State) : Host.Outcome State Fault Refusal := onWork (devRewrite entry) s

/-! ## Pages (R217 to R219) -/

/-- Is a near frame usable: below the tag region, outside the ranges sacrificed or to be sacrificed (R171), taken by no page? -/
def frameFree (d : Dev) (n : Nat) : Bool :=
  decide ((n + 1) * 0x200000 ≤ 0x7FE0000000 - (d.near.retired.length + (if d.near.retiring.isSome then 1 else 0)) * 0x40000000) &&
    !d.far.pages.any (fun p => decide (p.2.res ≠ .far) && p.2.frame == n)

/-- Near frames in all and free (R218). -/
def frameCount (d : Dev) : Nat := (0x7FE0000000 - (d.near.retired.length + (if d.near.retiring.isSome then 1 else 0)) * 0x40000000) / 0x200000
def freeFrames (d : Dev) : Nat := frameCount d - (d.far.pages.filter (fun p => decide (p.2.res ≠ .far))).length

/-- The lowest free frame. -/
def lowestFrame (d : Dev) : Option Nat := (List.range (d.far.pages.length + 1)).find? (frameFree d)

/-- A FAR page that is written, or read often enough in the epoch, starts its promotion (R218), and so does a pinned one that had to leave a
sacrificed range (DESIGN CHOICE, log 137). -/
def wantsPromotion (d : Dev) (n : Nat) (p : Page) : Bool :=
  p.res == .far && (p.pinned || !p.waiting.isEmpty || decide (max 1 d.far.promoteThresh.toNat ≤ p.reads) ||
    d.homes.any (fun h => h.2.ingress.any (fun r => reqOwns r.kind && rangeOf (r.line * 64) == .unified && pageOf (r.line * 64) == n)))

def devPromoteStart (n : Nat) (_ : Ctl) (d : Dev) : Dev :=
  match tabFind d.far.pages n with
  | some p =>
    match lowestFrame d with
    | some f => if wantsPromotion d n p then d.modPage n { p with res := .promoting, frame := f } else d
    | none => d
  | none => d

def execPagePromoteStart (page : Nat) (s : State) : Host.Outcome State Fault Refusal := onWork (devPromoteStart page) s

/-- The stager that carries a page's movement. -/
def pageStager (n : Nat) : Nat := n % 4

/-- The blocks of a promoted page in its near frame, tags with them; a block that cannot be had arrives as poison. -/
def placeBlock (n id frame j : Nat) (d : Dev) : Dev :=
  let a := frame * 0x200000 + j * 4096
  match d.farBlock n id j with
  | some bs => (Dev.nearWrite a bs (countGet (pageStager n) (Dev.blockSpan (d.seg id) j).2 d)).setTag a (crc32c bs)
  | none => (List.range 64).foldl (fun x i => x.poisonNear (a / 64 + i)) d

/-- A promotion completes: the page is NEAR_CLEAN, then the waiting writes proceed (R218, R219). A bad block with sources holds it for
its repair; one without is recorded (R220). -/
def devPromoteDone (n : Nat) (c : Ctl) (d : Dev) : Dev :=
  match tabFind d.far.pages n with
  | some p =>
    if p.res ≠ .promoting then d else
    let a := 0x200000000000 + n * 0x200000
    let held := holdOnPages c d a 0x200000
    if held.1 then held.2 else
    let d1 := foldRange 512 (noteFarBad c a 0x200000 d) (placeBlock n p.seg p.frame)
    let d2 := (d1.modPage n { p with res := .nearClean, waiting := [] }).modStager (pageStager n) (fun g => { g with promoteCnt := cntInc g.promoteCnt })
    p.waiting.foldl (fun x w =>
      let y := if w.2.1.isEmpty then x else x.poke w.1 w.2.1
      if w.2.2 then y.pokePoison (w.1 / 64) else y) d2
  | none => d

/-- Pages in sweep order from the hand on. -/
def sweepOrder (d : Dev) : Tab Page := d.far.pages.filter (fun p => decide (d.far.hand ≤ p.1)) ++ d.far.pages.filter (fun p => decide (p.1 < d.far.hand))

/-- A page the sweep may take: neither pinned nor migrating, with a near frame. -/
def sweepable (p : Page) : Bool := !p.pinned && (p.res == .near || p.res == .nearClean)

/-- The clock sweep (R218): referenced pages passed lose their bit, the first without it is the victim. -/
def clockSweep : Tab Page → Dev → Option Nat × Dev
  | [], d => (none, d)
  | (n, p) :: rest, d =>
    if !sweepable p then clockSweep rest d
    else if p.referenced then clockSweep rest (d.modPage n { p with referenced := false })
    else (some n, d)

/-- The high watermark in force (R218). -/
def highWm (d : Dev) : Nat := if d.far.highWm.toNat ≤ d.far.lowWm.toNat then d.far.lowWm.toNat + 1 else d.far.highWm.toNat

/-- A victim is dropped if it is clean, or its demotion starts, in a fresh segment (R218, R219). -/
def demote (n : Nat) (d : Dev) : Dev :=
  match tabFind d.far.pages n with
  | some p =>
    let d1 := d.modFar (fun f => { f with hand := n + 1 })
    if p.res = .nearClean then (d1.modPage n { p with res := .far, reads := 0 }).modStager (pageStager n) (fun g => { g with dropCleanCnt := cntInc g.dropCleanCnt })
    else match pickSegment d1 0xF (d1.stager (pageStager n)).lastPort with
      | some id => (claimSegment id d1).modPage n { p with res := .demoting, seg := id, gen := (d1.seg id).gen.toNat + 1 }
      | none => d1
  | none => d

/-- A page that must leave the range a retirement sacrifices: every page does, a pinned one with the rest (R172). -/
def leavingPage (d : Dev) : Option Nat :=
  match d.near.retiring with
  | some (_, k) => (d.far.pages.find? (fun p => (p.2.res == .near || p.2.res == .nearClean) && inSacrificed k (p.2.frame * 0x200000))).map Prod.fst
  | none => none

/-- With free frames below the low watermark the tier manager picks a victim, until the high one is reached (R218); a page of
a sacrificed range goes first (R172). -/
def devDemoteStart (_ : Ctl) (d : Dev) : Dev :=
  match leavingPage d with
  | some n => demote n d
  | none =>
  let go := decide (freeFrames d < d.far.lowWm.toNat) || (d.far.sweeping && decide (freeFrames d < highWm d))
  let d1 := d.modFar (fun f => { f with sweeping := go })
  if !go then d1 else
  let r := clockSweep (sweepOrder d1 ++ sweepOrder d1) d1
  match clockSweep (sweepOrder r.2) r.2, r.1 with
  | _, some n => demote n r.2
  | q, none => match q.1 with
    | some n => demote n q.2
    | none => q.2

def execPageDemoteStart (s : State) : Host.Outcome State Fault Refusal := onWork devDemoteStart s

/-- A demotion's PUT ends: one segment, PAGE = 1, KIND BF16; the page is FAR (R218). DESIGN CHOICE (log 136): a PUT that reads poison from
the frame ends POISONED as any PUT does, so that its segment is freed and the page stays NEAR. -/
def devDemoteDone (n : Nat) (c : Ctl) (d : Dev) : Dev :=
  match tabFind d.far.pages n with
  | some p =>
    if p.res ≠ .demoting ∨ spanHeld d (p.frame * 0x200000) 0x200000 then d else
    let rd := readSpan c d (p.frame * 0x200000) 0x200000
    if rd.2.1 then (rd.2.2.freeSeg p.seg).modPage n { p with res := .near } else
    let packed := (packPage 1 0 (chunksOf 4096 513 rd.1)).headD {}
    let d1 := sealSegment c.now p.seg (writeSegment p.seg (0x200000000000 + n * 0x200000) packed rd.2.2)
    (d1.modPage n { p with res := .far, reads := 0 }).modStager (pageStager n) (fun g =>
      { g with demoteCnt := cntInc g.demoteCnt, lastPort := Dev.segPort p.seg, farWrBytes := cntAdd g.farWrBytes packed.data.length,
               encodeInBytes := cntAdd g.encodeInBytes 0x200000 })
  | none => d

def execPageDemoteDone (page : Nat) (s : State) : Host.Outcome State Fault Refusal := onWork (devDemoteDone page) s

/-- A promotion epoch ends: block-read counts restart (R218). -/
def devEpochEnd (_ : Ctl) (d : Dev) : Dev := d.modFar (fun f => { f with pages := f.pages.map (fun p => (p.1, { p.2 with reads := 0 })) })

def execStrmEpochEnd (s : State) : Host.Outcome State Fault Refusal := onWork devEpochEnd s

/-! ## Root ports (R190, R226) -/

def devCxlRetrain (n : Nat) (c : Ctl) (d : Dev) : Dev := if (d.cxl n).role = 0 ∧ (d.cxl n).up then raise c d (Fs.farLinkRetrain n) 0 else d

def execCxlLinkRetrain (cxl : Fin 4) (s : State) : Host.Outcome State Fault Refusal := onClocked (devCxlRetrain cxl.val) s

/-- Does the descriptor being carried out touch a port: a GET whose blocks lie in segments of it, a PUT that fills or has sealed one there
(R190)? -/
def touchesPort (d : Dev) (n b : Nat) : Bool :=
  match stgHead d b with
  | none => false
  | some (h, x) =>
    let entry := fun i => d.mapEntry x.mapAddr i
    if !h.ran then false
    else if x.op = 0 then
      (List.range (d.mapEntries x.mapAddr)).any (fun i => Dev.segPort (entry i).1 == n && decide ((entry i).2.2 < x.firstBlock + x.nblocks) &&
        decide (x.firstBlock < (if i + 1 < d.mapEntries x.mapAddr then (entry (i + 1)).2.2 else d.mapBlocks x.mapAddr)))
    else (d.stager b).filling.any (fun id => Dev.segPort id == n) || (List.range h.entriesWritten).any (fun i => Dev.segPort (entry (x.entry0 + i)).1 == n)

/-- A stager at a link-down: the descriptor that touches the port ends POISONED, and every segment it fills is freed (R190, R196). -/
def stagerLinkDown (n b : Nat) (d : Dev) : Dev :=
  if !touchesPort d n b then d else
  modHead (((d.stager b).filling.foldl Dev.freeSeg d).modStager b (fun g => { g with filling := [] })) b (fun y => { y with status := 4 })

/-- A page whose demotion fills a segment of the port stays NEAR. -/
def pageLinkDown (n : Nat) (d : Dev) (q : Nat × Page) : Dev :=
  if q.2.res = .demoting ∧ Dev.segPort q.2.seg = n then (d.freeSeg q.2.seg).modPage q.1 { q.2 with res := .near } else d

/-- A root port's link goes down (R190): its blocks under repair poison their consumers and leave the table, its window unmaps. -/
def devCxlDown (n : Nat) (c : Ctl) (d : Dev) : Dev :=
  if !((d.cxl n).role == 0 && (d.cxl n).up) then d else
  let d1 := d.far.pages.foldl (pageLinkDown n) (foldRange 4 d (stagerLinkDown n))
  let lost := (d1.far.repairs ++ d1.far.repairWait).filter (fun r => Dev.segPort r.seg == n && !r.copied)
  let d2 := lost.foldl (fun x r => r.held.foldl (releaseUse none 0) x) d1
  let d3 := d2.modFar (fun f => { f with repairs := f.repairs.filter (fun r => !lost.contains r), repairWait := f.repairWait.filter (fun r => !lost.contains r) })
  raise c ((admitRepairs c d3).modCxl n (fun p => { p with up := false })) (Fs.farLinkDown n) 0

def execCxlLinkDown (cxl : Fin 4) (s : State) : Host.Outcome State Fault Refusal := onClocked (devCxlDown cxl.val) s

end Sys2Proof.Machine
end

