-- ==== Sys2Proof/Machine/Near.lean ====
section
/-! DEFINITION. Near memory (04): corrected errors, write queues, refresh, scrub, row repair, staging, retraining and
retirement of pseudo-channels, the bay-cache halves. -/

namespace Sys2Proof.Machine

open Sys2Proof

/-! ## Pseudo-channel states (R168 to R176) -/

/-- Is a pseudo-channel staged or being staged (R168)? One that failed retraining stays staged. -/
def pcStaged (p : Pc) : Bool :=
  p.st == .stagingRt || p.st == .retraining || p.st == .restoring || p.st == .stagingRet || p.st == .staged || p.st == .retiring ||
    (p.st == .degraded && p.fromGddr)

/-- Is some pseudo-channel but `n` staged? -/
def otherStaged (d : Dev) (n : Nat) : Bool := d.near.pcs.any (fun p => p.1 != n && pcStaged p.2)

/-- A staging copy begins to lie in the recovery area of board GDDR: what Silkai reads there is not given (R168; log 161). -/
def freshRecovery (d : Dev) : Dev :=
  { d with mem := d.mem.keep (fun a => !(decide (0x80100000000 ≤ a) && decide (a < 0x80200000000))), era := (d.era.1, d.era.2 + 1) }

/-- An error burst or a request for retraining (R170): staging starts, or waits for the staged one to leave. -/
def wantRetrain (n : Nat) (d : Dev) : Dev :=
  if (d.pc n).st ≠ .active then d
  else if otherStaged d n then d.modPc n (fun p => { p with retrainWanted := true })
  else (freshRecovery d).modPc n (fun p => { p with st := .stagingRt, pos := 0, retrainWanted := false })

/-- With no pseudo-channel staged, a retraining that waited starts: the lowest number first. -/
def nextRetrain (d : Dev) : Dev :=
  if d.near.pcs.any (fun p => pcStaged p.2) then d else
  match d.near.pcs.find? (fun p => p.2.retrainWanted && p.2.st == .active) with
  | some p => wantRetrain p.1 d
  | none => d

/-- A pseudo-channel becomes DEGRADED. -/
def degrade (n : Nat) (d : Dev) : Dev := d.modPc n (fun p => { p with st := .degraded, retrainWanted := false })

/-! ## Corrected errors (R153, R154, R164, R170) -/

/-- Ticks of the scrub period in use (R162). -/
def scrubTicks (n : NearCtl) : Nat := max 3600 n.scrubPeriod.toNat * 100000000

/-- A row's corrected error: with the eighth within one scrub period the row is a candidate (R164). -/
def rowCe (c : Ctl) (h line : Nat) (d : Dev) : Dev :=
  let k := d.rowKey line
  let r := tabGet {} d.near.rows k
  let ts := r.ce.filter (fun t => decide (c.now - t ≤ scrubTicks (d.nearCtl h))) ++ [c.now]
  let d1 := d.modNear (fun n => { n with rows := tabSet {} n.rows k { r with ce := ts, first := some (r.first.getD line) } })
  if 8 ≤ ts.length then addCandidate h k d1 else d1

/-- A pseudo-channel's corrected error: with the 1,024th within one millisecond it is retrained (R170). -/
def burstCe (c : Ctl) (n : Nat) (d : Dev) : Dev :=
  let ts := (d.pc n).burst.filter (fun t => decide (c.now - t ≤ 100000)) ++ [c.now]
  let d1 := d.modPc n (fun p => { p with burst := ts })
  if 1024 ≤ ts.length then wantRetrain n d1 else d1

/-- A corrected single-bit error of a physical stack line (R153). -/
def noteCe (c : Ctl) (line : Nat) (d : Dev) : Dev :=
  let h := d.stackOf line
  let d1 := d.modNearCtl h (fun n => { n with ceCnt := cntInc n.ceCnt, ceWb := if n.ceWb.contains line then n.ceWb else n.ceWb ++ [line] })
  raise c (burstCe c (d.pcOfLine line) (rowCe c h line d1)) (Fs.nearCe h) (line * 64)

/-- The corrected word is written back, or, after a write to the line, discarded: the write discards it when it is ordered (R154). -/
def devCeWriteback (h line : Nat) (_ : Ctl) (d : Dev) : Dev :=
  d.modNearCtl h (fun n => { n with ceWb := n.ceWb.filter (fun l => l != line) })

def execNearCeWriteback (stack : Fin 8) (line : Nat) (s : State) : Host.Outcome State Fault Refusal := onWork (devCeWriteback stack.val line) s

/-! ## Queues, refresh, scrub (R150, R152, R162, R163) -/

/-- The oldest queued write has waited 2 µs. -/
def devWriteAge (n : Nat) (_ : Ctl) (d : Dev) : Dev := if (d.pc n).writeQ.isEmpty then d else writePeriod n d

def execWriteQueueAgeExpiry (pc : Fin 512) (s : State) : Host.Outcome State Fault Refusal := onWork (devWriteAge pc.val) s

/-- A refresh is due: postponed behind demand accesses at most 8 intervals, else issued (R150). DESIGN CHOICE (log 128): an issued
refresh leaves no interval postponed. -/
def devRefresh (n : Nat) (busy : Bool) (_ : Ctl) (d : Dev) : Dev :=
  d.modPc n (fun p => if busy && decide (p.postponed < 8) then { p with postponed := p.postponed + 1 } else { p with postponed := 0 })

def execRefreshDue (pc : Fin 512) (busy : Bool) (s : State) : Host.Outcome State Fault Refusal := onWork (devRefresh pc.val busy) s

/-- What a scrub read of a physical line finds (R162, R163): `ecc` 0 sound, 1 corrected, 2 uncorrectable. -/
def scrubbed (line ecc : Nat) (c : Ctl) (d : Dev) : Dev :=
  let h := d.stackOf line
  if ecc = 2 ∨ d.mem.poisoned d.era line then
    let d1 : Dev := { (latchUe h line d) with mem := d.mem.poisonLine line }
    let r : RowErr := tabGet {} d1.near.rows (d.rowKey line)
    let d2 := d1.modNear (fun n => { n with rows := tabSet {} n.rows (d.rowKey line) { r with first := some (r.first.getD line) } })
    raise c (addCandidate h (d.rowKey line) d2) (Fs.nearScrubUe h) (line * 64)
  else if ecc = 1 then noteCe c line d
  else d

/-- The scrub reads a physical line, at its controller as any read (R152, R162). -/
def devScrub (line ecc : Nat) (c : Ctl) (d : Dev) : Dev :=
  let h := d.stackOf line
  if !inStack line || !(d.nearCtl h).scrubEn then d
  else scrubbed line ecc c (readServed line (queueRead line d))

def execScrubRead (line : Nat) (ecc : Fin 3) (s : State) : Host.Outcome State Fault Refusal := onWork (devScrub line ecc.val) s

/-! ## Row repair (R164 to R167) -/

/-- The first line of a row, and its 16 lines (R145): segment = bank group, L from bank, SID and row. -/
def rowBase (k : Nat) : Nat :=
  let b := keyBank k % 64
  let l := bits b 0 2 + bits b 4 2 * 4 + k % 16384 * 16
  (blockAt (xOfPc (keyPc k)) l * 4096 + bits b 2 2 * 1024) / 64

/-- The first failing line of a row. -/
def rowFirst (d : Dev) (k : Nat) : Nat := (tabGet {} d.near.rows k).first.getD (rowBase k)

/-- A candidate of a stack is held for repair, or finds no spare row or flash entry (R165, R167, R453). DESIGN CHOICES: of several
candidates the oldest is taken, one at a time (log 129); NEAR_REPAIR_EXHAUSTED is recorded for every candidate without a spare, also of a
pseudo-channel that is not ACTIVE (log 130). -/
def devPprStart (h : Nat) (c : Ctl) (d : Dev) : Dev :=
  match (d.nearCtl h).candidates, (d.nearCtl h).ppr with
  | k :: rest, none =>
    let d1 := d.modNearCtl h (fun n => { n with candidates := rest })
    if tabGet 0 d.near.sparesUsed (keyBank k) < d.near.sparesAtTraining ∧ d.flash.log.length < 28544 then d1.modNearCtl h (fun n => { n with ppr := some k })
    else
      let d2 := if (d1.pc (keyPc k)).st = .active then degrade (keyPc k) d1 else d1
      raise c d2 (Fs.nearRepairExhausted h) (keyPc k)
  | _, _ => d

def execSoftPprStart (stack : Fin 8) (s : State) : Host.Outcome State Fault Refusal := onWork (devPprStart stack.val) s

/-- The repair ends: a spare row is used, its history starts anew, the log records it (R165, R166). -/
def devPprDone (h : Nat) (c : Ctl) (d : Dev) : Dev :=
  match (d.nearCtl h).ppr with
  | none => d
  | some k =>
    let b := keyBank k % 64
    let first := rowFirst d k
    let d1 := (d.modNearCtl h (fun n => { n with ppr := none })).modNear (fun n =>
      { n with sparesUsed := tabMod 0 n.sparesUsed (keyBank k) (· + 1), rows := tabDel n.rows k })
    raise c (flashLog c 0 (keyPc k) (bits b 0 2 + bits b 2 2 * 4 + bits b 4 2 * 16 + k % 16384 * 64) (first * 64) d1) (Fs.nearRepair h) (first * 64)
/-! ## Staging, retraining, retirement (R176) -/

/-- Is a pseudo-channel being copied block by block? -/
def pcCopies (p : Pc) : Bool := p.st == .stagingRt || (p.st == .stagingRet && !p.fromGddr) || p.st == .restoring

/-- The copy of a pseudo-channel has gone on, in ascending L, by a number of blocks that the spec leaves to the clocks without demand
accesses (R169, R170). -/
def copyMoves (n : Nat) (d : Dev) : Dev :=
  if !pcCopies (d.pc n) then d else
  let p := d.pc n
  { d.modPc n (fun q => { q with pos := p.pos + Config.choice d.free (262144 - p.pos + 1) % (262144 - p.pos + 1) }) with free := d.free + 1 }

def devStagingDone (n : Nat) (_ : Ctl) (d : Dev) : Dev :=
  match (d.pc n).st with
  | .stagingRt => d.modPc n (fun p => { p with st := .retraining, fromGddr := true, pos := 262144 })
  | .stagingRet => d.modPc n (fun p => { p with st := .staged, fromGddr := true, pos := 262144 })
  | _ => d

def execPcStagingDone (pc : Fin 512) (s : State) : Host.Outcome State Fault Refusal := onWork (devStagingDone pc.val) s

def devRetrainDone (n : Nat) (pass : Bool) (c : Ctl) (d : Dev) : Dev :=
  if (d.pc n).st ≠ .retraining then d
  else if pass then d.modPc n (fun p => { p with st := .restoring, pos := 0 })
  else raise c (degrade n d) (Fs.nearRetrainFail (n / 64)) n

def execPcRetrainDone (pc : Fin 512) (pass : Bool) (s : State) : Host.Outcome State Fault Refusal := onWork (devRetrainDone pc.val pass) s

def devRestoreDone (n : Nat) (c : Ctl) (d : Dev) : Dev :=
  if (d.pc n).st ≠ .restoring then d
  else nextRetrain (raise c (d.modPc n (fun p => { p with st := .active, fromGddr := false, pos := 0, burst := [] })) (Fs.nearRetrain (n / 64)) n)

def execPcRestoreDone (pc : Fin 512) (s : State) : Host.Outcome State Fault Refusal := onWork (devRestoreDone pc.val) s

/-- May one more pseudo-channel of the stack be retired (R174)? -/
def mayRetire (d : Dev) (n : Nat) : Bool :=
  decide (d.near.retired.length < 8) && decide ((d.near.retired.filter (fun m => m / 64 == n / 64)).length < 2)

/-- Retirement may start (R171, R174, R176): nothing else is staged. -/
def devRetireStart (n : Nat) (c : Ctl) (d : Dev) : Dev :=
  if (d.pc n).st ≠ .degraded ∨ otherStaged d n then d
  else if !mayRetire d n then raise c d (Fs.nearRetireLimit (n / 64)) n
  else
    let k := d.near.retired.length + 1
    ((if (d.pc n).fromGddr then d else freshRecovery d).modPc n (fun p => { p with st := if p.fromGddr then .staged else .stagingRet, k := k, pos := if p.fromGddr then p.pos else 0 })).modNear
      (fun m => { m with retiring := some (n, k) })

def execPcRetirementStart (pc : Fin 512) (s : State) : Host.Outcome State Fault Refusal := onWork (devRetireStart pc.val) s

/-- Bytes of the near tier from `addr` on that a placed allocation occupies: a NEAR allocation itself, or the map of a FAR one,
whose size is the model's: the header and 8 bytes for each segment reserved, rounded up to 4 KiB (R207, R216). DESIGN CHOICE,
log entry 70. -/
def Alloc.nearLen (a : Alloc) : Nat :=
  if 0x8000000000 ≤ a.addr then 0 else if a.tier = 0 then a.extent else if a.tier = 1 then roundUp (64 + 8 * a.reserved) 4096 else 0

/-- Does S_k hold no live data (R172)? -/
def sacrificedEmpty (d : Dev) (k : Nat) : Bool :=
  if d.far.unified then !d.far.pages.any (fun p => decide (p.2.res ≠ .far) && inSacrificed k (p.2.frame * 0x200000))
  else !d.silkai.allocs.any (fun a => overlaps a.2.addr a.2.nearLen (sacrificedBase k) 0x40000000)

/-- S_k is empty and its pseudo-channel staged: S_k is unmapped and the retirement copy begins (R171 to R173). -/
def devSacrificedEmpty (_ : Ctl) (d : Dev) : Dev :=
  match d.near.retiring with
  | some (n, k) => if (d.pc n).st = .staged ∧ sacrificedEmpty d k then d.modPc n (fun p => { p with st := .retiring }) else d
  | none => d

def execPcSacrificedRangeEmpty (s : State) : Host.Outcome State Fault Refusal := onWork devSacrificedEmpty s

/-- The last redirect entry is valid: the lost blocks are in surviving blocks of S_k, tags with them (R173, R175, R176). -/
def devRetireDone (n : Nat) (c : Ctl) (d : Dev) : Dev :=
  if (d.pc n).st ≠ .retiring then d
  else
    let k := (d.pc n).k
    nextRetrain (raise c (flashLog c 1 n k 0 (retiredPc n k (retireTags n k d))) (Fs.nearRetired (n / 64)) n)

def execPcRetirementCopyDone (pc : Fin 512) (s : State) : Host.Outcome State Fault Refusal := onWork (devRetireDone pc.val) s

/-! ## Bay cache (R177 to R181). A write to BC_EN is a register write, which the safe state does not stop (R460). -/

/-- BC_EN written 0: the half starts to invalidate, accesses bypass it (R181). -/
def bcDisable (n : NearCtl) : NearCtl := { n with bcEn := false, bcInvalidating := n.bcInvalidating || n.bcEn }

/-- An uncorrectable error in a data line invalidates the line, one in a tag its whole set; no data is lost (R180). -/
def bcError (c : Ctl) (line : Nat) (tag : Bool) (d : Dev) : Dev :=
  let h := homeOf (line * 64)
  raise c (d.modNearCtl h (fun n => { n with bcLines := if tag then (bcSetOf n line).foldl tabDel n.bcLines else tabDel n.bcLines line })) (Fs.bcacheErr h) (line * 64)

/-- BC_EN written 1: the half starts empty (R181). -/
def bcEnable (n : NearCtl) : NearCtl := if n.bcEn then n else { n with bcEn := true, bcLines := [] }

def execBayCacheDisable (home : Fin 8) (s : State) : Host.Outcome State Fault Refusal := onClocked (fun _ d => d.modNearCtl home.val bcDisable) s

def execBayCacheInvalidateDone (home : Fin 8) (s : State) : Host.Outcome State Fault Refusal :=
  onClocked (fun _ d => d.modNearCtl home.val (fun n => if n.bcInvalidating then { n with bcLines := [], bcInvalidating := false } else n)) s

def execBayCacheEnable (home : Fin 8) (s : State) : Host.Outcome State Fault Refusal := onClocked (fun _ d => d.modNearCtl home.val bcEnable) s

end Sys2Proof.Machine
end

