-- ==== Sys2Proof/Machine/Coherence.lean ====
section
/-! DEFINITION. Homes, directories and cluster caches (10: R366 to R389): requests, snoops, grants, writebacks, evictions. -/

namespace Sys2Proof.Machine

open Sys2Proof

/-! ## Atomics performed at a home (R325, R326) -/

/-- Bytes of a source element: format 0 FP32, 1 FP16, 2 BF16, 16 INT64. -/
def atomSrc (fmt : Nat) : Nat := if fmt = 16 then 8 else if fmt = 0 then 4 else 2

/-- Bytes of a target element. -/
def atomDst (fmt : Nat) : Nat := if fmt = 16 then 8 else 4

/-- One element added to its target (R325). -/
def addElem (fmt : Nat) (old src : List Byte) : List Byte :=
  if fmt = 16 then natLE 8 (leNat old + leNat src)
  else natLE 4 (to32 (add32 (f32 (leNat old)) (decodeFl (fmtSpec fmt) (leNat src))))

/-- Elements added one by one. -/
def addElems (fmt : Nat) (old data : List Byte) : List Byte :=
  ((chunksOf (atomDst fmt) (old.length + 1) old).zip (chunksOf (atomSrc fmt) (data.length + 1) data)).flatMap (fun p => addElem fmt p.1 p.2)

/-- Bytes of the target an atomic touches. -/
def atomLen (op : AtomOp) (data : List Byte) : Nat :=
  match op with
  | .add fmt => data.length / atomSrc fmt * atomDst fmt
  | .fetchAdd => 8
  | .cmpSwap => 8

/-- What an atomic leaves in its target. -/
def atomApply (op : AtomOp) (old data : List Byte) : List Byte :=
  match op with
  | .add fmt => addElems fmt old data
  | .fetchAdd => natLE 8 (leNat old + leNat (data.take 8))
  | .cmpSwap => if old = data.take 8 then (data.drop 8).take 8 else old

/-! ## Lines -/

/-- Requester class of a port (R368, R436). DESIGN CHOICE (log 121): a bay port, 9 to 12, carries the bay's bench DMA, which the tables
check, and its stager, which they do not; a request at a home from it is taken as the stager's, since the bench DMA's accesses pass the
tables where its descriptor runs. -/
def portAsker (port : Nat) : Asker := if port < 8 then .puwell else if port = 8 then .hostCls else if port = 15 then .silkai else .engine

/-- May the port send the request (R368, R377)? -/
def portMay (port : Nat) : ReqKind → Bool
  | .rdShared => decide (port ≤ 8)
  | .rdOwn => decide (port ≤ 8)
  | .upgrade => decide (port < 8)
  | .rdCur => decide (8 ≤ port)
  | .wrFull => decide (8 ≤ port)
  | .wrPart => decide (8 ≤ port)
  | .atomic => decide (9 ≤ port)

/-- Access type of a request at the protection tables (R436): a cluster asks for ownership in order to write. -/
def reqAccess (r : Req) : Nat :=
  if reqWrites r.kind then 2 else if r.port < 8 ∧ (r.kind = ReqKind.rdOwn ∨ r.kind = ReqKind.upgrade) then 2 else 1

/-- A line of undefined bytes that reads as poisoned. -/
def poisonData (d : Dev) : LineData := { bytes := Dev.undefBytes d.free 64, poison := true }

namespace Dev

/-- Data sent to a requester; a read that the host sent through its coherent port discards the alias read-ahead (R388). -/
def sendData (d : Dev) (port line : Nat) (l : LineData) : Dev :=
  let d1 := d.emit (.data port line l)
  if port = 8 then d1.modHost (fun h => { h with ahead := [] }) else d1

/-- A request that the decode or the tables refuse completes with an error (R57, R66). -/
def refuseReq (c : Ctl) (d : Dev) (r : Req) : Dev :=
  let d1 := if reqWrites r.kind then d.emit (.ack r.port r.line) else { (d.sendData r.port r.line (poisonData d)) with free := d.free + 1 }
  raise c d1 Fs.addrDecode (dropInfo (r.line * 64) r.port (reqWrites r.kind))

/-- Memory takes a line from its home: the far-tier ports enforce write-once (R193), and a write on its way when its port goes down is dropped
(R190); the stack controller queues the write. -/
def homeStore (c : Ctl) (port line : Nat) (l : LineData) (d : Dev) : Dev :=
  let a := line * 64
  match rangeOf a with
  | .farPlaced n =>
    if !(d.cxl n).up then d
    else if d.inTable a then
      if 9 ≤ port ∧ port ≠ 13 ∧ port ≠ 14 then
        let id := tableSeg a
        let h := d.segHeader id
        d.modSeg id (fun _ => segOf (h.take (a % 4096) ++ l.bytes ++ h.drop (a % 4096 + 64)))
      else raise c d (Fs.farWriteRefused n) a
    else if 9 ≤ port ∧ port ≤ 12 ∧ (d.seg (n * 2 ^ 19 + a % 0x10000000000 / 0x200000)).state = 1 then d.storeLine line l
    else raise c d (Fs.farWriteRefused n) a
  | _ =>
    d.storeLine line l

/-! ## The directory (R370 to R375) -/

/-- The entries of a line's set: way and entry. -/
def setWays (hm : Home) (line : Nat) : List (Nat × Option DirEntry) :=
  (List.range 16).map (fun w => (line % 32768 * 16 + w, tabFind hm.dir (line % 32768 * 16 + w)))

/-- Ways that hold a stable entry. -/
def stableWays (hm : Home) (line : Nat) : List (Nat × DirEntry) :=
  (setWays hm line).filterMap (fun p => match p.2 with | some e => if lineOpen hm e.line then none else some (p.1, e) | none => none)

/-- May a request for the line get a way: one FREE, or a stable victim and room in the eviction buffer? -/
def canAlloc (hm : Home) (line : Nat) : Bool :=
  (setWays hm line).any (fun p => p.2.isNone) || (!(stableWays hm line).isEmpty && decide (hm.evicts.length < 16))

/-- The way a new entry takes (R373): the lowest FREE, else the victim, NRU cleared in every stable way if all were set. -/
def pickWay (hm : Home) (line : Nat) : Home × Nat × Option DirEntry :=
  match (setWays hm line).find? (fun p => p.2.isNone) with
  | some p => (hm, p.1, none)
  | none =>
    match (stableWays hm line).find? (fun p => !p.2.nru) with
    | some p => (hm, p.1, some p.2)
    | none =>
      let hm1 := { hm with dir := (stableWays hm line).foldl (fun t p => tabPut t p.1 { p.2 with nru := false }) hm.dir }
      match stableWays hm line with
      | p :: _ => (hm1, p.1, some { p.2 with nru := false })
      | [] => (hm1, line % 32768 * 16, none)

/-- Snoops leave the home (R377). -/
def sendSnoops (h kind line : Nat) (agents : List Nat) (d : Dev) : Dev :=
  (agents.foldl (fun x a => x.emit (.snoop h a kind line)) d).modHome h (fun m => { m with snoopCnt := cntAdd m.snoopCnt agents.length })

/-- Give a new entry its way; a victim moves to the eviction buffer and its holders are invalidated (R373, R375). The entry
of a line that no agent holds yet names no sharer. -/
def allocEntry (h line : Nat) (d : Dev) : Dev :=
  let p := pickWay (d.home h) line
  let new : DirEntry := { line := line, st := .ds }
  let d1 := d.modHome h (fun _ => { p.1 with dir := tabPut p.1.dir p.2.1 new })
  match p.2.2 with
  | none => d1
  | some v =>
    let who := holdersOf v
    if who.isEmpty then d1
    else sendSnoops h 0 v.line who (d1.modHome h (fun m => { m with evicts := m.evicts ++ [{ entry := v, waiting := who }], backinvCnt := cntInc m.backinvCnt }))

/-- Put the entry of a line, or free it. -/
def putEntry (hm : Home) (line : Nat) (e : Option DirEntry) : Home :=
  match dirFind hm line, e with
  | some p, some x => { hm with dir := tabPut hm.dir p.1 x }
  | some p, none => { hm with dir := tabDel hm.dir p.1 }
  | none, _ => hm

/-! ## Resolution of a request (R379) -/

/-- The snoops of R379: kind (0 SnpInv, 1 SnpData, 2 SnpCur) and agents, the requester excepted. -/
def planOf (e : Option DirEntry) (r : Req) : Nat × List Nat :=
  match e with
  | none => (0, [])
  | some e =>
    let ow := if e.st = .ds then [] else [e.owner].filter (fun a => a != r.port)
    match r.kind with
    | .rdShared => match e.st with
      | .ds => (0, [])
      | .dem => (1, ow)
      | .downed => (2, ow)
    | .rdCur => (2, ow)
    | _ => (0, ow ++ (sharersOf e).filter (fun a => a != r.port))

/-- Is an Upgrade's sender listed as a holder that may upgrade (R379, R383)? -/
def mayUpgrade (e : Option DirEntry) (port : Nat) : Bool :=
  match e with
  | none => false
  | some e => match e.st with
    | .ds => bitAt e.sharers.toNat port
    | .dem => false
    | .downed => bitAt e.sharers.toNat port || e.owner == port

/-- A caching request leaves an entry behind. -/
def needsEntry (k : ReqKind) : Bool := k == .rdShared || k == .rdOwn || k == .upgrade

/-- Does the transaction need memory's data if no holder returns any (R379, R380)? -/
def needsData (t : Txn) : Bool :=
  match t.req.kind with
  | .upgrade => t.asOwn
  | .wrFull => false
  | .wrPart => false
  | _ => true

/-- Sharers with an agent added or agents removed. -/
def addSharer (s : BitVec 9) (a : Nat) : BitVec 9 := BitVec.ofNat 9 (setBit s.toNat a true)
def dropSharers (s : BitVec 9) (l : List Nat) : BitVec 9 := BitVec.ofNat 9 (l.foldl (fun x a => setBit x a false) s.toNat)

/-- An entry without the agents that hold nothing any more; none is left if nobody is. -/
def withoutAgents (e : DirEntry) (gone : List Nat) : Option DirEntry :=
  let sh := dropSharers e.sharers gone
  let rest : Option DirEntry := if sh = 0 then none else some { e with st := .ds, sharers := sh, owner := 0 }
  match e.st with
  | .ds => rest
  | .dem => if gone.contains e.owner then rest else some { e with sharers := sh }
  | .downed => if gone.contains e.owner then rest else some { e with sharers := sh }

/-- The next state of R379. An owner whose writeback served the request keeps no copy. -/
def nextEntry (e : Option DirEntry) (t : Txn) : Option DirEntry :=
  let r := t.req
  let gone := t.missed ++ t.evicting
  let own : DirEntry := { line := r.line, st := .dem, owner := r.port }
  match r.kind with
  | .rdOwn => some own
  | .upgrade => some own
  | .rdCur => e.bind (fun x => withoutAgents x gone)
  | .wrFull => none
  | .wrPart => none
  | .atomic => none
  | .rdShared =>
    match e with
    | none => some own
    | some x =>
      let sh := addSharer (dropSharers x.sharers gone) r.port
      match x.st with
      | .ds => if x.sharers = 0 then some own else some { x with sharers := sh }
      | .dem =>
        if x.owner = r.port ∨ t.missed.contains x.owner then some own
        else if t.evicting.contains x.owner then some { x with st := .ds, sharers := addSharer 0 r.port, owner := 0 }
        else if t.dirtyBy.isSome then some { x with st := .downed, sharers := addSharer 0 r.port }
        else some { x with st := .ds, sharers := addSharer (addSharer 0 x.owner) r.port, owner := 0 }
      | .downed => if gone.contains x.owner then some { x with st := .ds, sharers := sh, owner := 0 } else some { x with sharers := sh }

/-- The state a caching request is granted: 0 S, 1 E, 2 M. -/
def grantState (e : Option DirEntry) (t : Txn) : Nat :=
  match t.req.kind with
  | .rdShared => match nextEntry e t with
    | some x => if x.st = .dem then 1 else 0
    | none => 0
  | _ => 2

/-- Change the transaction of a line. -/
def modTxn (h line : Nat) (f : Txn → Txn) (d : Dev) : Dev :=
  d.modHome h (fun m => { m with txns := m.txns.map (fun t => if t.req.line = line then f t else t) })

/-- The entry as it was, without the placeholder of a line in DI. -/
def entryBefore (d : Dev) (h line : Nat) : Option DirEntry :=
  match dirFind (d.home h) line with
  | some p => if p.2.st = .ds ∧ p.2.sharers = 0 then none else some p.2
  | none => none

/-- A transaction ends: the entry takes its next state, the transaction leaves (R380). -/
def closeTxn (h : Nat) (t : Txn) (d : Dev) : Dev :=
  let e := d.entryBefore h t.req.line
  d.modHome h (fun m => putEntry { m with txns := m.txns.filter (fun x => x.req.line != t.req.line) } t.req.line (nextEntry e t))

/-- The line that a write or an atomic leaves (R379): the holder's data, or memory's, merged under the byte enables. -/
def writtenLine (d : Dev) (t : Txn) : LineData :=
  let r := t.req
  let base := (t.dirty.orElse (fun _ => t.memory)).getD (d.backing r.line)
  let new : LineData := match r.kind with
    | .wrFull => { bytes := (r.data ++ List.replicate 64 0).take 64, poison := false }
    | .wrPart => mergeLine base r.off r.data
    | _ => mergeLine base r.off (atomApply r.op ((base.bytes.drop r.off).take (atomLen r.op r.data)) r.data)
  { new with poison := new.poison || r.poison }

/-- Does a transaction's read allocate in the bay cache (R178)? A fill during a write to the line is not installed (R179). -/
def fills (d : Dev) (h : Nat) (t : Txn) : Bool :=
  (decide (t.req.port ≤ 8) || t.req.kind == .atomic) && !t.noFill && !(d.home h).wb.any (fun w => w.line == t.req.line)

/-- A transaction reaches T_ACK (R380): a caching request is granted; any other one returns its data or acknowledgement and
is done. -/
def toAck (c : Ctl) (h : Nat) (t : Txn) (d : Dev) : Dev :=
  let r := t.req
  let src := t.dirty.orElse (fun _ => t.memory)
  let e := d.entryBefore h r.line
  if needsEntry r.kind then
    let clean := match nextEntry e t with | some x => x.st == .ds | none => false
    let d1 := match t.dirty with
      | some l => if clean && t.dirtyBy.isSome && r.kind == .rdShared then homeStore c r.port r.line l d else d
      | none => d
    (modTxn h r.line (fun _ => { t with st := .tAck }) d1).emit (.grant r.port r.line (grantState e t) src)
  else if r.kind = .rdCur then closeTxn h t (d.sendData r.port r.line (src.getD (d.backing r.line)))
  else
    let base := (src.getD (d.backing r.line))
    let d1 := homeStore c r.port r.line (writtenLine d t) d
    let d2 := if r.kind == .atomic && (match r.op with | .add _ => false | _ => true) then
        d1.emit (.bytes r.port (r.line * 64 + r.off) ((base.bytes.drop r.off).take 8) base.poison)
      else if r.port = 16 then d1 else d1.emit (.ack r.port r.line)
    closeTxn h t (if r.kind == .atomic && t.memory.isNone && fills d h t then installBc d2 r.line else d2)

/-- The memory side of a writeback: data stored, the writer removed from a stable entry, WbAck sent (R381). -/
def landWb (c : Ctl) (h : Nat) (w : Wb) (d : Dev) : Dev :=
  let ok := decide (w.agent < 8) || (d.spanMapped .hostCls (w.line * 64) 64 && ptPermits c .hostCls 2 (w.line * 64) 64)
  let d1 := if ok then homeStore c w.agent w.line w.data d else raise c d Fs.addrDecode (dropInfo (w.line * 64) 8 true)
  (d1.modHome h (fun m => { m with wb := m.wb.filter (fun x => !(x.agent == w.agent && x.line == w.line)) })).emit (.wbAck w.agent w.line)

/-- The buffered writeback of an agent that answered RSP_EVICTING (R381, R383). -/
def evictedWb (d : Dev) (h : Nat) (t : Txn) : Option Wb :=
  if t.evicting.isEmpty then none else (d.home h).wb.find? (fun w => w.line == t.req.line && t.evicting.contains w.agent)

/-- No snoop is outstanding: data if there is any, else a writeback, in the buffer already or to come, else memory, else the grant (R380, R381). -/
def advance (c : Ctl) (h : Nat) (t : Txn) (d : Dev) : Dev :=
  if t.dirty.isSome then toAck c h t d
  else match evictedWb d h t with
  | some w => toAck c h { t with dirty := some w.data } (landWb c h w d)
  | none =>
  if !t.evicting.isEmpty then modTxn h t.req.line (fun _ => { t with st := .tWb }) d
  else if needsData t then
    let d1 := modTxn h t.req.line (fun _ => { t with st := .tMem }) d
    match d1.place (t.req.line * 64) with
    | some p => if d1.bcHolds t.req.line then d1 else queueRead (p / 64) d1
    | none => d1
  else toAck c h t d

/-- A buffered writeback is applied to a line without a transaction (R381): DEM to DI, DO to DS. -/
def applyWb (c : Ctl) (h : Nat) (w : Wb) (d : Dev) : Dev :=
  (landWb c h w d).modHome h (fun m =>
    match dirFind m w.line with
    | some p => putEntry m w.line (withoutAgents p.2 [w.agent])
    | none => m)

/-- Open a transaction for a request at the head of its chain (R380). A writeback of the line that is buffered is used as
data, and its writer is not snooped (R383). -/
def openTxn (c : Ctl) (h : Nat) (r : Req) (pre : Option LineData) (d : Dev) : Dev :=
  let e := d.entryBefore h r.line
  let asOwn := r.kind == .upgrade && !mayUpgrade e r.port
  let plan := planOf e r
  let t : Txn := { req := r, st := .tSnp, waiting := plan.2, dirty := pre, asOwn := asOwn }
  let d1 := d.modHome h (fun m =>
    let m1 := match dirFind m r.line with | some p => putEntry m r.line (some { p.2 with nru := true }) | none => m
    { m1 with txns := m1.txns ++ [t], upgRdownCnt := cntIf asOwn m1.upgRdownCnt })
  if plan.2.isEmpty then advance c h t d1 else sendSnoops h plan.1 r.line plan.2 d1

/-- Entries of the overflow queue in use: shared, and kept for port 8 (R374). -/
def overflowShared (m : Home) : Nat := (m.overflow.filter (fun p => !p.1)).length
def overflowKept (m : Home) : Nat := (m.overflow.filter (fun p => p.1)).length

/-- A request whose set has no way waits in the overflow queue, or is answered RETRY, or waits at port 8's ingress (R374). -/
def overflowReq (h : Nat) (r : Req) (d : Dev) : Dev :=
  let m := d.home h
  let put := fun kept => d.modHome h (fun m => { m with overflow := m.overflow ++ [(kept, r)], overflowCnt := cntInc m.overflowCnt })
  if overflowShared m < 56 then put false
  else if r.port < 8 then (d.modHome h (fun m => { m with retryCnt := cntInc m.retryCnt })).emit (.retry r.port r.line)
  else if overflowKept m < 8 then put true
  else d.modHome h (fun m => { m with ingress := m.ingress ++ [r] })

/-- A request reaches the head of its line's chain (R380, R373, R374). -/
def startReq (c : Ctl) (h : Nat) (r : Req) (d : Dev) : Dev :=
  let m := d.home h
  if 128 ≤ m.txns.length then d.modHome h (fun m => { m with ingress := m.ingress ++ [r] }) else
  let d1 := match m.wb.find? (fun w => w.line == r.line) with
    | some w => applyWb c h w d
    | none => d
  let pre := (m.wb.find? (fun w => w.line == r.line)).map Wb.data
  if !needsEntry r.kind || (dirFind (d1.home h) r.line).isSome then openTxn c h r pre d1
  else if canAlloc (d1.home h) r.line then openTxn c h r pre (allocEntry h r.line d1)
  else overflowReq h r d1

/-- The chain of a line goes on while no transaction is open; with nothing waiting, buffered writebacks are applied. Both wait while a row repair
holds the line's block (R165). -/
def settle (c : Ctl) (h line : Nat) : Nat → Dev → Dev
  | 0, d => d
  | n + 1, d =>
    let m := d.home h
    if lineOpen m line then d else
    if readHeld d line then d else
    match m.chain.find? (fun r => r.line == line) with
    | some r => settle c h line n (startReq c h r (d.modHome h (fun m => { m with chain := m.chain.erase r })))
    | none => (m.wb.filter (fun w => w.line == line)).foldl (fun x w => applyWb c h w x) d

/-- A line's chain, with steps enough for every request in it. -/
def runChain (c : Ctl) (h line : Nat) (d : Dev) : Dev := settle c h line ((d.home h).chain.length + 1) d

/-! ## Arrival (R57, R366, R382, R386) -/

/-- Does a request wait for the promotion of its page (R386, R219)? -/
def waitsPage (d : Dev) (r : Req) : Bool :=
  rangeOf (r.line * 64) == .unified && (d.place (r.line * 64)).isNone && reqOwns r.kind

/-- A request that exists and is permitted joins its line's chain or is resolved. -/
def admitReq (c : Ctl) (r : Req) (d : Dev) : Dev :=
  let h := homeOfLine r.line
  if d.waitsPage r || readHeld d r.line then d.modHome h (fun m => { m with ingress := m.ingress ++ [r] })
  else
    let d1 := if reqWrites r.kind then d else d.noteReads (r.line * 64) 64
    if lineOpen (d1.home h) r.line || (d1.home h).chain.any (fun x => x.line == r.line) then
      runChain c h r.line (d1.modHome h (fun m => { m with chain := m.chain ++ [r] }))
    else runChain c h r.line (startReq c h r d1)

/-- A request reaches its home. In the safe state only Silkai's are accepted; the host's are answered with poison (R460). A halted part shows
its host BAR0 alone (R431), and a request of a host that is gone, or goes in its cycle, is discarded (R395); cores that do not run make none (R432). -/
def arrive (c : Ctl) (r : Req) (d : Dev) : Dev :=
  if !portMay r.port r.kind || (r.port == 8 && c.boot.failed) || !arrives d r.port then d
  else if d.fc.entering ∧ r.port ≠ 15 then
    if r.port ≠ 8 then d
    else if reqWrites r.kind then d.emit (.ack 8 r.line) else { (d.sendData 8 r.line (poisonData d)) with free := d.free + 1 }
  else if !(coherent (r.line * 64) && d.spanMapped (portAsker r.port) (r.line * 64) 64 && ptPermits c (portAsker r.port) (reqAccess r) (r.line * 64) 64) then
    refuseReq c d r
  else admitReq c r d

/-- Requests of one cycle for one line, in the order of the rotating pointer (R382). -/
def byPointer (ptr : Nat) (rs : List Req) : List Req := (List.range 16).flatMap (fun i => rs.filter (fun r => r.port == (ptr + i) % 16))

/-- Requests for one line that reach the home in the same cycle (R382). -/
def arriveAll (c : Ctl) (line : Nat) (rs : List Req) (d : Dev) : Dev :=
  let h := homeOfLine line
  let order := byPointer (d.home h).ptr.toNat ((rs.filter (fun r => portMay r.port r.kind)).map (fun r => { r with line := line }))
  match order with
  | [] => d
  | r :: _ => order.foldl (fun x q => arrive c q x) (d.modHome h (fun m => { m with ptr := BitVec.ofNat 4 (r.port + 1) }))

/-! ## Requests that waited (R374) -/

/-- An overflow request is presented again as soon as its set has a way. -/
def retryOverflow (c : Ctl) (h : Nat) (d : Dev) (p : Bool × Req) : Dev :=
  let m := d.home h
  let d1 := d.modHome h (fun m => { m with overflow := m.overflow.erase p })
  if lineOpen m p.2.line then d1.modHome h (fun m => { m with chain := m.chain ++ [p.2] })
  else if (dirFind m p.2.line).isSome || canAlloc m p.2.line then runChain c h p.2.line (startReq c h p.2 d1)
  else d

/-- A request at an ingress is admitted when its page, a transaction and a place are there. -/
def retryIngress (c : Ctl) (h : Nat) (d : Dev) (r : Req) : Dev :=
  let m := d.home h
  let place := !needsEntry r.kind || (dirFind m r.line).isSome || canAlloc m r.line || lineOpen m r.line || decide (overflowShared m < 56) ||
    (r.port == 8 && decide (overflowKept m < 8))
  if d.waitsPage r || readHeld d r.line || decide (128 ≤ m.txns.length) || !place then d
  else admitReq c r (d.modHome h (fun m => { m with ingress := m.ingress.erase r }))

/-- Waiting requests of a home, in arrival order. -/
def represent (c : Ctl) (h : Nat) (d : Dev) : Dev :=
  let d1 := (d.home h).overflow.foldl (retryOverflow c h) d
  (d1.home h).ingress.foldl (retryIngress c h) d1

/-! ## Responses and writebacks (R375, R380, R381) -/

/-- A holder's response to a transaction's snoop. -/
def respondTxn (c : Ctl) (h : Nat) (t : Txn) (agent : Nat) (rsp : SnoopRsp) (l : LineData) (d : Dev) : Dev :=
  let w := (d.home h).wb.find? (fun w => w.line == t.req.line && w.agent == agent)
  let t1 := { t with waiting := t.waiting.erase agent }
  let d1 := d.modHome h (fun m => { m with staleMissCnt := cntIf (rsp == .miss) m.staleMissCnt, evictingCnt := cntIf (rsp == .evicting) m.evictingCnt })
  let d2 := match rsp, w with
    | .evicting, some x => landWb c h x d1
    | _, _ => d1
  let t2 := match rsp, w with
    | .miss, _ => { t1 with missed := t1.missed ++ [agent] }
    | .clean, _ => t1
    | .data, _ => { t1 with dirty := some l, dirtyBy := some agent }
    | .evicting, some x => { t1 with dirty := some x.data, evicting := t1.evicting ++ [agent] }
    | .evicting, none => { t1 with evicting := t1.evicting ++ [agent] }
  let d3 := modTxn h t.req.line (fun _ => t2) d2
  if t2.waiting.isEmpty then advance c h t2 d3 else d3

/-- An eviction with nothing outstanding ends: dirty data is written, the line is in DI (R375). -/
def finishEvict (c : Ctl) (h : Nat) (e : Evict) (d : Dev) : Dev :=
  if !e.waiting.isEmpty || !e.evicting.isEmpty then
    d.modHome h (fun m => { m with evicts := m.evicts.map (fun x => if x.entry.line = e.entry.line then e else x) })
  else
    let d1 := match e.dirty with
      | some l => homeStore c e.entry.owner e.entry.line l d
      | none => d
    d1.modHome h (fun m => { m with evicts := m.evicts.filter (fun x => x.entry.line != e.entry.line) })

/-- A holder's response to a back-invalidation. -/
def respondEvict (c : Ctl) (h : Nat) (e : Evict) (agent : Nat) (rsp : SnoopRsp) (l : LineData) (d : Dev) : Dev :=
  let w := (d.home h).wb.find? (fun w => w.line == e.entry.line && w.agent == agent)
  let e1 := { e with waiting := e.waiting.erase agent }
  let d1 := d.modHome h (fun m => { m with staleMissCnt := cntIf (rsp == .miss) m.staleMissCnt, evictingCnt := cntIf (rsp == .evicting) m.evictingCnt })
  match rsp, w with
  | .data, _ => finishEvict c h { e1 with dirty := some l } d1
  | .evicting, some x => finishEvict c h e1 (landWb c h x d1)
  | .evicting, none => finishEvict c h { e1 with evicting := e1.evicting ++ [agent] } d1
  | _, _ => finishEvict c h e1 d1

/-- A snoop response reaches the home; one that nothing waits for has no effect. -/
def respond (c : Ctl) (agent line : Nat) (rsp : SnoopRsp) (l : LineData) (d : Dev) : Dev :=
  let h := homeOfLine line
  let m := d.home h
  match m.txns.find? (fun t => t.req.line == line && t.waiting.contains agent), m.evicts.find? (fun e => e.entry.line == line && e.waiting.contains agent) with
  | some t, _ => represent c h (runChain c h line (respondTxn c h t agent rsp l d))
  | none, some e => represent c h (runChain c h line (respondEvict c h e agent rsp l d))
  | none, none => d

/-- Has an agent a writeback credit at a home: 16 of its own, else one of the 48 shared, 192 in all (R381)? -/
def wbRoom (m : Home) (agent : Nat) : Bool :=
  let used := fun (a : Nat) => (m.wb.filter (fun w => w.agent == a)).length
  decide (used agent < 16) || decide (((List.range 9).map (fun a => used a - 16)).sum < 48)

/-- A writeback reaches its home (R381): consumed by the transaction or eviction that waits for it, else buffered. -/
def takeWb (c : Ctl) (w : Wb) (d : Dev) : Dev :=
  let h := homeOfLine w.line
  let m := d.home h
  match m.txns.find? (fun t => t.req.line == w.line && t.st == .tWb && t.evicting.contains w.agent),
      m.evicts.find? (fun e => e.entry.line == w.line && e.evicting.contains w.agent) with
  | some t, _ => toAck c h { t with dirty := some w.data } (landWb c h w d)
  | none, some e => finishEvict c h { e with evicting := e.evicting.erase w.agent } (landWb c h w d)
  | none, none => d.modHome h (fun m => { m with wb := m.wb ++ [w] })

end Dev

/-! ## Rows of the home -/

/-- Requests reach the home; then whatever waited is presented again. -/
def devRequests (line : Nat) (rs : List Req) (c : Ctl) (d : Dev) : Dev := Dev.represent c (homeOfLine line) (Dev.arriveAll c line rs d)

def execRdshared (port : Fin 16) (line : Nat) (same : List Req) (s : State) : Host.Outcome State Fault Refusal :=
  onClocked (devRequests line ({ port := port.val, kind := .rdShared, line := line } :: same)) s

def execRdown (port : Fin 16) (line : Nat) (same : List Req) (s : State) : Host.Outcome State Fault Refusal :=
  onClocked (devRequests line ({ port := port.val, kind := .rdOwn, line := line } :: same)) s

def execUpgrade (port : Fin 16) (line : Nat) (same : List Req) (s : State) : Host.Outcome State Fault Refusal :=
  onClocked (devRequests line ({ port := port.val, kind := .upgrade, line := line } :: same)) s

def execRdcur (port : Fin 16) (line : Nat) (same : List Req) (s : State) : Host.Outcome State Fault Refusal :=
  onClocked (devRequests line ({ port := port.val, kind := .rdCur, line := line } :: same)) s

def execWrfull (port : Fin 16) (line : Nat) (data : List Byte) (same : List Req) (s : State) : Host.Outcome State Fault Refusal :=
  onClocked (devRequests line ({ port := port.val, kind := .wrFull, line := line, data := data } :: same)) s

def execWrpart (port : Fin 16) (line : Nat) (off : Fin 64) (data : List Byte) (same : List Req) (s : State) : Host.Outcome State Fault Refusal :=
  onClocked (devRequests line ({ port := port.val, kind := .wrPart, line := line, off := off.val, data := data } :: same)) s

def execAtomic (port : Fin 16) (line : Nat) (off : Fin 64) (op : AtomOp) (data : List Byte) (same : List Req) (s : State) : Host.Outcome State Fault Refusal :=
  onClocked (devRequests line ({ port := port.val, kind := .atomic, line := line, off := off.val, data := data, op := op } :: same)) s

/-- A writeback enters the buffer before the requests of its cycle (R381, R383). One of a host that is gone is discarded (R395), and none comes
without a credit. -/
def devWbdirty (agent line : Nat) (data : List Byte) (same : List Req) (c : Ctl) (d : Dev) : Dev :=
  let h := homeOfLine line
  let w : Wb := { agent := agent, line := line, data := { bytes := (data ++ List.replicate 64 0).take 64, poison := decide (agent < 8) && (d.cacheLine agent line).data.poison } }
  if d.fc.entering then (if agent = 8 then d.emit (.wbAck 8 line) else d)
  else if (agent == 8 && !hostUp d) || !Dev.wbRoom (d.home h) agent then d else
  let d1 := Dev.takeWb c w d
  Dev.represent c h (Dev.runChain c h line (Dev.arriveAll c line same d1))

def execWbdirty (agent : Fin 9) (line : Nat) (data : List Byte) (same : List Req) (s : State) : Host.Outcome State Fault Refusal :=
  onClocked (devWbdirty agent.val line data same) s

/-- The host drops a clean line (R372). -/
def devMemClnEvct (line : Nat) (_ : Ctl) (d : Dev) : Dev :=
  d.modHome (homeOfLine line) (fun m =>
    match Dev.dirFind m line with
    | none => m
    | some p =>
      if p.2.st = .downed ∧ p.2.owner = 8 then m
      else if Dev.lineOpen m line then Dev.putEntry m line (some { p.2 with sharers := Dev.dropSharers p.2.sharers [8] })
      else Dev.putEntry m line (Dev.withoutAgents p.2 [8]))

def execMemclnevct (line : Nat) (s : State) : Host.Outcome State Fault Refusal := onWork (devMemClnEvct line) s

def execSnoopResponse (agent : Fin 9) (line : Nat) (rsp : SnoopRsp) (data : List Byte) (poison : Bool) (s : State) : Host.Outcome State Fault Refusal :=
  onWork (fun c d => Dev.respond c agent.val line rsp { bytes := (data ++ List.replicate 64 0).take 64, poison := poison } d) s

/-- GrantAck closes the transaction first; then the chain, then the requests of its cycle (R380, R383). -/
def devGrantAck (port line : Nat) (same : List Req) (c : Ctl) (d : Dev) : Dev :=
  let h := homeOfLine line
  let d1 := match (d.home h).txns.find? (fun t => t.req.line == line && t.st == .tAck && t.req.port == port) with
    | some t =>
      let x := Dev.closeTxn h t d
      Dev.runChain c h line (if port = 8 then x.modHost (fun p => { p with ahead := [] }) else x)
    | none => d
  Dev.represent c h (Dev.arriveAll c line same d1)

def execGrantack (port : Fin 9) (line : Nat) (same : List Req) (s : State) : Host.Outcome State Fault Refusal := onWork (devGrantAck port.val line same) s

/-- A write to COH_DIR_PROBE: the lookup's answer (R370). -/
def Dev.txnCode : TxnState → Nat
  | .tSnp => 8
  | .tWb => 9
  | .tMem => 10
  | .tAck => 11

/-- The 64-bit word of an entry, its state code given (R370). -/
def Dev.entryWord (e : DirEntry) (code : Nat) : Nat :=
  e.line / 32768 % 2 ^ 27 + code * 2 ^ 27 + e.sharers.toNat * 2 ^ 31 + e.owner % 16 * 2 ^ 40 + b2n e.nru * 2 ^ 44 + 2 ^ 63

/-- What a lookup of a line finds (R370, R371, R375). -/
def Dev.probeLine (m : Home) (line : Nat) : Nat :=
  match dirFind m line, m.evicts.find? (fun e => e.entry.line == line) with
  | some p, _ =>
    let code := match m.txns.find? (fun t => t.req.line == line) with
      | some t => txnCode t.st
      | none => match p.2.st with
        | .ds => 1
        | .dem => 2
        | .downed => 3
    entryWord p.2 code
  | none, some e => entryWord e.entry 12
  | none, none => 0

def devDirProbe (h v : Nat) (_ : Ctl) (d : Dev) : Dev := d.modHome h (fun m => { m with probe := BitVec.ofNat 64 (Dev.probeLine m (bits v 0 48 / 64)) })

def execCohDirProbeWrite (home : Fin 8) (port : Fin 16) (value : W64) (s : State) : Host.Outcome State Fault Refusal :=
  onClocked (guardCsr port.val (0x3F0005000010 + home.val * 0x100000) 8 (devDirProbe home.val value.toNat)) s

/-! ## Memory data (R153, R178, R179, R184, R380) -/

/-- A transfer from board GDDR (R184): `failed` says that the fourth try failed its CRC too, and the read returns poison; else a retry
was good. -/
def gddrErr (c : Ctl) (p : Nat) (failed : Bool) (l : LineData) (d : Dev) : LineData × Dev :=
  if failed then ({ l with poison := true }, raise c d Fs.gddrUe (p * 64)) else (l, d.modNear (fun n => { n with gddrRetries := cntInc n.gddrRetries }))

/-- Does a physical line lie in the placed view of a port that is down, so that its reads return poison (R190)? -/
def portDown (d : Dev) (p : Nat) : Bool :=
  match rangeOf (p * 64) with
  | .farPlaced n => !(d.cxl n).up
  | _ => false

/-- A read of a physical line that reaches a stack or the board GDDR: `ecc` 0 sound, 1 corrected, 2 uncorrectable. A stack line served from
the copy in board GDDR keeps its check bits (R168), and its transfer may also be retried, 3, or fail, 4 (R184). -/
def readErr (c : Ctl) (p ecc : Nat) (l : LineData) (d : Dev) : LineData × Dev :=
  if inStack p then
    if (ecc = 3 ∨ ecc = 4) ∧ d.servedByGddr p then gddrErr c p (decide (ecc = 4)) l d
    else if ecc = 2 ∨ l.poison then ({ l with poison := true }, noteUe c d p)
    else if ecc = 1 then (l, noteCe c p d) else (l, d)
  else if rangeOf (p * 64) == .gddr then
    if ecc = 1 ∨ ecc = 3 then gddrErr c p false l d else if ecc = 2 ∨ ecc = 4 then gddrErr c p true l d else (l, d)
  else ({ l with poison := l.poison || decide (ecc = 2) || portDown d p }, d)

/-- The bay-cache half finds an uncorrectable error in the line that a read would hit: `ecc` 5 in its data, 6 in a tag of its set; the
stack then serves the read (R180). -/
def bcCheck (c : Ctl) (line ecc : Nat) (d : Dev) : Dev :=
  match d.place (line * 64) with
  | some a => if (ecc = 5 ∨ ecc = 6) ∧ d.bcHolds line then bcError c (a / 64) (decide (ecc = 6)) d else d
  | none => d

/-- Memory's data for a transaction: from the bay cache, a stack, or a FAR page's blocks; one bad without sources is recorded (R220). DESIGN CHOICE
(log 151): a poisoned line whose name is in the bay-cache half counts as a hit there, and is read from the stack, whose error is recorded
(R153, R177). -/
def memoryData (c : Ctl) (h ecc : Nat) (t : Txn) (d : Dev) : LineData × Dev :=
  let r := t.req
  let l := d.backing r.line
  match d.place (r.line * 64) with
  | some a =>
    let hit := d.bcHolds r.line && !l.poison
    let d1 := countBc (Dev.fills d h t) d r.line
    if hit then (l, d1) else readErr c (a / 64) ecc l d1
  | none =>
    (l, if l.poison then noteFarBad c (r.line * 64) 64 d else d)

/-- The return of a line that an engine of the part reads through its home, in the step before the engine's own: the errors of R153,
R180 and R184 that the read meets. DESIGN CHOICE (log 132): the engine's read then takes the poison. -/
def engineReturn (c : Ctl) (line ecc : Nat) (d : Dev) : Dev :=
  match d.place (line * 64) with
  | none => d
  | some a =>
    let r := readErr c (a / 64) ecc { d.backing line with poison := false } (bcCheck c line ecc d)
    if r.1.poison then r.2.modNear (fun n => { n with badReads := if n.badReads.contains (a / 64) then n.badReads else n.badReads ++ [a / 64] }) else r.2

/-- The copy of the pseudo-channel that holds a line has gone on by the time the line returns (R169). -/
def copyOnRead (line : Nat) (d : Dev) : Dev :=
  match d.place (line * 64) with
  | some a => if inStack (a / 64) then copyMoves (d.pcOfLine (a / 64)) d else d
  | none => d

/-- A read has left the queue of its pseudo-channel (R152). -/
def leaveQueue (line : Nat) (d : Dev) : Dev :=
  match d.place (line * 64) with
  | some a => readServed (a / 64) d
  | none => d

/-- Memory's data reaches the transaction of a line (R380). -/
def deliver (c : Ctl) (h line : Nat) (t : Txn) (l : LineData) (d : Dev) : Dev :=
  leaveQueue line (Dev.represent c h (Dev.runChain c h line (Dev.toAck c h { t with memory := some l } d)))

/-- Memory data returns to the transaction of a line (R380), or to an engine's read; nothing returns from a held block; a bad block of a
FAR page with sources is held for its repair (R220). In the safe state board GDDR alone still returns, to Silkai (R460). -/
def devMemoryReturn (h line ecc : Nat) (c : Ctl) (d0 : Dev) : Dev :=
  if readHeld d0 line || (d0.fc.entering && rangeOf (line * 64) != .gddr) then d0 else
  let d := copyOnRead line d0
  match (d.home h).txns.find? (fun t => t.req.line == line && t.st == .tMem) with
  | none => engineReturn c line ecc d
  | some t =>
    let held := holdOnPages c d (line * 64) 64
    if held.1 then held.2 else
    let r := memoryData c h ecc t (bcCheck c line ecc d)
    if r.2.fc.entering && !d.fc.entering then r.2 else deliver c h line t r.1 r.2

def execMemoryDataReturn (home : Fin 8) (line : Nat) (ecc : Fin 7) (s : State) : Host.Outcome State Fault Refusal := onClocked (devMemoryReturn home.val line ecc.val) s

/-! ## A far-tier time-out (R226) -/

/-- A CXL.mem completion times out: the read returns poison, to the transaction that waits for the line or to the engine that reads it next; on
a tie the completion wins (R226, R463). -/
def devFarTimeout (n a : Nat) (tie : Bool) (c : Ctl) (d : Dev) : Dev :=
  if tie then d.modFc (fun f => { f with tieCnt := cntInc f.tieCnt })
  else
    let h := homeOfLine (a / 64)
    let d1 := match (d.home h).txns.find? (fun t => t.req.line == a / 64 && t.st == .tMem) with
      | some t => deliver c h (a / 64) t { bytes := List.replicate 64 0, poison := true } d
      | none => d.modNear (fun m => { m with badReads := if m.badReads.contains (a / 64) then m.badReads else m.badReads ++ [a / 64] })
    raise c d1 (Fs.farTimeout n) a

def execFarTimeout (cxl : Fin 4) (addr : BitVec 48) (tie : Bool) (s : State) : Host.Outcome State Fault Refusal := onClocked (devFarTimeout cxl.val addr.toNat tie) s

/-! ## Promotion lets waiting requests in (R219, R386) -/

def devPromotionEnds (n : Nat) (c : Ctl) (d : Dev) : Dev := foldRange 8 (devPromoteDone n c d) (fun h x => Dev.represent c h x)

def execPagePromoteDone (page : Nat) (s : State) : Host.Outcome State Fault Refusal := onWork (devPromotionEnds page) s

/-! ## A row repair lets waiting requests in (R165) -/

/-- The accesses that waited for a held block go on: chains, writebacks, then what waited at the ingress. -/
def letIn (c : Ctl) (h : Nat) (d : Dev) : Dev :=
  let m := d.home h
  Dev.represent c h ((m.chain.map Req.line ++ m.wb.map Wb.line).eraseDups.foldl (fun x l => Dev.runChain c h l x) d)

def execSoftPprDone (stack : Fin 8) (s : State) : Host.Outcome State Fault Refusal :=
  onWork (fun c d => if (d.nearCtl stack.val).ppr.isNone then d else foldRange 8 (devPprDone stack.val c d) (letIn c)) s

end Sys2Proof.Machine
end

