-- ==== Sys2Proof/Machine/PlaneMath.lean ====
section
/-! DEFINITION. The arithmetic of an optimiser step: the FP64 constants of R277 and the FP32 update of R279. -/

namespace Sys2Proof.Machine

open Sys2Proof

/-- A value rounded to FP64, RNE. -/
def r64 (x : Fl) : Fl := rnd fp64 x
/-- FP64 sum. -/
def add64 (x y : Fl) : Fl := r64 (x.add y)
/-- FP64 difference. -/
def sub64 (x y : Fl) : Fl := r64 (x.sub y)
/-- FP64 product. -/
def mul64 (x y : Fl) : Fl := r64 (x.mul y)
/-- FP64 quotient. -/
def div64 (x y : Fl) : Fl := r64 (x.div y)
/-- FP64 square root. -/
def sqrt64 (x : Fl) : Fl := r64 x.sqrt
/-- The FP64 value of an encoding. -/
def f64 (w : Nat) : Fl := decodeFl fp64 w
/-- The FP64 encoding of a value. -/
def to64 (x : Fl) : Nat := encodeFl fp64 none x

/-- Squaring and multiplying over the bits of `t` below bit `i`, from the most significant down (R277). -/
def powBits (b : Fl) (t : Nat) : Nat → Fl → Fl
  | 0, r => r
  | i + 1, r => let r := mul64 r r; powBits b t i (if bitAt t i then mul64 r b else r)

/-- `b^t` in FP64 by exponentiation by squaring (R277), for t at least 1. -/
def pow64 (b : Fl) (t : Nat) : Fl := if t = 0 then .one else powBits b t (Nat.log2 t) b

/-- The values of an optimiser entry that the arithmetic uses, as FP32 encodings (R278). -/
structure OptVals where
  alg : Nat
  nesterov : Bool
  eta : Nat
  lam : Nat
  beta1 : Nat
  beta2 : Nat
  eps : Nat
  mu : Nat
  gamma : Nat
  deriving DecidableEq, Repr

/-- The constants of one panel update (R277). -/
structure UpdConst where
  c : Fl
  etaLam : Fl
  alpha : Fl
  ib2 : Fl
  nb1 : Fl
  nb2 : Fl
  ng : Fl

/-- The constants formed in FP64 and rounded once to FP32 (R277): `kappa` an FP64 and `scale` an FP32 encoding, `t = T + 1`. -/
def updConst (o : OptVals) (wdEn : Bool) (kappa scale d t : Nat) : UpdConst :=
  let b1 := f32 o.beta1
  let b2 := f32 o.beta2
  { c := r32 (div64 (f64 kappa) (mul64 (f32 scale) (Fl.ofNat d)))
    etaLam := if wdEn then r32 (mul64 (f32 o.eta) (f32 o.lam)) else .zero
    alpha := r32 (div64 (f32 o.eta) (sub64 .one (pow64 b1 t)))
    ib2 := r32 (div64 .one (sub64 .one (pow64 b2 t)))
    nb1 := r32 (sub64 .one b1)
    nb2 := r32 (sub64 .one b2)
    ng := r32 (sub64 .one (f32 o.gamma)) }

/-- The state of one parameter, decoded. -/
structure ParamState where
  w : Fl
  m : Fl
  v : Fl
  e : Fl

/-- Store and reread a second moment or EMA that may be kept as BF16 (R279). -/
def storedAs (bf : Bool) (x : Fl) : Fl := if bf then rnd bf16 x else x

/-- The update of one parameter by its gradient value (R279). -/
def updParam (o : OptVals) (k : UpdConst) (vBf16 emaEn emaBf16 : Bool) (gv : Fl) (s : ParamState) : ParamState :=
  let g := mul32 gv k.c
  let w1 := fma32 k.etaLam.neg s.w s.w
  let (w', m', v') :=
    match o.alg with
    | 0 =>
      let m' := fma32 (f32 o.beta1) s.m (mul32 k.nb1 g)
      let v' := storedAs vBf16 (fma32 (f32 o.beta2) s.v (mul32 k.nb2 (mul32 g g)))
      let d := add32 (sqrt32 (mul32 v' k.ib2)) (f32 o.eps)
      (fma32 k.alpha.neg (div32 m' d) w1, m', v')
    | 1 =>
      let kk := fma32 (f32 o.beta1) s.m (mul32 k.nb1 g)
      let u := if kk.isNan then Fl.nan else if Fl.zero.lt kk then .one else if kk.lt .zero then Fl.one.neg else .zero
      (fma32 (f32 o.eta).neg u w1, fma32 (f32 o.beta2) s.m (mul32 k.nb2 g), s.v)
    | _ =>
      let m' := fma32 (f32 o.mu) s.m g
      let u := if o.nesterov then fma32 (f32 o.mu) m' g else m'
      (fma32 (f32 o.eta).neg u w1, m', s.v)
  let e' := if emaEn then storedAs emaBf16 (fma32 (f32 o.gamma) s.e (mul32 k.ng w')) else s.e
  { w := w', m := m', v := v', e := e' }

end Sys2Proof.Machine
end

