-- ==== Sys2Proof/Machine/Ledger.lean ====
section
/-! DEFINITION. Panel headers, ledger slots and the sealed ring (07), contributions in arrival and in index order, run records and
the settling of slots (08, 09). -/

namespace Sys2Proof.Machine

open Sys2Proof

/-! ## Panel headers (R260) -/

/-- A panel header. -/
structure Panel where
  idx : Nat
  commit : Nat
  id : Nat
  layer : Nat
  /-- 0 owner, 1 twin, 2 replica -/
  role : Nat
  far : Bool
  lag : Nat
  optSet : Nat
  vBf16 : Bool
  emaEn : Bool
  emaBf16 : Bool
  sr : Bool
  wdEn : Bool
  sealOn : Bool
  untwinned : Bool
  nparam : Nat
  streamId : Nat
  sigCtr : Nat
  sigGroup : Nat
  replGroup : Nat
  twinHdr : Nat
  ledger : Nat
  expect : Nat
  pub : Nat
  /-- MASTER, M, V, EMA, IMAGE of VERSION[0] and of VERSION[1] -/
  ver0 : List Nat
  ver1 : List Nat
  deriving DecidableEq, Repr

/-- The header that 32 words hold. -/
def panelOfWords (idx : Nat) (ws : List Nat) : Panel :=
  let w := wordAt ws
  { idx := idx, commit := w 0, id := bits (w 1) 0 20, layer := bits (w 1) 20 16, role := bits (w 1) 36 2, far := bitAt (w 1) 38, lag := bits (w 1) 39 3,
    optSet := bits (w 1) 42 4, vBf16 := bitAt (w 1) 46, emaEn := bitAt (w 1) 47, emaBf16 := bitAt (w 1) 48, sr := bitAt (w 1) 49, wdEn := bitAt (w 1) 50,
    sealOn := bitAt (w 1) 51, untwinned := bitAt (w 1) 52, nparam := bits (w 2) 0 32, streamId := bits (w 2) 32 16, sigCtr := bits (w 3) 0 12,
    sigGroup := bits (w 3) 12 16, replGroup := bits (w 3) 28 16, twinHdr := w 4, ledger := bits (w 5) 0 48, expect := w 6, pub := bits (w 7) 0 48,
    ver0 := (List.range 5).map (fun i => bits (w (8 + i)) 0 48), ver1 := (List.range 5).map (fun i => bits (w (16 + i)) 0 48) }

/-- Address of header `idx` (R260). -/
def panelAddr (d : Dev) (idx : Nat) : Nat := (d.plane 0).panelBase.toNat + idx * 256

/-- The header at a table index. -/
def panelAt (d : Dev) (idx : Nat) : Panel := panelOfWords idx (wordsOf (d.peekBytes (panelAddr d idx) 256))

/-- Every header defined, by index. -/
def panels (d : Dev) : List Panel := (tabKeys d.opt.panels).map (panelAt d)

/-- Fields of the commit word (R264). -/
def Panel.sel (p : Panel) : Nat := p.commit % 2
def Panel.valid (p : Panel) : Bool := bitAt p.commit 1
def Panel.t (p : Panel) : Nat := bits p.commit 8 32
def Panel.applied (p : Panel) : Nat := bits p.commit 40 24
def Panel.version (p : Panel) (k : Nat) : List Nat := if k = 0 then p.ver0 else p.ver1

/-- The owner panel of a PANEL_ID (R328). -/
def ownerPanel (d : Dev) (id : Nat) : Option Panel :=
  match tabFind d.opt.panelIndex id with
  | some i => let p := panelAt d i; if p.role = 0 ∧ p.id = id then some p else none
  | none => none

/-! ## Slots (R266, R267) -/

def Panel.slots (p : Panel) : Nat := if p.far then p.lag + 1 else 1
def Panel.slotOf (p : Panel) (step : Nat) : Nat := step % p.slots
def slotAddr (p : Panel) (j : Nat) : Nat := p.ledger + 64 * j

/-- A slot header. -/
structure LedgerSlot where
  step : Nat
  state : Nat
  arrived : Nat
  frame : Nat
  map : Nat
  deriving DecidableEq, Repr

def slotAt (d : Dev) (p : Panel) (j : Nat) : LedgerSlot :=
  let w := wordAt (wordsOf (d.peekBytes (slotAddr p j) 64))
  { step := w 0, state := bits (w 1) 0 3, arrived := w 2, frame := bits (w 3) 0 18, map := bits (w 4) 0 48 }

def putSlot (p : Panel) (j : Nat) (s : LedgerSlot) (d : Dev) : Dev :=
  d.poke (slotAddr p j) ([s.step, s.state, s.arrived, s.frame, s.map].flatMap (natLE 8))

/-- Frames of a sealed-ring slot (R272). -/
def Panel.frames (p : Panel) : Nat := ceilDiv (p.nparam * 4) 0x200000

/-- Pieces of a slot's data: address and length for `n` bytes at byte `off` of the slot (R266, R272). -/
def slotSpans (d : Dev) (p : Panel) (j off n : Nat) : List (Nat × Nat) :=
  if n = 0 then []
  else if !p.sealOn then [(p.ledger + 4096 + j * p.nparam * 4 + off, n)]
  else
    let f := (slotAt d p j).frame
    (List.range ((off + n - 1) / 0x200000 - off / 0x200000 + 1)).map (fun i =>
      let k := off / 0x200000 + i
      let lo := max off (k * 0x200000)
      (d.opt.ringBase.toNat + (f + k) % d.opt.ringFrames.toNat * 0x200000 + lo % 0x200000, min (off + n) ((k + 1) * 0x200000) - lo))

def readSlot (d : Dev) (p : Panel) (j off n : Nat) : List Byte := (slotSpans d p j off n).flatMap (fun s => d.peekBytes s.1 s.2)

/-- Write bytes at byte `off` of a slot's data. -/
def writeSlot (p : Panel) (j off : Nat) (bs : List Byte) (d : Dev) : Dev :=
  ((slotSpans d p j off bs.length).foldl (fun (a : Dev × List Byte) s => (a.1.poke s.1 (a.2.take s.2), a.2.drop s.2)) (d, bs)).1

/-- Key of a run record (R346). -/
def runKey (idx j run : Nat) : Nat := idx * 2 ^ 40 + j * 2 ^ 32 + run
def runRec (d : Dev) (idx j run : Nat) : RunRec := tabGet {} d.aux.runs (runKey idx j run)

/-- Owner panels. -/
def ownerPanels (d : Dev) : List Panel := (panels d).filter (fun p => p.role == 0)

/-- Runs of a slot of a panel, and bytes that the cursors and run records of an owner panel take: 2 and 16 for each run of each slot (R333,
R346). -/
def Panel.runs (p : Panel) : Nat := p.nparam / 1024
def areaOf (p : Panel) : Nat := if p.role = 0 then p.nparam / 1024 * 18 * p.slots else 0

/-- Place of a panel's cursors in the ordered-reduction area, its run records after them. DESIGN CHOICE (log 142): firmware places them, and
the model has owner panels follow one another in table order from ORS_AREA + 128 MiB (R333, R346, R424). -/
def runBase (d : Dev) (idx : Nat) : Nat := d.aux.oraBase + 0x8000000 + (((ownerPanels d).filter (fun q => decide (q.idx < idx))).map areaOf).sum

/-- Cursor and run record of a run as memory holds them (R333, R346). -/
def putRun (p : Panel) (j run : Nat) (d : Dev) : Dev :=
  if d.aux.oraLen < 0x8000000 then d else
  let b := runBase d p.idx
  let k := j * p.runs + run
  let r := runRec d p.idx j run
  (d.poke (b + 2 * k) (natLE 2 r.cursor)).poke (b + 2 * p.runs * p.slots + 16 * k) (natLE 8 (r.tally % 2 ^ 16 + b2n r.squared * 2 ^ 16) ++ natLE 8 r.sq)

/-- Every run of a slot as memory holds it. -/
def putRuns (p : Panel) (j : Nat) (d : Dev) : Dev := foldRange p.runs d (fun run x => putRun p j run x)

def modRun (p : Panel) (j run : Nat) (f : RunRec → RunRec) (d : Dev) : Dev :=
  putRun p j run (d.modAux (fun x => { x with runs := tabMod {} x.runs (runKey p.idx j run) f }))

/-! ## The sealed ring (R272, R273) -/

/-- Frames `first` to `first + n - 1` of the ring, wrapping. -/
def ringList (d : Dev) (first n : Nat) : List Nat := (List.range n).map (fun i => (first + i) % d.opt.ringFrames.toNat)

/-- Ring frames of an opening slot, if all are free. -/
def takeFrames (d : Dev) (n : Nat) : Option (Nat × Dev) :=
  let l := ringList d d.opt.ringHead n
  if d.opt.ringFrames.toNat < n ∨ l.any (fun f => (tabFind d.opt.ringUsed f).isSome) then none
  else some (d.opt.ringHead, d.modOpt (fun o =>
    { o with ringUsed := l.foldl (fun t f => tabPut t f true) o.ringUsed, ringHead := (o.ringHead + n) % o.ringFrames.toNat }))

/-- Frames of a slot are zeroed and freed. -/
def giveFrames (p : Panel) (j : Nat) (d : Dev) : Dev :=
  let l := ringList d (slotAt d p j).frame p.frames
  let d1 := l.foldl (fun x f => x.poke (d.opt.ringBase.toNat + f * 0x200000) (List.replicate 0x200000 0)) d
  d1.modOpt (fun o => { o with ringUsed := l.foldl tabDel o.ringUsed })

/-- Free every segment that an image's map names and set its ENTRIES to 0 (R255, R283). A stale entry names none (R199). -/
def freeImage (m : Nat) (d : Dev) : Dev :=
  let n := d.peek32 m
  let segs := (List.range n).filterMap (fun i =>
    let w := d.peek64 (m + 64 + 8 * i)
    let id := bits w 0 21
    if (d.seg id).state ≠ 0 ∧ (d.seg id).gen.toNat % 2048 = bits w 21 11 then some id else none)
  (segs.foldl Dev.releaseSeg d).poke32 m 0

/-! ## Stored contributions (R332, R333) -/

/-- The next contribution in index order that a cursor can take from the ordered-reduction slots (R332). -/
def orsAt (d : Dev) (idx step run mb : Nat) : Option OrsSlot :=
  d.aux.ors.find? (fun o => o.panel == idx && o.step == step && o.run == run && o.mb == mb)

/-- A stored contribution leaves its slot, and RX_ORS of its flow follows (R332). -/
def dropOrs (o : OrsSlot) (d : Dev) : Dev :=
  (d.modAux (fun x => { x with ors := x.ors.erase o })).modFlow o.flow (fun f => { f with rxOrs := f.rxOrs - 1 })

/-- The lowest slot of a home that holds no contribution. -/
def freeOrs (d : Dev) (home : Nat) : Option Nat :=
  (List.range 4096).find? (fun k => !d.aux.ors.any (fun o => o.home == home && o.place == k))

/-- Where a stored contribution lies: slots of home h lie at ORS_AREA + h × 16 MiB (R333, R424). -/
def orsAddr (d : Dev) (o : OrsSlot) : Nat := d.aux.oraBase + o.home * 0x1000000 + o.place * 4096

/-- A contribution is stored in a slot of its home by one write of 4 KiB, undefined beyond the contribution (R333). -/
def storeOrs (o : OrsSlot) (data : List Byte) (poison : Bool) (d : Dev) : Dev :=
  let a := orsAddr d o
  let w : Dev := { d.poke a ((data ++ Dev.undefBytes d.free (4096 - data.length)).take 4096) with free := d.free + 1 }
  let d1 := if poison then (Memory.linesOf a 4096).foldl (fun x l => x.pokePoison l) w else w
  (d1.modAux (fun x => { x with ors := x.ors ++ [o], orsWaitCnt := cntInc x.orsWaitCnt })).modFlow o.flow (fun f => { f with rxOrs := f.rxOrs + 1 })

/-- A stored contribution is read from its home by one read of 4 KiB: its bytes, and whether they are poisoned (R333). -/
def readOrs (c : Ctl) (o : OrsSlot) (d : Dev) : List Byte × Bool × Dev :=
  let r := readSpan c d (orsAddr d o) 4096
  (r.1.take o.len, r.2.1, r.2.2)

/-- The cursor of a run as its home holds it (R331, R333). -/
def cursorOf (d : Dev) (p : Panel) (j run : Nat) : Nat :=
  if d.aux.oraLen < 0x8000000 then (runRec d p.idx j run).cursor else leNat (d.peekBytes (runBase d p.idx + 2 * (j * p.runs + run)) 2)

/-! ## Freeing a slot (R271) -/

/-- A slot becomes FREE: data zeroed or the sealed image freed, ARRIVED 0, its run records zeroed (R346). -/
def freeSlot (p : Panel) (j : Nat) (d : Dev) : Dev :=
  let s := slotAt d p j
  let d1 := if s.state = 0 then d
    else if !p.sealOn then writeSlot p j 0 (List.replicate (p.nparam * 4) 0) d
    else if s.state = 3 ∨ (s.state = 4) then freeImage s.map d
    else giveFrames p j d
  let lo := runKey p.idx j 0
  let d2 := (d1.aux.ors.filter (fun o => o.panel == p.idx && o.step == s.step)).foldl (fun x o => dropOrs o x) d1
  let d3 := d2.modAux (fun x =>
    { x with runs := x.runs.filter (fun r => !(decide (lo ≤ r.1) && decide (r.1 < lo + 2 ^ 32))), openers := x.openers.filter (fun o => o != (p.idx, s.step)) })
  putSlot p j { s with state := 0, arrived := 0 } (putRuns p j d3)

/-- Owner slots that hold a step, each with its panel, in table order. -/
def stepSlots (d : Dev) (step : Nat) : List (Panel × Nat) :=
  (ownerPanels d).filterMap (fun p =>
    let j := p.slotOf step
    let s := slotAt d p j
    if s.state ≠ 0 ∧ s.step = step then some (p, j) else none)

/-- Every owner slot of a step becomes FREE: a skipped or an aborted step (R47, R271). -/
def freeStep (step : Nat) (d : Dev) : Dev :=
  (stepSlots d step).foldl (fun x q => freeSlot q.1 q.2 x) (d.modAux (fun x => { x with openers := x.openers.filter (fun o => o.2 != step) }))

/-! ## Contributions (R268 to R271, R331 to R333) -/

/-- What becomes of a contribution. -/
inductive Contributed where
  | applied
  /-- discarded, and acknowledged (R270) -/
  | late
  /-- back-pressured: RNR (R313) -/
  | held
  /-- refused with DENIED (R331, R333) -/
  | denied
  deriving DecidableEq, Repr

/-- Does another slot wait for ring frames before this one: slots open in the order of their first contributions (R272)? One whose step has its
result waits no more (R270). -/
def opensLater (d : Dev) (p : Panel) (step : Nat) : Bool :=
  (d.aux.openers.takeWhile (fun o => o != (p.idx, step))).any (fun o => match d.aux.resultStep with | some r => decide (r < o.2) | none => true)

/-- A SEAL slot that is FREE waits to open. -/
def noteOpener (p : Panel) (step : Nat) (d : Dev) : Dev :=
  if p.sealOn && (slotAt d p (p.slotOf step)).state == 0 && !d.aux.openers.contains (p.idx, step) then
    d.modAux (fun x => { x with openers := x.openers ++ [(p.idx, step)] }) else d

/-- The slot serving a step, opened if it is FREE; `none` while the contribution is held (R269, R271, R272). -/
def openSlot (p : Panel) (step : Nat) (d : Dev) : Option Dev :=
  let j := p.slotOf step
  let s := slotAt d p j
  if s.state = 0 then
    if p.sealOn then
      if opensLater d p step then none
      else (takeFrames d p.frames).map (fun q =>
        putSlot p j { s with step := step, state := 1, arrived := 0, frame := q.1 } (q.2.modAux (fun x => { x with openers := x.openers.filter (fun o => o != (p.idx, step)) })))
    else some (putSlot p j { s with step := step, state := 1, arrived := 0 } d)
  else if s.step = step ∧ (s.state = 1 ∨ s.state = 2) then some d
  else none

/-- Elements added to a slot and the runs' tallies; each run is squared when all micro-batches are in (R325, R346). -/
def squareOf (bs : List Byte) : Nat :=
  to64 ((chunksOf 4 (bs.length + 1) bs).foldl (fun a e => let g := f32 (leNat e); add64 a (mul64 g g)) .zero)

def tallyRun (p : Panel) (j run : Nat) (d : Dev) : Dev :=
  let r := runRec d p.idx j run
  let full := decide (r.tally + 1 = d.opt.mbCount)
  modRun p j run (fun x => { x with tally := x.tally + 1, squared := x.squared || full, sq := if full then squareOf (readSlot d p j (run * 4096) 4096) else x.sq }) d

/-- Poison the lines of a slot span (R330). -/
def poisonSlot (p : Panel) (j off n : Nat) (d : Dev) : Dev :=
  (slotSpans d p j off n).foldl (fun x s => (Memory.linesOf s.1 s.2).foldl (fun y l => y.pokePoison l) x) d

/-- Add elements at element offset `off` of a slot, at its home, whose bay cache allocates the result (R178, R385); ARRIVED follows, and exceeding EXPECT in OPEN is recorded (R268, R271). -/
def addToSlot (c : Ctl) (p : Panel) (j off fmt : Nat) (data : List Byte) (poison : Bool) (d : Dev) : Dev :=
  let n := data.length / atomSrc fmt
  let at_ := slotSpans d p j (off * 4) (n * 4)
  let rd := (at_.flatMap (fun s => Memory.linesOf s.1 s.2)).foldl (readLine true) d
  let d1 := writeSlot p j (off * 4) (addElems fmt (readSlot d p j (off * 4) (n * 4)) data) rd
  let d2 := if poison then poisonSlot p j (off * 4) (n * 4) d1 else d1
  let whole := if off % 1024 = 0 then n / 1024 else 0
  let d3 := foldRange whole d2 (fun i x => tallyRun p j (off / 1024 + i) x)
  let s := slotAt d3 p j
  let a := s.arrived + n
  let d4 := putSlot p j { s with arrived := a, state := if s.state = 1 ∧ a = p.expect then 2 else s.state } d3
  if p.expect < a ∧ s.state = 1 then raise c d4 (Fs.plnLedgerOver (p.id % 8)) p.id else d4

/-- A stored contribution is read, leaves its slot and is added (R332, R333). -/
def addStored (c : Ctl) (p : Panel) (j : Nat) (o : OrsSlot) (d : Dev) : Dev :=
  let r := readOrs c o d
  addToSlot c p j (o.run * 1024) o.fmt r.1 r.2.1 (dropOrs o r.2.2)

/-- The cursor passes every stored contribution that is next (R332). -/
def drainRun (c : Ctl) (p : Panel) (j step run : Nat) : Nat → Dev → Dev
  | 0, d => d
  | n + 1, d =>
    let m := cursorOf d p j run
    match orsAt d p.idx step run m with
    | some o => drainRun c p j step run n (modRun p j run (fun r => { r with cursor := m + 1 }) (addStored c p j o d))
    | none => d

/-- An ordered contribution of one run (R332, R333): its fault INFO names the sender's node and flow. -/
def contributeOrdered (c : Ctl) (p : Panel) (j step run mb fmt flow : Nat) (data : List Byte) (poison : Bool) (d : Dev) : Contributed × Dev :=
  let m := cursorOf d p j run
  let dup := raise c d Fs.fabOrderDup ((d.flow flow).peerNode + flow * 2 ^ 16)
  if mb < m then (.denied, dup)
  else if mb = m then
    let d1 := modRun p j run (fun r => { r with cursor := m + 1 }) (addToSlot c p j (run * 1024) fmt data poison d)
    (.applied, drainRun c p j step run (d1.aux.ors.length + 1) d1)
  else if (orsAt d p.idx step run mb).isSome then (.denied, dup)
  else
    let home := homeOf (((slotSpans d p j (run * 4096) 4).headD (0, 0)).1)
    match freeOrs d home with
    | none => (.held, d)
    | some k =>
      (.applied, storeOrs { home := home, panel := p.idx, step := step, run := run, mb := mb, flow := flow, fmt := fmt, len := data.length, place := k } data poison d)

/-- A contribution is held at its ledger slot. It counts once, however often its frame comes again while it is held (R269, R313). -/
def holdAt (p : Panel) (step flow psn : Nat) (d : Dev) : Dev :=
  let d1 := noteOpener p step d
  if d1.aux.holds.contains (flow, psn) then d1
  else (d1.modAux (fun x => { x with holds := x.holds ++ [(flow, psn)] })).modPlane (p.id % 8) (fun x => { x with ledgerWaitCnt := cntInc x.ledgerWaitCnt })

/-- A contribution to an owner panel (R268 to R270, R352), by the frame of a flow with a PSN. -/
def contribute (c : Ctl) (p : Panel) (step off fmt mb flow : Nat) (data : List Byte) (ordered poison : Bool) (d0 : Dev) (psn : Nat := 0) : Contributed × Dev :=
  let late := match d0.aux.resultStep with | some r => decide (step ≤ r) | none => false
  let h := p.id % 8
  let d := if d0.aux.holds.contains (flow, psn) then d0.modAux (fun x => { x with holds := x.holds.erase (flow, psn) }) else d0
  if late then (.late, d.modPlane h (fun x => { x with lateAddCnt := cntInc x.lateAddCnt }))
  else if d.aux.frozen = some step then (.held, d)
  else match openSlot p step d with
    | none => (.held, holdAt p step flow psn d0)
    | some d1 =>
      let j := p.slotOf step
      if ordered then contributeOrdered c p j step (off / 1024) mb fmt flow data poison d1
      else (.applied, addToSlot c p j off fmt data poison d1)

/-! ## Squares and settling (R350, R358) -/

/-- The square of a run: as recorded, else formed now (R350). -/
def runSquare (d : Dev) (p : Panel) (j run : Nat) : Nat :=
  let r := runRec d p.idx j run
  if r.squared then r.sq else squareOf (readSlot d p j (run * 4096) 4096)

/-- Every run squared, as a plane does while sealing a slot (R350). -/
def squareAll (p : Panel) (j : Nat) (d : Dev) : Dev :=
  foldRange p.runs d (fun run x => modRun p j run (fun r => { r with squared := true, sq := runSquare x p j run }) x)

/-- Q of a step: squares of every owner slot of it, in table order, then run order (R350). -/
def stepSquare (d : Dev) (step : Nat) : Fl :=
  (stepSlots d step).foldl (fun a q => (List.range q.1.runs).foldl (fun b run => add64 b (f64 (runSquare d q.1 q.2 run))) a) .zero

/-- The cursor of a run passes every index declared absent and every one stored, as far as it can: included contributions are added, others
discarded (R332, R358). -/
def settleRun (c : Ctl) (p : Panel) (j step contrib run : Nat) : Nat → Dev → Dev
  | 0, d => d
  | n + 1, d =>
    let m := cursorOf d p j run
    let pass := modRun p j run (fun r => { r with cursor := m + 1 })
    if d.opt.mbCount ≤ m then d else
    match orsAt d p.idx step run m, bitAt contrib m with
    | some o, true => settleRun c p j step contrib run n (pass (addStored c p j o d))
    | some o, false => settleRun c p j step contrib run n (pass (dropOrs o d))
    | none, false => settleRun c p j step contrib run n (pass d)
    | none, true => d

/-- Every run's cursor passes what is absent; contributions still stored behind one that never came are added in index order, excluded ones
discarded (R358 action 1). -/
def settleOrdered (c : Ctl) (p : Panel) (j step contrib : Nat) (d0 : Dev) : Dev :=
  let d := foldRange p.runs d0 (fun run x => settleRun c p j step contrib run (x.opt.mbCount + 1) x)
  let mine := d.aux.ors.filter (fun o => o.panel == p.idx && o.step == step)
  let d1 := (List.range d.opt.mbCount).foldl (fun x m =>
    if bitAt contrib m then (mine.filter (fun o => o.mb == m)).foldl (fun y o => addStored c p j o y) x else x) d
  (d1.aux.ors.filter (fun o => o.panel == p.idx && o.step == step)).foldl (fun x o => dropOrs o x) d1

/-- A run with more contributions than the divisor is scaled (R358 action 2). -/
def trimRun (p : Panel) (j div run : Nat) (d : Dev) : Dev :=
  let r := runRec d p.idx j run
  if r.tally ≤ div then d else
  let q := r32 (ratio false div r.tally 0)
  let bs := readSlot d p j (run * 4096) 4096
  let d1 := writeSlot p j (run * 4096) ((chunksOf 4 (bs.length + 1) bs).flatMap (fun e => natLE 4 (to32 (mul32 (f32 (leNat e)) q)))) d
  d1.modColl (fun x => { x with trimRunCnt := cntInc x.trimRunCnt })

/-- Every owner slot of a step is settled on the step's result (R358). -/
def settleStep (c : Ctl) (step contrib div : Nat) (d : Dev) : Dev :=
  (stepSlots d step).foldl (fun x q =>
    let x1 := if x.opt.ordered then settleOrdered c q.1 q.2 step contrib x else x
    if (slotAt x1 q.1 q.2).state = 3 then x1 else foldRange q.1.runs x1 (trimRun q.1 q.2 div)) d

end Sys2Proof.Machine
end

