-- ==== Sys2Proof/Machine/Stream.lean ====
section
/-! DEFINITION. Weight streaming (06): the window of each stager, fills, handover, the stream gate, kerf records and the stream
watchdog. -/

namespace Sys2Proof.Machine

open Sys2Proof

/-! ## The stream tables (R243, R245) -/

/-- The fields of a stream-table entry. -/
structure StrmEntry where
  layer : Nat
  dir : Bool
  remote : Bool
  source : Nat
  firstBlock : Nat
  nblocks : Nat
  fillCtr : Nat
  fillVal : Nat
  fillStepInc : Nat
  deriving DecidableEq, Repr

def strmEntryOf (ws : List Nat) : StrmEntry :=
  let w := wordAt ws
  { layer := bits (w 0) 0 16, dir := bitAt (w 0) 16, remote := bitAt (w 0) 17, source := w 1, firstBlock := bits (w 2) 0 32, nblocks := bits (w 2) 32 32,
    fillCtr := bits (w 3) 0 12, fillVal := bits (w 3) 32 32, fillStepInc := bits (w 4) 0 32 }

/-- Entries of a step. -/
def strmLen (d : Dev) : Nat := (d.stager 0).entries.toNat

/-- The entry of a stager at a stream position. -/
def strmAt (d : Dev) (b pos : Nat) : StrmEntry := strmEntryOf ((d.stager b).table.getD (pos % strmLen d) [])

/-- Are two entries of one step identical? DESIGN CHOICE (log 155): identical in all four stagers' tables, since the entry index is the same in
all four and a gate opens for all (R245, R247). -/
def sameEntry (d : Dev) (p q : Nat) : Bool :=
  p / strmLen d == q / strmLen d && (List.range 4).all (fun b =>
    let x := strmAt d b p
    let y := strmAt d b q
    x.remote == y.remote && x.source == y.source && x.firstBlock == y.firstBlock && x.nblocks == y.nblocks)

/-- The slot of a stager that holds a position. -/
def slotOfPos (d : Dev) (b pos : Nat) : Option (Nat × Slot) := (d.stager b).slots.find? (fun p => p.2.pos == pos && !p.2.stale)

def modSlotW (b j : Nat) (f : Slot → Slot) (d : Dev) : Dev :=
  d.modStager b (fun g => { g with slots := match tabFind g.slots j with | some s => tabPut g.slots j (f s) | none => g.slots })

/-- Address of block `k` of slot `j` (R244). -/
def slotBlock (g : Stager) (j k : Nat) : Nat := g.winBase.toNat + (j * g.slotSize.toNat + k) * 4096

def gateAt (d : Dev) (pos : Nat) : Gate := tabGet {} d.stream.gates pos
def modGate (pos : Nat) (f : Gate → Gate) (d : Dev) : Dev := d.modStream (fun m => { m with gates := tabMod {} m.gates pos f })

/-- Is the entry at a position FULL (R247)? -/
def isFull (d : Dev) (pos : Nat) : Bool := (gateAt d pos).arrival.isSome

/-! ## Kerf records and the gate (R248 to R251) -/

/-- Write a kerf record of position `pos` (R249). -/
def writeKerf (pos arrival reach kerf : Nat) (reused wd : Bool) (d : Dev) : Dev :=
  let e := strmAt d 0 pos
  let n := strmLen d
  let w0 := pos / n % 2 ^ 32 + pos % n * 2 ^ 32 + e.layer * 2 ^ 48
  let w3 := kerf + b2n e.dir * 2 ^ 32 + b2n reused * 2 ^ 33 + b2n wd * 2 ^ 34
  let a := d.stream.kerfBase.toNat + d.stream.kerfWr.toNat % d.stream.kerfLen.toNat * 32
  let k : W32 := BitVec.ofNat 32 kerf
  let least := fun (o : Option W32) => match o with | some m => if m.toInt ≤ k.toInt then m else k | none => k
  (d.poke a ([w0, arrival, reach, w3].flatMap (natLE 8))).modStream (fun m =>
    { m with kerfWr := m.kerfWr + 1, kerfLast := k, kerfMin := some (least m.kerfMin) })

/-- A reached gate whose entry is FULL opens (R248 to R250). -/
def openGate (now pos : Nat) (d : Dev) : Dev :=
  let g := gateAt d pos
  match g.reach, g.arrival with
  | some r, some a =>
    if g.opened then d else
    let d1 := writeKerf pos a r ((r + 2 ^ 64 - a) % 2 ^ 32) g.reused false (modGate pos (fun x => { x with opened := true }) d)
    d1.modStream (fun m => { m with stallTimeCnt := cntAdd m.stallTimeCnt (now - r) })
  | _, _ => d

/-- The gate of position `pos` is reached by a queue (R248, R250). -/
def reachGate (now pos : Nat) (d : Dev) : Dev :=
  let g := gateAt d pos
  if g.reach.isSome then d else
  let d1 := modGate pos (fun x => { x with reach := some now }) d
  if isFull d1 pos then openGate now pos d1
  else gateIdle (d1.modStream (fun m => { m with stallCnt := cntInc m.stallCnt }))

/-- Every slot of the entry is FULL: its arrival is the present time, and a reached gate opens (R247, R248). -/
def noteFull (now pos : Nat) (d : Dev) : Dev :=
  if isFull d pos then d
  else if (List.range 4).all (fun b => match slotOfPos d b pos with | some s => s.2.state == 2 | none => false) then
    openGate now pos (modGate pos (fun x => { x with arrival := some now }) d)
  else d

/-! ## Filling (R246, R247, R161) -/

/-- Does the step program run, so that stagers fill? -/
def running (d : Dev) : Bool :=
  d.life.loaded && (d.life.state == .forward || d.life.state == .backward || d.life.state == .clamp)

/-- Positions wanted now (R245). -/
def wantedPos (d : Dev) : List Nat := (List.range ((d.stager 0).lookahead.toNat + 1)).map (fun i => d.stream.cur + i)

/-- Is `pos` identical to an earlier wanted entry that holds a slot of the stager? -/
def coveredPos (d : Dev) (b pos : Nat) : Bool :=
  (wantedPos d).any (fun q => decide (q < pos) && sameEntry d q pos && (slotOfPos d b q).isSome)

/-- The entry a stager fills next. -/
def nextFill (d : Dev) (b : Nat) : Option Nat :=
  if (d.stager b).slots.any (fun p => p.2.state == 1 || (p.2.state == 3 && !p.2.stale)) then none
  else (wantedPos d).find? (fun p => (slotOfPos d b p).isNone && !coveredPos d b p)

/-- Is an entry's fill wait reached (R243)? -/
def fillReached (d : Dev) (b pos : Nat) : Bool :=
  let e := strmAt d b pos
  reachedBy (tabGet 0 (d.jig 4).ctr e.fillCtr) (e.fillVal + (pos / strmLen d - d.life.startStep) * e.fillStepInc)

/-- Put the result of a fabric read into the slot that is being filled. -/
def fetchedInto (b : Nat) (bs : List Byte) (tag st : Nat) (d : Dev) : Dev :=
  d.modStager b (fun g => { g with slots := tabMap {} g.slots (fun s => if s.state = 1 then { s with fetched := some (bs, tag, st) } else s) })

/-- Read block `k` of an entry's share from its package, with its tag, on the service flow (R246, R316). -/
def askBlock (c : Ctl) (b : Nat) (e : StrmEntry) (k dest : Nat) (d : Dev) : Dev :=
  match serviceFlow d (bits e.source 48 16) with
  | some f => startMsg c f (.fill b) (readFrames (bits e.source 0 48 + (e.firstBlock + k) * 4096) 4096 true) 4096 (bits e.source 0 48 + (e.firstBlock + k) * 4096) dest d
  | none => fetchedInto b [] 0 1 d

/-- The next block of the slot being filled is asked for, if it comes from another package. -/
def askNext (c : Ctl) (b j : Nat) (d : Dev) : Dev :=
  match tabFind (d.stager b).slots j with
  | some s =>
    let e := strmAt d b s.pos
    if s.state = 1 ∧ e.remote ∧ s.done < e.nblocks ∧ s.fetched.isNone then askBlock c b e s.done (slotBlock (d.stager b) j s.done) d else d
  | none => d

/-- A fill starts in the lowest free slot (R246). -/
def devFillStart (b : Nat) (c : Ctl) (d : Dev) : Dev :=
  if !running d then d else
  match nextFill d b, tabFree (d.stager b).slots ((d.stager b).lookahead.toNat + 1) with
  | some pos, some j =>
    if !fillReached d b pos then d else
    let empty := decide ((strmAt d b pos).nblocks = 0)
    let d1 := d.modStager b (fun g => { g with slots := tabPut g.slots j { state := if empty then 2 else 1, pos := pos } })
    if empty then noteFull c.now pos d1 else askNext c b j d1
  | _, _ => d

def execStreamFillStart (bay : Fin 4) (s : State) : Host.Outcome State Fault Refusal := onWork (devFillStart bay.val) s

/-- A good block is written with its tag (R157, R247); WIN_REFETCH if it took a second fetch (R161). -/
def blockGood (c : Ctl) (b j : Nat) (s : Slot) (bs : List Byte) (tag : Nat) (d : Dev) : Dev :=
  let dest := slotBlock (d.stager b) j s.done
  let d1 := modSlotW b j (fun x => { x with done := x.done + 1, refetched := false, fetched := none }) ((d.poke dest bs).setTag dest tag)
  askNext c b j (if s.refetched then raise c d1 Fs.winRefetch 0 else d1)

/-- A block that failed its check: fetched once more, then DOWEL_MISMATCH (R161). -/
def blockMismatch (c : Ctl) (b j : Nat) (s : Slot) (d : Dev) : Dev :=
  if s.refetched then dowelFault c 1 b (slotBlock (d.stager b) j s.done) (modSlotW b j (fun x => { x with fetched := none }) d)
  else askNext c b j (modSlotW b j (fun x => { x with refetched := true, fetched := none }) d)

/-- A block of another package: checked against its tag, or a failed read (R161, R317). -/
def blockRemote (c : Ctl) (b j : Nat) (s : Slot) (node : Nat) (r : List Byte × Nat × Nat) (d : Dev) : Dev :=
  if r.2.2 = 0 ∧ r.1.length = 4096 ∧ crc32c r.1 = r.2.1 then blockGood c b j s r.1 r.2.1 d
  else if r.2.2 = 0 ∨ r.2.2 = 16 then blockMismatch c b j s d
  else if s.refetched then
    fabError c r.2.2 node r.2.1 (modSlotW b j (fun x => { x with fetched := none }) d)
  else askNext c b j (modSlotW b j (fun x => { x with refetched := true, fetched := none }) d)

/-- A block of a far-tier image, by the decoding path of a GET (R209, R246, R247). One that fails is fetched once more; if its far-tier
copy is itself bad it is repaired, or without sources ends the step (R161, R220). -/
def blockImage (c : Ctl) (b j : Nat) (s : Slot) (e : StrmEntry) (d : Dev) : Dev :=
  match imageBlock d e.source (e.firstBlock + s.done) with
  | .good bs dw n => blockGood c b j s bs dw (countGet b n d)
  | .stale => blockMismatch c b j s d
  | .down => blockMismatch c b j s d
  | .poison => blockMismatch c b j s d
  | .map => blockMismatch c b j s (noteMap c (9 + b) e.source d)
  | .bad i id k dw =>
    if !s.refetched then blockMismatch c b j s (dropTimeout id k d)
    else if (d.mapSources e.source).isEmpty then blockMismatch c b j s (farBlockLost c id k d)
    else startRepair c (modSlotW b j (fun x => { x with state := 3, refetched := false }) d) b e.source false i id k dw [{ stager := b, dest := slotBlock (d.stager b) j s.done }]

/-- The next block of a slot being filled has been fetched. -/
def devBlockArrival (b j : Nat) (c : Ctl) (d : Dev) : Dev :=
  if !running d then d else
  match tabFind (d.stager b).slots j with
  | some s =>
    let e := strmAt d b s.pos
    if s.state ≠ 1 ∨ s.stale ∨ e.nblocks ≤ s.done ∨ spanHeld d (slotBlock (d.stager b) j s.done) 4096 then d
    else if e.remote then match s.fetched with
      | some r => blockRemote c b j s (bits e.source 48 16) r d
      | none => d
    else blockImage c b j s e d
  | none => d

def execStreamBlockArrival (bay : Fin 4) (slot : Nat) (s : State) : Host.Outcome State Fault Refusal := onWork (devBlockArrival bay.val slot) s

/-- A slot whose blocks are all in becomes FULL (R247). -/
def devSlotFull (b j : Nat) (c : Ctl) (d : Dev) : Dev :=
  match tabFind (d.stager b).slots j with
  | some s =>
    if s.state = 1 ∧ !s.stale ∧ (strmAt d b s.pos).nblocks ≤ s.done then noteFull c.now s.pos (modSlotW b j (fun x => { x with state := 2 }) d) else d
  | none => d

def execStreamSlotFull (bay : Fin 4) (slot : Nat) (s : State) : Host.Outcome State Fault Refusal := onWork (devSlotFull bay.val slot) s

/-! ## The watchdog (R251) -/

/-- Slots of a position whose blocks are all in become FULL. -/
def fillAll (c : Ctl) (pos : Nat) (d : Dev) : Dev :=
  (List.range 4).foldl (fun x b => match slotOfPos x b pos with | some s => devSlotFull b s.1 c x | none => x) d

/-- The watchdog's limit: a value below 1,000 is used as 1,000. -/
def watchdogLimit (d : Dev) : Nat := max 1000 d.stream.watchdogTicks.toNat

/-- The watchdog of a reached gate expires; if the entry becomes FULL in the same cycle, the gate opens (R24, R251). -/
def devWatchdog (pos : Nat) (tie : Bool) (c : Ctl) (d : Dev) : Dev :=
  let g := gateAt d pos
  match g.reach with
  | none => d
  | some r =>
    if g.opened || g.watchdog then d else
    let d0 := if tie then fillAll c pos d else d
    if (gateAt d0 pos).opened then d0.modStream (fun m => { m with tieCnt := cntInc m.tieCnt })
    else
      let wd := watchdogLimit d
      let d1 := writeKerf pos (r + wd) r ((2 ^ 64 - wd) % 2 ^ 32) g.reused true (modGate pos (fun x => { x with watchdog := true }) d)
      raise c d1 Fs.strmWatchdog (pos % strmLen d)

def execStreamWatchdogExpiry (pos : Nat) (tie : Bool) (s : State) : Host.Outcome State Fault Refusal := onWork (devWatchdog pos tie) s

/-! ## The end of an entry's use (R245) -/

/-- Has a queue gone past a position, with everything it issued before complete? -/
def queuePast (q : Queue) (pos : Nat) : Bool :=
  q.recs.isEmpty || q.gates.any (fun m => decide (pos < m.1) && q.issued.all (fun x => decide (m.2 ≤ x.serial)))

/-- Has the use of the current entry ended: every queue of every bay jig is past it? -/
def useEnded (d : Dev) : Bool := (List.range 4).all (fun b => (d.jig b).queues.all (fun p => queuePast p.2 d.stream.cur))

/-- The slots of the current entry go to the entry `heir`, or are released. -/
def passSlot (pos : Nat) (heir : Option Nat) (b : Nat) (d : Dev) : Dev :=
  match slotOfPos d b pos, heir with
  | some s, some t => modSlotW b s.1 (fun x => { x with pos := t }) d
  | some s, none =>
    if s.2.state = 3 then modSlotW b s.1 (fun x => { x with stale := true }) d
    else (if s.2.state = 1 then d.orphanFill b else d).modStager b (fun g => { g with slots := tabDel g.slots s.1 })
  | none, _ => d

/-- The first wanted entry that takes over the current entry's slot: its use has ended, so the entries wanted are those from the next
one on (R245). -/
def handTo (d : Dev) : Option Nat :=
  ((wantedPos d).map (fun p => p + 1)).find? (fun p => sameEntry d d.stream.cur p && (List.range 4).all (fun b => (slotOfPos d b p).isNone))

/-- The current entry's use ends: its slot is handed over or released, and the next entry becomes current. -/
def endUse (now : Nat) (d : Dev) : Dev :=
  let cur := d.stream.cur
  let heir := if (List.range 4).any (fun b => (slotOfPos d b cur).isSome) then handTo d else none
  let arr := (gateAt d cur).arrival
  let d1 := (List.range 4).foldl (fun x b => passSlot cur heir b x) d
  let d2 := match heir with
    | some t => (modGate t (fun g => { g with arrival := arr, reused := true }) d1).modStream (fun m => { m with reuseCnt := cntInc m.reuseCnt })
    | none => d1
  let d3 := d2.modStream (fun m => { m with cur := cur + 1, gates := tabDel m.gates cur })
  let d4 := { d3 with jigs := tabMap {} d3.jigs (fun g => { g with queues := tabMap {} g.queues (fun q => { q with gates := q.gates.filter (fun m => decide (cur + 1 < m.1)) }) }) }
  match heir with
  | some t => openGate now t d4
  | none => d4

/-- Entries whose use has ended pass, at most to the end of the step. -/
def advanceStream (now : Nat) : Nat → Dev → Dev
  | 0, d => d
  | n + 1, d => if useEnded d then advanceStream now n (endUse now d) else d

/-- The stream moves on as far as it can, after an issue or a completion. -/
def moveStream (c : Ctl) (d : Dev) : Dev :=
  if strmLen d = 0 ∨ !d.life.loaded then d
  else gateIdle (advanceStream c.now ((d.life.step.toNat + 1) * strmLen d - d.stream.cur) d)

end Sys2Proof.Machine
end

