-- ==== Sys2Proof/Machine/Jig.lean ====
section
/-! DEFINITION. The jigs (06): task records, issue, waits, completion and signals, phases, hoisting; entry to a step, start and
stop of a program (01, R421, R422). -/

namespace Sys2Proof.Machine

open Sys2Proof

/-! ## Task records (R230, R231) -/

/-- A task record's fields. -/
structure JigRec where
  kind : Nat
  hoist : Bool
  waitEn : Bool
  sigEn : Bool
  waitPeer : Bool
  mask : Nat
  loopSel : Nat
  addr : Nat
  stride : Nat
  sigTgt : Nat
  sigCtr : Nat
  sigAdd : Nat
  sigNode : Nat
  sigRjig : Nat
  stager : Nat
  jumps : Nat
  deriving DecidableEq, Repr

def jigRecOf (ws : List Nat) : JigRec :=
  let w := wordAt ws
  { kind := bits (w 0) 0 4, hoist := bitAt (w 0) 4, waitEn := bitAt (w 0) 5, sigEn := bitAt (w 0) 6, waitPeer := bitAt (w 0) 7, mask := bits (w 0) 16 32,
    loopSel := bits (w 0) 48 2, addr := bits (w 1) 0 48, stride := bits (w 2) 0 32, sigTgt := bits (w 5) 0 3, sigCtr := bits (w 5) 3 12,
    sigAdd := bits (w 5) 32 32, sigNode := bits (w 6) 0 16, sigRjig := bits (w 6) 16 3, stager := bits (w 6) 20 2, jumps := bits (w 6) 32 32 }

/-- Does a kind scale ADDR by STRIDE (R525)? -/
def usesStride (kind : Nat) : Bool := (1 ≤ kind && kind ≤ 4) || kind == 6 || kind == 7 || kind == 10 || kind == 11

/-- The value that ADDR names at issue (R526), formed in full. -/
def recAddr (q : Queue) (r : JigRec) : Nat := if usesStride r.kind then r.addr + q.loopIdx.getD r.loopSel 0 * r.stride else r.addr

/-- The record at the head of an issuing queue. -/
def headRec (q : Queue) : Option JigRec := if q.state = 1 then (q.recs[q.head]?).map jigRecOf else none

/-! ## Readiness and choice (R228) -/

/-- Physical benches a record names. -/
def namedBenches (d : Dev) (b : Nat) (r : JigRec) : List Nat := (setBitsOf r.mask 32).filterMap (d.physBench b)

/-- The stager a STAGER record goes to (R231). -/
def stagerOf (j : Nat) (r : JigRec) : Nat := if j = 4 then r.stager else j

/-- Stream position of a GATE record. -/
def gatePos (d : Dev) (q : Queue) (r : JigRec) : Nat := d.life.step.toNat * strmLen d + recAddr q r

/-- Can the head record issue, as far as its own kind goes? A failing GATE issues at once (R526). -/
def kindReady (d : Dev) (j : Nat) (q : Queue) (r : JigRec) : Bool :=
  if 1 ≤ r.kind ∧ r.kind ≤ 4 then (namedBenches d j r).all (fun i => engFree d i (kindEng r.kind))
  else if r.kind = 6 then decide ((d.stager (stagerOf j r)).queue.length < 64)
  else if r.kind = 7 then decide (strmLen d ≤ recAddr q r) || (gateAt d (gatePos d q r)).opened
  else true

/-- Can a queue issue its head now? -/
def queueReady (d : Dev) (j : Nat) (q : Queue) : Bool :=
  match headRec q with
  | some r => q.reached && kindReady d j q r
  | none => false

/-- The queue the rotating pointer chooses (R228). -/
def chosenQueue (d : Dev) (j : Nat) : Option Nat :=
  let g := d.jig j
  ((g.queues.filter (fun p => decide (g.ptr ≤ p.1)) ++ g.queues.filter (fun p => decide (p.1 < g.ptr))).find? (fun p => queueReady d j p.2)).map Prod.fst

/-! ## Moving the head (R228, R233, R253) -/

/-- Records hoisted ahead are passed without being issued again. -/
def skipHoisted : Nat → Nat → List Nat → Nat × List Nat
  | 0, i, l => (i, l)
  | n + 1, i, l => if l.contains i then skipHoisted n (i + 1) (l.erase i) else (i, l)

/-- The head moves to record `i`. -/
def toRecord (now i : Nat) (q : Queue) : Queue :=
  let p := skipHoisted (q.hoistedRecs.length + 1) i q.hoistedRecs
  { q with head := p.1, hoistedRecs := p.2, reached := false, headSince := now, timedOut := false, hoisting := false }

/-- The head moves on, and a wait already reached is latched. -/
def moveHead (now j qi i : Nat) (d : Dev) : Dev :=
  gateIdle ((d.modQueue j qi (toRecord now i)).modJig j (latchJig d.relStep))

/-- A record is issued: it takes a serial number, and the pointer advances past its queue. -/
def takeSerial (j qi : Nat) (d : Dev) : Dev := d.modJig j (fun g => { g with serial := g.serial + 1, ptr := qi + 1 })

/-- A record whose work is open after issue. -/
def openRec (j qi : Nat) (x : Issued) (d : Dev) : Dev := d.modQueue j qi (fun q => { q with issued := q.issued ++ [x] })

/-! ## Signals of records (R235, R327) -/

/-- A record that completed with OK signals, if it is to. -/
def signalRec (c : Ctl) (j qi idx : Nat) (r : JigRec) (d : Dev) : Dev :=
  if !r.sigEn then d
  else if r.sigTgt = 5 then sendSignal c r.sigNode r.sigRjig r.sigCtr r.sigAdd j qi idx d
  else d.signal r.sigTgt r.sigCtr r.sigAdd

/-- What a record's own checks at issue give (R526). -/
inductive IssueResult where
  /-- it completes at issue -/
  | done
  /-- its tasks are open on these logical benches, or elsewhere -/
  | openOn (benches : BitVec 32) (other : Bool)
  /-- it fails with a status of R414 -/
  | fails (status : Nat)
  deriving DecidableEq, Repr

/-- Issue the head of a queue (R228): `act` says what the record does. -/
def issueHead (c : Ctl) (j qi : Nat) (r : JigRec) (act : Nat → Dev → IssueResult × Dev) (d : Dev) : Dev :=
  let idx := (d.queue j qi).head
  let serial := (d.jig j).serial
  let p := act serial (takeSerial j qi d)
  let go := moveHead c.now j qi (idx + 1)
  match p.1 with
  | .done => moveStream c (go (signalRec c j qi idx r p.2))
  | .openOn m o => openRec j qi { serial := serial, recIdx := idx, benches := m, other := o } (go p.2)
  | .fails st => failRecord c j qi idx st (go p.2)

/-- A row that issues a record of one kind: it acts if that kind heads the queue the pointer chooses. -/
def issueKind (kind j qi : Nat) (act : JigRec → Queue → Nat → Dev → IssueResult × Dev) (c : Ctl) (d : Dev) : Dev :=
  match headRec (d.queue j qi) with
  | some r => if r.kind = kind ∧ chosenQueue d j = some qi then issueHead c j qi r (act r (d.queue j qi)) d else d
  | none => d

/-! ## The kinds (R231, R526) -/

def execNop (jig : Fin 5) (queue : Nat) (s : State) : Host.Outcome State Fault Refusal :=
  onWork (issueKind 0 jig.val queue (fun _ _ _ d => (.done, d))) s

/-- Hand the descriptor at `off` to an engine of the named benches. -/
def handTask (j qi kind serial mb off : Nat) (step : Nat) (benches : List Nat) (d : Dev) : Dev :=
  let t : Task := { off := off, tag := { jig := j, queue := qi, record := serial }, step := step, mb := mb }
  let m := kindEng kind
  benches.foldl (fun x i => x.modBench i (fun b => setEng b m { engOf b m with slots := (engOf b m).slots ++ [t] })) d

/-- An engine record: MX, VEC, ROW or DMA. -/
def issueEngine (j qi : Nat) (r : JigRec) (q : Queue) (serial : Nat) (d : Dev) : IssueResult × Dev :=
  let off := recAddr q r
  if off % 64 ≠ 0 then (.fails 2, d)
  else if 0x200000 < off + 64 then (.fails 4, d)
  else if r.mask = 0 then (.done, d)
  else
    let mb := (Config.microBatch j qi q.head q.loopIdx).toNat
    (.openOn (BitVec.ofNat 32 r.mask) false, handTask j qi r.kind serial mb off d.life.step.toNat (namedBenches d j r) d)

def execJigMx (bay : Fin 4) (queue : Nat) (s : State) : Host.Outcome State Fault Refusal := onWork (issueKind 1 bay.val queue (issueEngine bay.val queue)) s
def execJigVec (bay : Fin 4) (queue : Nat) (s : State) : Host.Outcome State Fault Refusal := onWork (issueKind 2 bay.val queue (issueEngine bay.val queue)) s
def execJigRow (bay : Fin 4) (queue : Nat) (s : State) : Host.Outcome State Fault Refusal := onWork (issueKind 3 bay.val queue (issueEngine bay.val queue)) s
def execJigDma (bay : Fin 4) (queue : Nat) (s : State) : Host.Outcome State Fault Refusal := onWork (issueKind 4 bay.val queue (issueEngine bay.val queue)) s

/-- HANDOVER: a SPAD_OWNER_SET value is written to every named bench; one that does not take effect fails the record (R118, R236). -/
def issueHandover (j : Nat) (r : JigRec) (_ : Queue) (_ : Nat) (d : Dev) : IssueResult × Dev :=
  let v := bits r.addr 0 32
  let bs := namedBenches d j r
  let ok := bs.all (fun i => ownerWriteOk (setBitsOf v 16) (bits v 16 3) (bitAt v 19) (bits v 20 3) (d.bench i))
  (if ok then .done else .fails 6, bs.foldl (fun x i => x.modBench i (writeOwnerSet v)) d)

def execHandover (bay : Fin 4) (queue : Nat) (s : State) : Host.Outcome State Fault Refusal := onWork (issueKind 5 bay.val queue (issueHandover bay.val)) s

/-- The checks of an address a record names (R526): the failing status. -/
def nearCheck (d : Dev) (a : Nat) : Option Nat :=
  if a % 64 ≠ 0 then some 2 else if !d.isNear a 64 then some 6 else if !d.engineSpan a 64 then some 4 else none

/-- STAGER: a descriptor joins a stager's queue. -/
def issueStager (j qi : Nat) (r : JigRec) (q : Queue) (serial : Nat) (d : Dev) : IssueResult × Dev :=
  let a := recAddr q r
  match nearCheck d a with
  | some st => (.fails st, d)
  | none =>
    (.openOn 0 true, d.modStager (stagerOf j r) (fun g => { g with queue := g.queue ++ [{ addr := a, tag := some { jig := j, queue := qi, record := serial } }] }))

def execStager (jig : Fin 5) (queue : Nat) (s : State) : Host.Outcome State Fault Refusal :=
  onWork (issueKind 6 jig.val queue (issueStager jig.val queue)) s

/-- GATE issues once its gate is open; a mark tells the stream how far the queue is (R245, R248). -/
def issueGate (j qi : Nat) (r : JigRec) (q : Queue) (serial : Nat) (d : Dev) : IssueResult × Dev :=
  if strmLen d ≤ recAddr q r then (.fails 4, d)
  else (.done, d.modQueue j qi (fun x => { x with gates := x.gates ++ [(gatePos d q r, serial)] }))

/-- A GATE record at the head reaches its gate; its entry FULL, it issues (R248, R526). -/
def devGate (b qi : Nat) (c : Ctl) (d : Dev) : Dev :=
  let q := d.queue b qi
  match headRec q with
  | some r =>
    if r.kind ≠ 7 then d
    else if strmLen d ≤ recAddr q r then failRecord c b qi q.head 4 (moveHead c.now b qi (q.head + 1) (takeSerial b qi d))
    else issueKind 7 b qi (issueGate b qi) c (reachGate c.now (gatePos d q r) d)
  | none => d

def execGate (bay : Fin 4) (queue : Nat) (s : State) : Host.Outcome State Fault Refusal := onWork (devGate bay.val queue) s

/-- PHASE: the queue holds at the boundary (R241). -/
def devPhase (j qi : Nat) (_ : Ctl) (d : Dev) : Dev :=
  match headRec (d.queue j qi) with
  | some r =>
    if r.kind = 8 ∧ chosenQueue d j = some qi then gateIdle ((takeSerial j qi d).modQueue j qi (fun q => { q with state := 4, phases := q.phases + 1 })) else d
  | none => d

def execPhase (jig : Fin 5) (queue : Nat) (s : State) : Host.Outcome State Fault Refusal := onWork (devPhase jig.val queue) s

/-- LOOP (R237). -/
def devLoop (j qi : Nat) (c : Ctl) (d : Dev) : Dev :=
  let q := d.queue j qi
  match headRec q with
  | some r =>
    if r.kind = 9 ∧ chosenQueue d j = some qi then
      let v := q.loopIdx.getD r.loopSel 0 + 1
      let back := decide (v ≤ r.jumps)
      let d1 := (takeSerial j qi d).modQueue j qi (fun x => { x with loopIdx := setAt x.loopIdx r.loopSel (if back then v else 0) })
      moveStream c (moveHead c.now j qi (if back then bits r.addr 0 16 else q.head + 1) (signalRec c j qi q.head r d1))
    else d
  | none => d

def execLoop (jig : Fin 5) (queue : Nat) (s : State) : Host.Outcome State Fault Refusal := onWork (devLoop jig.val queue) s

/-- The segments an image's map names become FREE; the map stays (R255). A stale entry names none (R199). -/
def releaseImage (m : Nat) (d : Dev) : Dev :=
  let segs := (List.range (d.mapEntries m)).filterMap (fun i =>
    let e := d.mapEntry m i
    if (d.seg e.1).state ≠ 0 ∧ (d.seg e.1).gen.toNat % 2048 = e.2.1 then some e.1 else none)
  segs.foldl Dev.releaseSeg d

/-- RELEASE: a map that cannot be read ends the record POISONED. -/
def issueRelease (c : Ctl) (r : JigRec) (q : Queue) (_ : Nat) (d : Dev) : IssueResult × Dev :=
  let a := recAddr q r
  match nearCheck d a with
  | some st => (.fails st, d)
  | none =>
    if d.peekPoison a 64 || d.peekPoison (a + 64) (8 * d.mapEntries a) then
      (.fails 0xA, notePoison c a (64 + 8 * d.mapEntries a) d)
    else (.openOn 0 false, releaseImage a d)

def execRelease (jig : Fin 5) (queue : Nat) (s : State) : Host.Outcome State Fault Refusal :=
  onWork (fun c => issueKind 10 jig.val queue (issueRelease c) c) s

/-- END: the queue is done for the step (R242, R245). -/
def devEnd (j qi : Nat) (c : Ctl) (d : Dev) : Dev :=
  let q := d.queue j qi
  match headRec q with
  | some r =>
    if r.kind = 12 ∧ chosenQueue d j = some qi then
      let mark := ((d.life.step.toNat + 1) * strmLen d, (d.jig j).serial)
      moveStream c (signalRec c j qi q.head r ((takeSerial j qi d).modQueue j qi (fun x => { x with state := 5, gates := x.gates ++ [mark] })))
    else d
  | none => d

def execEndRec (jig : Fin 5) (queue : Nat) (s : State) : Host.Outcome State Fault Refusal := onWork (devEnd jig.val queue) s

/-! ## Completion (R235, R236) -/

/-- An issued record whose tasks have all completed: it signals, fails, ends aborted or loses its queue. -/
def finishRec (c : Ctl) (j qi : Nat) (x : Issued) (d : Dev) : Dev :=
  let d1 := d.modQueue j qi (fun q => { q with issued := q.issued.erase x })
  let r := jigRecOf ((d.queue j qi).recs.getD x.recIdx [])
  let d2 := if x.lost then raise c (d1.modQueue j qi (fun q => { q with state := 6 })) (Fs.jigHostLostQueue j) (jigInfo qi x.recIdx 9) else d1
  if x.status ≠ 0 then failRecord c j qi x.recIdx x.status d2
  else if x.lost || x.aborted then d2
  else signalRec c j qi x.recIdx r d2

def devRecordComplete (j qi serial : Nat) (c : Ctl) (d : Dev) : Dev :=
  match (d.queue j qi).issued.find? (fun x => x.serial == serial) with
  | some x => if x.benches = 0 ∧ !x.other then moveStream c (finishRec c j qi x d) else d
  | none => d

def execJigRecordComplete (jig : Fin 5) (queue serial : Nat) (s : State) : Host.Outcome State Fault Refusal := onWork (devRecordComplete jig.val queue serial) s

/-! ## The wait time-out (R240) -/

def countTie (j : Nat) (d : Dev) : Dev := d.modJig j (fun g => { g with tieCnt := cntInc g.tieCnt })

/-- Benches of a bay whose matrix engine waits for partial tiles for a task of the queue, not timed out yet. -/
def waitingDrain (d : Dev) (j qi : Nat) : Option (Nat × Task) :=
  (d.activeOf j).findSome? (fun i =>
    match (d.bench i).mx.slots with
    | t :: _ =>
      if t.issued && !t.ran && t.tag.jig == j && t.tag.queue == qi && (mxDescOf t.words).nPart != 0 && decide (t.tile < mxTiles (mxDescOf t.words)) &&
        !partialsIn d i t && decide (t.expired ≤ t.tile) then some (i, t) else none
    | [] => none)

/-- The limit expires for a drain's wait, or the partial tiles arrive in the same cycle. -/
def drainTimeout (j qi i : Nat) (t : Task) (tie : Bool) (c : Ctl) (d : Dev) : Dev :=
  if tie then countTie j (modSlot d i 1 0 (fun x => { x with tile := x.tile + 1 }))
  else
    let idx := (((d.queue j qi).issued.find? (fun x => x.serial == t.tag.record)).map (fun x => x.recIdx)).getD 0
    raise c (modSlot d i 1 0 (fun x => { x with expired := x.tile + 1 })) (Fs.jigWaitTimeout j) (jigInfo qi idx 8)

/-- Does the limit apply to the head now: a wait not reached, not a GATE, not expired before? -/
def headWaits (q : Queue) : Bool :=
  match headRec q with
  | some r => r.waitEn && !q.reached && r.kind != 7 && !q.timedOut
  | none => false

/-- DESIGN CHOICE (log 157): where the head of a queue and drains of its tasks wait at once, the expiry ends the head's wait, else the drain's
of the lowest bench. -/
def devWaitTimeout (j qi : Nat) (tie : Bool) (c : Ctl) (d : Dev) : Dev :=
  let q := d.queue j qi
  if headWaits q then
    if tie then countTie j (d.modQueue j qi (fun x => { x with reached := true, hoisting := false }))
    else raise c (d.modQueue j qi (fun x => { x with timedOut := true })) (Fs.jigWaitTimeout j) (jigInfo qi q.head 8)
  else match waitingDrain d j qi with
    | some p => if j < 4 then drainTimeout j qi p.1 p.2 tie c d else d
    | none => d

def execJigWaitTimeoutExpiry (jig : Fin 5) (queue : Nat) (tie : Bool) (s : State) : Host.Outcome State Fault Refusal := onWork (devWaitTimeout jig.val queue tie) s

/-! ## Hoisting (R253) -/

/-- The destination banks of a bench DMA load, as its descriptor at `off` gives them. -/
def hoistBanksOk (d : Dev) (off : Nat) (benches : List Nat) : Bool :=
  benches.all (fun i =>
    let x := dmaDescOf (spadWords (d.bench i).spad off)
    (missingAt (d.bench i) 0 [dmaSpadSpan x]).isNone)

/-- May record `r` of the queue be hoisted now? -/
def hoistable (d : Dev) (j : Nat) (q : Queue) (ws : List Nat) : Bool :=
  let r := jigRecOf ws
  let bs := namedBenches d j r
  r.hoist && r.kind == 4 && waitReached (d.jig j) q d.relStep ws && bs.all (fun i => engFree d i 0) && hoistBanksOk d (recAddr q r) bs

/-- Scan the records after the head (R253): `n` left, next index `i`. DESIGN CHOICE (log 154): a hoisted issue neither follows nor moves the
rotating priority pointer of R228, which chooses among the heads. -/
def hoistScan (c : Ctl) (j qi : Nat) : Nat → Nat → Dev → Dev
  | 0, _, d => d
  | n + 1, i, d =>
    let q := d.queue j qi
    match q.recs[i]? with
    | none => d
    | some ws =>
      let r := jigRecOf ws
      if r.kind = 5 ∨ r.kind = 8 ∨ r.kind = 9 ∨ r.kind = 12 then d
      else if r.kind = 7 then
        if recAddr q r < strmLen d ∧ isFull d (gatePos d q r) then hoistScan c j qi n (i + 1) (reachGate c.now (gatePos d q r) d) else d
      else if q.hoistedRecs.contains i || !hoistable d j q ws then hoistScan c j qi n (i + 1) d
      else
        let serial := (d.jig j).serial
        let p := issueEngine j qi r { q with head := i } serial (d.modJig j (fun g => { g with serial := g.serial + 1, hoistCnt := cntInc g.hoistCnt }))
        let d1 := p.2.modQueue j qi (fun x => { x with hoistedRecs := x.hoistedRecs ++ [i], hoisting := true })
        match p.1 with
        | .done => hoistScan c j qi n (i + 1) (signalRec c j qi i r d1)
        | .openOn m o => hoistScan c j qi n (i + 1) (openRec j qi { serial := serial, recIdx := i, benches := m, other := o, hoisted := true } d1)
        | .fails st => failRecord c j qi i st d1

/-- While the head of a bay queue waits on peers, eligible loads behind it issue; a depth of 0 disables this. -/
def devHoist (j qi : Nat) (c : Ctl) (d : Dev) : Dev :=
  let q := d.queue j qi
  match headRec q with
  | some r => if j < 4 && r.waitPeer && r.waitEn && !q.reached && (d.jig j).hoistDepth != 0 then hoistScan c j qi (min 64 (d.jig j).hoistDepth.toNat) (q.head + 1) (d.modQueue j qi (fun x => { x with hoisting := true })) else d
  | none => d

def execJigHoistIssue (jig : Fin 5) (queue : Nat) (s : State) : Host.Outcome State Fault Refusal := onWork (devHoist jig.val queue) s

/-! ## Signals of a commit (R283, R347) -/

/-- SIG_CTR of the global jig, and one SIGNAL to every other member of SIG_GROUP in rank order. -/
def signalCommit (c : Ctl) (sigCtr sigGroup : Nat) (d : Dev) : Dev :=
  let d1 := d.signal 4 sigCtr 1
  if sigGroup = 0 then d1 else
  match tabFind d1.coll.groups sigGroup with
  | none => raise c d1 Fs.collOpFail sigGroup
  | some g =>
    (g.members.zip g.flows).foldl (fun x m =>
      if m.1 = x.fab.node.toNat then x
      else if openTo x m.2 m.1 then startMsg c m.2 .engine [{ opc := Opc.signal, addr := BitVec.ofNat 64 (sigCtr + 4 * 4096), aux := 1 }] 0 0 0 x
      else fabError c 1 m.1 m.2 x) d1

/-! ## Steps (R49, R50, R239, R242) -/

/-- A queue at entry to FORWARD. One that lost its host stays as it is (R236). Of the attempt before, records stay that still owe a signal to
another package, or whose collective runs (R235). -/
def startQueue (now : Nat) (retry : Bool) (q : Queue) : Queue :=
  if q.recs.isEmpty ∨ q.state = 6 then q else
  { q with head := 0, state := 1, hoisting := false, loopIdx := [0, 0, 0, 0], reached := false, headSince := now, timedOut := false, hoistedRecs := [], phases := 0,
           gates := if retry then [] else q.gates }

/-- Counters with RESTORE = 1 take their snapshot (R239). -/
def restoreCtrs (g : Jig) : Jig :=
  let keep := g.ctr.filter (fun p => !bitAt (tabGet 0 g.restore (p.1 / 32)).toNat (p.1 % 32))
  let back := g.snap.filter (fun p => bitAt (tabGet 0 g.restore (p.1 / 32)).toNat (p.1 % 32))
  { g with ctr := back.foldl (fun t p => tabSet 0 t p.1 p.2) keep }

/-- A jig at entry to FORWARD. -/
def startJig (now rel : Nat) (retry : Bool) (g : Jig) : Jig :=
  let g1 := if retry then restoreCtrs g else g
  latchJig rel { g1 with snap := g1.ctr, queues := tabMap {} g1.queues (startQueue now retry) }

/-- What a retry takes back before FORWARD: images of the attempt, as though by RELEASE records, so that every segment their maps name goes;
its ledger slots; window slots (R252, R255, R271). DESIGN CHOICE (log 158): so does the restart of a step that a stop interrupted. -/
def undoAttempt (d : Dev) : Dev :=
  let d0 := d.life.putMaps.foldl (fun x m => releaseImage m x) d
  let mine := d0.life.putSegs.filter (fun s => (d0.seg s.1).state == 2 && (d0.seg s.1).gen == s.2)
  let d1 := freeStep d0.life.step.toNat (mine.foldl (fun x s => x.releaseSeg s.1) d0)
  let d2 := { d1 with stagers := tabMap {} d1.stagers (fun g => { g with slots := g.slots.filter (fun p => p.2.stale) }) }
  d2.modStream (fun m => { m with gates := [], cur := d2.life.step.toNat * strmLen d2 })

/-- Entry to FORWARD of the step in `life.step` (R49): a retry if the step was aborted or interrupted. -/
def enterForward (now : Nat) (d : Dev) : Dev :=
  let retry := d.life.wasAborted || d.life.interrupted == some d.life.step.toNat
  let d1 := if retry then undoAttempt d else d
  let d2 := d1.modStream (fun m => { m with cur := max m.cur (d1.life.step.toNat * strmLen d1) })
  let d3 := { d2 with jigs := tabMap {} d2.jigs (startJig now d2.relStep retry) }
  let d4 := d3.modLife (fun l => { l with state := .forward, phaseK := 0, attemptEpoch := l.epoch, interrupted := none, wasAborted := false, backDone := false, putSegs := [], putMaps := [],
                                          nextStep := some l.step.toNat, starting := false })
  (d4.modColl (fun m => { m with gradBad := 0, clamp := none, clampBusy := false, earlyParts := m.earlyParts.filter (fun p => p.2.step == d.life.step.toNat && decide ((p.2.epoch - d.life.epoch).toNat < 32768)), heldResult := none })).modAux (fun x => { x with frozen := none, resultStep := x.resultStep.filter (fun r => decide (r < d1.life.step.toNat)) })

/-- Planes leave a stop: owed signals go out, updates cut short are due again (R284, R283). -/
def restartPlanes (c : Ctl) (d : Dev) : Dev :=
  let owed := d.planes.flatMap (fun p => p.2.owed)
  let d1 := { d with planes := tabMap {} d.planes (fun p =>
    { p with halted := false, owed := [], due := p.stopped ++ p.due, rerun := p.stopped, stopped := [], rerunCnt := cntAdd p.rerunCnt p.stopped.length,
             state := if p.state = .stopped then .idle else p.state }) }
  owed.foldl (fun x i => let p := panelAt x i; signalCommit c p.sigCtr p.sigGroup x) d1

/-- ND_JIG_START of a step: its status (R421). Updates cut short are re-run before FORWARD (R48). -/
def startProgram (c : Ctl) (step : Nat) (d : Dev) : Nat × Dev :=
  let l := d.life
  if !l.loaded then (6, d)
  else if l.starting then (1, d)
  else if l.state ≠ .idle ∧ l.state ≠ .aborted then (1, d)
  else if l.reload then (6, d)
  else if l.nextStep.isSome ∧ l.nextStep ≠ some step then (6, d)
  else
    let first := l.nextStep.isNone
    let rerun := d.planes.any (fun p => !p.2.stopped.isEmpty)
    let owing := rerun || d.planes.any (fun p => !p.2.due.isEmpty)
    let d1 := d.modLife (fun x => { x with step := BitVec.ofNat 64 step, startStep := if first then step else x.startStep, nextStep := some step, started := true, starting := rerun, update := x.update || owing })
    let d2 := restartPlanes c (if first then d1.modStream (fun m => { m with cur := step * strmLen d1 }) else d1)
    (0, if rerun then d2 else enterForward c.now d2)

/-! ## Phase boundaries (R28, R241) -/

/-- Queues in use, with their jigs. -/
def usedQueues (d : Dev) : List (Nat × Nat × Queue) :=
  d.jigs.flatMap (fun g => (g.2.queues.filter (fun p => !p.2.recs.isEmpty)).map (fun p => (g.1, p.1, p.2)))

/-- The boundary can be passed: every queue is at it and every bench is idle. -/
def boundaryReady (d : Dev) : Bool :=
  let us := usedQueues d
  !us.isEmpty && us.all (fun u => u.2.2.state == 4) && (List.range 132).all (fun i => idleBench (d.bench i))

/-- A stop takes effect at a phase boundary (R242, R250, R284): completed records signal, running collectives go on to theirs (R235). -/
def stopAtBoundary (now : Nat) (d : Dev) : Dev :=
  let d1 := (d.applyOwn.stopJigs Dev.outlasts).stopStagers now
  let d2 := d1.stopsPlanes.modLife (fun l => { l with update := false })
  Dev.stopDone (d2.modLife (fun l => { l with interrupted := some l.step.toNat, nextStep := some l.step.toNat }))

/-- Every queue is released: all PHASE records complete and signal in this cycle (R234), and the heads move on. -/
def passQueues (c : Ctl) (us : List (Nat × Nat × Queue)) (d : Dev) : Dev :=
  let d1 := us.foldl (fun x u => signalRec c u.1 u.2.1 u.2.2.head (jigRecOf (u.2.2.recs.getD u.2.2.head [])) x) d
  us.foldl (fun x u => moveHead c.now u.1 u.2.1 (u.2.2.head + 1) (x.modQueue u.1 u.2.1 (fun q => { q with state := 1 }))) d1

def devBoundary (c : Ctl) (d : Dev) : Dev :=
  if !boundaryReady d then d
  else if d.life.stopPending.isSome then stopAtBoundary c.now d
  else
    let us := usedQueues d
    let back := us.any (fun u => bitAt (wordAt (u.2.2.recs.getD u.2.2.head []) 1) 0)
    passQueues c us (d.modLife (fun l => { l with phaseK := l.phaseK + 1, state := if l.state = .forward ∧ back then .backward else l.state }))

def execJigPhaseBoundaryPass (s : State) : Host.Outcome State Fault Refusal := onWork devBoundary s

end Sys2Proof.Machine
end

