-- ==== Sys2Proof/Machine/Plane.lean ====
section
/-! DEFINITION. The plane engines (07): the update of a panel, its commit protocol, mirror transfers to twins and replicas,
sealing of ledger slots. -/

namespace Sys2Proof.Machine

open Sys2Proof

/-! ## Reading and writing the components of a panel (R257, R261, R282, R286) -/

/-- The optimiser entry in force for a step (R278): the greatest APPLY_STEP at or below it. -/
def optEntryFor (d : Dev) (set step : Nat) : Option OptEntry :=
  (tabGet [] d.opt.sets set).foldl (fun a e => if e.applyStep ≤ step then (match a with | some b => if b.applyStep ≤ e.applyStep then some e else a | none => some e) else a) none

/-- The clamp result of a step that the planes keep (R276). -/
def resultOf (d : Dev) (step : Nat) : Option HeldResult := d.opt.results.find? (fun r => r.res.step == step)

/-- Bytes an element of each component takes: MASTER, M, V, EMA, IMAGE (R257). -/
def Panel.widths (p : Panel) : List Nat := [4, 4, if p.vBf16 then 2 else 4, if p.emaBf16 then 2 else 4, 2]

/-- Addresses of the components of a version. V and EMA are absent where the address is 0, the others are always there (R261). -/
def arraysOf (v : List Nat) : List (Option Nat) := v.zipIdx.map (fun q => if (q.2 = 2 ∨ q.2 = 3) ∧ q.1 = 0 then none else some q.1)

/-- What reading a component gives: its bytes, a failure, or a wait for repairs. -/
inductive CompRead where
  | bytes (bs : List Byte)
  | fail
  | held
  deriving DecidableEq, Repr

/-- Read a near array, checking tags (R157, R159). A block held for a row repair makes the read wait (R165). -/
def readArray (c : Ctl) (h a n : Nat) (d : Dev) : CompRead × Dev :=
  if spanHeld d a n then (.held, d) else
  let r := readSpanBy true c d a n
  if r.2.1 then (.fail, r.2.2)
  else if tagsPoisoned d a n then (.fail, readTags c a n r.2.2)
  else
    let d1 := readTags c a n r.2.2
    match d1.badTag a r.1 with
    | some b => (.fail, dowelFault c 2 h b d1)
    | none => (.bytes r.1, d1)

/-- One block of an image, after any repair (R220, R286). -/
def readImageBlock (c : Ctl) (bay m i : Nat) (acc : CompRead × Dev) : CompRead × Dev :=
  match acc.1 with
  | .bytes bs =>
    match imageBlock acc.2 m i with
    | .good b _ n => (.bytes (bs ++ b), countGet bay n acc.2)
    | .stale => (.fail, acc.2)
    | .down => (.fail, acc.2)
    | .poison => (.fail, acc.2)
    | .map => (.fail, noteMap c (9 + bay) m acc.2)
    | .bad e id j dw =>
      match repairedBlock acc.2 m id j with
      | some (some b) => (.bytes (bs ++ b), acc.2)
      | some none => (.fail, acc.2)
      | none =>
        if (acc.2.mapSources m).isEmpty then (.fail, farBlockLost c id j acc.2)
        else (.held, startRepair c acc.2 bay m false e id j dw [])
  | _ => acc

/-- Read `n` bytes of an image by GETs of the plane's bay. -/
def readImage (c : Ctl) (bay m n : Nat) (d : Dev) : CompRead × Dev := foldRange (ceilDiv n 4096) (.bytes [], d) (readImageBlock c bay m)

/-- Bay of a plane: two planes to a bay (R282). -/
def planeBay (h : Nat) : Nat := h / 2

/-- Read one component; an absent one is nothing. -/
def readComp (c : Ctl) (h : Nat) (p : Panel) (a : Option Nat) (n : Nat) (d : Dev) : CompRead × Dev :=
  match a with
  | none => (.bytes [], d)
  | some m => if p.far then readImage c (planeBay h) m n d else readArray c h m n d

/-- Read components one after another until one fails. -/
def readComps (c : Ctl) (h : Nat) (p : Panel) : List (Option Nat × Nat) → Dev → List (List Byte) → Option (List (List Byte)) × Bool × Dev
  | [], d, acc => (some acc.reverse, false, d)
  | (a, n) :: rest, d, acc =>
    let r := readComp c h p a n d
    match r.1 with
    | .bytes bs => readComps c h p rest r.2 (bs :: acc)
    | .fail => (none, false, r.2)
    | .held => (none, true, r.2)

/-- Seal segments one after another, each followed by its map entry (R197, R210). -/
def sealAll (now m : Nat) (ids : List Nat) (d : Dev) : Dev :=
  ids.zipIdx.foldl (fun x q =>
    let y := sealSegment now q.1 x
    let g := y.seg q.1
    y.poke64 (m + 64 + 8 * q.2) (q.1 + g.gen.toNat % 2048 * 2 ^ 21 + g.firstBlock * 2 ^ 32)) d

/-- PUT whole bytes into the image of map `m`, with every root port permitted, ENTRIES last (R210, R273); `none` without
space. -/
def putImage (now bay kind m : Nat) (bs : List Byte) (d : Dev) : Option Dev :=
  let blocks := (chunksOf 4096 (bs.length + 1) bs).map (fun b => b ++ List.replicate (4096 - b.length) 0)
  let r := takeSegments 0 0xF (packBlocks kind 0 blocks) (d.stager bay).lastPort d []
  if r.2.2 then none
  else
    let wrote := (r.2.1.map (fun id => (r.1.seg id).dataLen)).sum
    some (((sealAll now m r.2.1 r.1).poke32 m r.2.1.length).modStager bay (fun g =>
      { g with farWrBytes := cntAdd g.farWrBytes wrote, encodeInBytes := cntAdd g.encodeInBytes (blocks.length * 4096),
               lastPort := match r.2.1.getLast? with | some id => Dev.segPort id | none => g.lastPort }))

/-- Write one component of the new version: address if it has one, width, bytes. -/
def writeComp (now h : Nat) (p : Panel) (a : Option Nat) (w : Nat) (bs : List Byte) (d : Dev) : Option Dev :=
  match a with
  | none => some d
  | some m => if p.far then putImage now (planeBay h) (if w = 2 then 1 else 2) m bs d else some (d.pokeTagged m bs)

/-! ## The arithmetic of an update (R277 to R281) -/

/-- Element `i` of a component of width `w`, as FP32; an absent component is +0. -/
def compAt (bs : List Byte) (w i : Nat) : Fl := if bs.isEmpty then .zero else f32 (leAt bs (w * i) w * (if w = 2 then 2 ^ 16 else 1))

/-- An element stored in a component of width `w`. -/
def compBytes (w : Nat) (x : Fl) : List Byte := if w = 2 then natLE 2 (encodeFl bf16 none x) else natLE 4 (to32 x)

/-- The image element of a new master weight (R279, R280). -/
def imageBits (p : Panel) (seed step i : Nat) (x : Fl) : Nat :=
  encodeFl bf16 (if p.sr then some (srWord seed step 0xFFFF p.streamId 0 i) else none) x

/-- The new components of a panel, by parameter, and how many new master weights are not finite. -/
def newState (p : Panel) (o : OptVals) (k : UpdConst) (seed step : Nat) (old : List (List Byte)) (grad : List Byte) : List (List Byte) × Nat :=
  let w := p.widths
  let col := fun i => old.getD i []
  let st := (List.range p.nparam).map (fun i =>
    (i, updParam o k p.vBf16 p.emaEn p.emaBf16 (compAt grad 4 i)
      { w := compAt (col 0) 4 i, m := compAt (col 1) 4 i, v := compAt (col 2) (w.getD 2 4) i, e := compAt (col 3) (w.getD 3 4) i }))
  ([st.flatMap (fun s => compBytes 4 s.2.w), st.flatMap (fun s => compBytes 4 s.2.m), st.flatMap (fun s => compBytes (w.getD 2 4) s.2.v),
    st.flatMap (fun s => compBytes (w.getD 3 4) s.2.e), st.flatMap (fun s => natLE 2 (imageBits p seed step s.1 s.2.w))],
   (st.filter (fun s => s.2.w.nonFinite)).length)

def optVals (e : OptEntry) : OptVals :=
  { alg := e.alg, nesterov := e.nesterov, eta := e.eta, lam := e.lam, beta1 := e.beta1, beta2 := e.beta2, eps := e.eps, mu := e.mu, gamma := e.gamma }

/-! ## The end of an update (R283, R284, R286) -/

def modUpd (h : Nat) (f : Update → Update) (d : Dev) : Dev := d.modPlane h (fun x => { x with cur := x.cur.map f })

/-- The plane stops for this panel: PLN_UPDATE_FAIL (R286). -/
def failUpdate (c : Ctl) (h : Nat) (p : Panel) (step : Nat) (d : Dev) : Dev :=
  raise c (d.modPlane h (fun x => if x.cur.isSome then { x with state := .stopped, cur := none, stopped := x.stopped ++ [(p.idx, step)] } else x)) (Fs.plnUpdateFail h) p.id

/-- Does a plane keep UPDATE from ending: commit words still to be written, those of a panel it is stopped for apart, or after a stop an update
still to complete (R48 to R50, R286)? -/
def holdsUpdate (p : Plane) : Bool :=
  if p.halted then p.active else p.due.any (fun x => !p.stopped.any (fun y => y.1 == x.1)) || (p.state == .computing && p.cur.isSome)

/-- With the last commit word of the step written, UPDATE ends; a stop pending since the clamp result takes effect, a start that waited
for re-runs enters FORWARD (R48 to R50). -/
def updatesDone (c : Ctl) (d : Dev) : Dev :=
  let busy := d.planes.any (fun p => holdsUpdate p.2)
  let d1 := if busy then d else d.modLife (fun l => { l with update := false })
  let d2 := if !busy && Dev.stopping d1.life && d.life.update then d1.stopDone else d1
  if d2.life.starting && d2.planes.all (fun p => p.2.rerun.isEmpty) then enterForward c.now d2 else d2

/-- The end of an update that has left its place in the plane: signals and counters (R283). A stop delays the signal only (R284). -/
def closeUpdate (c : Ctl) (h : Nat) (u : Update) (d : Dev) : Dev :=
  let p := panelAt d u.idx
  let held := (d.plane h).halted
  let d1 := d.modPlane h (fun y =>
    { y with updateCnt := cntInc y.updateCnt, paramCnt := cntAdd y.paramCnt p.nparam, rerun := y.rerun.erase (u.idx, u.step),
             owed := if held then y.owed ++ [u.idx] else y.owed })
  updatesDone c (if held then d1 else signalCommit c p.sigCtr p.sigGroup d1)

/-- The update in hand ends: back to IDLE (R283). -/
def finishUpdate (c : Ctl) (h : Nat) (u : Update) (d : Dev) : Dev := closeUpdate c h u (d.modPlane h (fun y => { y with state := .idle, cur := none }))

/-- An update that waited for its twin ends (R283). -/
def finishParked (c : Ctl) (h : Nat) (u : Update) (d : Dev) : Dev := closeUpdate c h u (d.modPlane h (fun y => { y with parked := y.parked.erase u }))

/-- The twin is lost: UNTWINNED, PLN_TWIN_LOST (R283). -/
def loseTwin (c : Ctl) (h : Nat) (u : Update) (d : Dev) : Dev :=
  let a := panelAddr d u.idx + 8
  let d1 := (d.poke64 a (setBit (d.peek64 a) 52 true)).modPlane h (fun y => { y with twinLostCnt := cntInc y.twinLostCnt })
  raise c d1 (Fs.plnTwinLost h) (panelAt d u.idx).id

/-! ## Mirror transfers (R287, R329, R347) -/

/-- The rank of a tree rooted at `root`, and the children of a rank in it (R338, R341). -/
def treeKids (g : Group) (root r : Nat) : List Nat :=
  let n := g.members.length
  let v := (r + n - root % n) % n
  ((List.range g.fanout).map (fun i => v * g.fanout + 1 + i)).filterMap (fun k => if k < n then some ((k + root) % n) else none)

/-- Rank of a node in a group. -/
def rankOf (g : Group) (node : Nat) : Option Nat := g.members.findIdx? (fun m => m == node)

/-- Chunks of a gradient as they go to one receiver. -/
def chunksTo (node : Nat) (flow : Option Nat) (addr step : Nat) (bad : Bool) (grad : List Byte) : List MirrorOut :=
  ((chunksOf 8192 (grad.length + 1) grad).zipIdx).map (fun q => { node := node, flow := flow, addr := addr, step := step, chunk := q.2, data := q.1, bad := bad })

/-- One frame of a chunk: a half (R329). -/
def mirrorFrame (m : MirrorOut) (half : Nat) (data : List Byte) : Frame :=
  { opc := Opc.mirror, addr := BitVec.ofNat 64 m.addr, attr := BitVec.ofNat 32 (m.chunk + half * 2 ^ 17), aux := BitVec.ofNat 32 m.step, payload := data, poison := m.bad }

/-- The two frames of a chunk, or the one of a half that is passed on (R329, R347). -/
def mirrorFrames (m : MirrorOut) : List Frame :=
  match m.half with
  | some k => [mirrorFrame m k (m.data.take 4096)]
  | none => [0, 1].map (fun half => mirrorFrame m half ((m.data.drop (half * 4096)).take 4096))

/-- Does it take a credit: the second half of a chunk goes on that of the first (R329)? -/
def takesCredit (m : MirrorOut) : Bool := m.half != some 1

/-- Does a half wait behind the first half of its chunk? -/
def behindHalf (l : List MirrorOut) (m : MirrorOut) : Bool :=
  m.half == some 1 && l.any (fun x => x.half == some 0 && x.node == m.node && x.addr == m.addr && x.step == m.step && x.chunk == m.chunk)

/-- Is this the update whose gradient goes to the twin's header at an address of a node? -/
def twinAt (d : Dev) (node addr : Nat) (u : Update) : Bool :=
  let p := panelAt d u.idx
  !u.mirror && bits p.twinHdr 48 16 == node && bits p.twinHdr 0 48 == addr

/-- A mirror transfer that cannot reach its twin has failed: the twin is lost to the update in hand when that is released, and at once to one
that waits for it (R283). -/
def mirrorFailed (c : Ctl) (h node addr : Nat) (d : Dev) : Dev :=
  let d1 := d.modPlane h (fun x => { x with outq := x.outq.filter (fun m => m.node != node || m.addr != addr) })
  let d2 := modUpd h (fun u => if twinAt d1 node addr u then { u with twinFailed := true } else u) d1
  ((d2.plane h).parked.filter (twinAt d2 node addr)).foldl (fun x u => finishParked c h u (loseTwin c h u x)) d2

/-- Send one chunk, or half, if credit is held. DESIGN CHOICE (log 41): no frame asks for the grant of R329 or answers it, so a plane takes the
16 credits of a node's plane as held from the start, and its first chunks are its asking; the receiver acknowledges none before the grant. -/
def sendChunk (c : Ctl) (h : Nat) (m : MirrorOut) (d : Dev) : Dev :=
  let used := tabGet 0 (d.plane h).creditUsed m.node
  if (takesCredit m ∧ 16 ≤ used) ∨ !(d.plane h).outq.contains m ∨ behindHalf (d.plane h).outq m then d else
  let fl := match m.flow with | some f => if openTo d f m.node then some f else none | none => serviceFlow d m.node
  match fl with
  | none => fabError c 1 m.node (m.flow.getD 0) (mirrorFailed c h m.node m.addr d)
  | some f =>
    let d1 := d.modPlane h (fun x => { x with outq := x.outq.erase m, creditUsed := tabSet 0 x.creditUsed m.node (used + b2n (takesCredit m)) })
    startMsg c f (.plane h) (mirrorFrames m) 0 m.addr (b2n (takesCredit m)) d1

/-- Every chunk that has credit goes out, in order. -/
def flushMirror (c : Ctl) (h : Nat) (d : Dev) : Dev := (d.plane h).outq.foldl (fun x m => sendChunk c h m x) d

/-- A message of `n` chunks to a node failed: their credits are not used any more, and the transfer has failed (R317, R329). -/
def mirrorLost (c : Ctl) (h node addr n : Nat) (d : Dev) : Dev :=
  flushMirror c h (mirrorFailed c h node addr (d.modPlane h (fun y => { y with creditUsed := tabSet 0 y.creditUsed node (tabGet 0 y.creditUsed node - n) })))

/-- Where the chunks of a fan-out go from this package: its children in the tree of the group, rooted at the owner (R347). -/
def fanKids (d : Dev) (g : Group) (owner : Nat) : List (Nat × Nat) :=
  match rankOf g owner, rankOf g d.fab.node.toNat with
  | some o, some r => (treeKids g o r).map (fun k => (g.members.getD k 0, g.flows.getD k 0))
  | _, _ => []

/-- An owner's transfers start: to its twin, and to its replicas through their group. -/
def startMirror (c : Ctl) (h : Nat) (p : Panel) (step : Nat) (bad : Bool) (grad : List Byte) (d : Dev) : Dev :=
  let twin := if p.twinHdr ≠ 0 ∧ !p.untwinned then chunksTo (bits p.twinHdr 48 16) none (bits p.twinHdr 0 48) step bad grad else []
  let add := fun (l : List MirrorOut) (x : Dev) => x.modPlane h (fun y => { y with outq := y.outq ++ l })
  let d1 := add twin d
  let d2 := if p.replGroup = 0 then d1
    else match tabFind d1.coll.groups p.replGroup with
      | none => raise c d1 Fs.collOpFail p.replGroup
      | some g => (fanKids d1 g d.fab.node.toNat).foldl (fun x k => add (chunksTo k.1 (some k.2) (panelAddr d p.idx) step bad grad) x) d1
  flushMirror c h d2

/-! ## The updates due (R276) -/

/-- Order of updates: layer, then panel identifier (R276). -/
def dueKey (d : Dev) (i : Nat) : Nat := (panelAt d i).layer * 2 ^ 20 + (panelAt d i).id

/-- Insert by order. -/
def insertDue (d : Dev) (x : Nat × Nat) : List (Nat × Nat) → List (Nat × Nat)
  | [] => [x]
  | y :: ys => if dueKey d x.1 ≤ dueKey d y.1 then x :: y :: ys else y :: insertDue d x ys

/-- Updates that a clamp result of `step` makes due in the owner planes (R276): near panels for the step, far ones for the
step their lag names unless that was skipped. -/
def dueOf (d : Dev) (step : Nat) (p : Panel) : Option (Nat × Nat) :=
  let skipped := fun (n : Nat) => match resultOf d n with | some r => r.res.skip || r.res.abort | none => true
  if p.role ≠ 0 then none
  else if !p.far then (if skipped step then none else some (p.idx, step))
  else if step < p.lag then none
  else if skipped (step - p.lag) then none
  else some (p.idx, step - p.lag)

def makeDue (step : Nat) (d : Dev) : Dev :=
  (panels d).foldl (fun x p =>
    match dueOf d step p with
    | some u => x.modPlane (p.id % 8) (fun y => { y with due := y.due ++ insertDue d u [] })
    | none => x) d

/-- The new updates of every plane, sorted, behind those still due. -/
def sortDue (d : Dev) (old : Tab Plane) : Dev :=
  { d with planes := d.planes.map (fun p =>
    let n := ((tabGet {} old p.1).due).length
    (p.1, { p.2 with due := p.2.due.take n ++ (p.2.due.drop n).foldl (fun l u => insertDue d u l) [] })) }

/-- The planes become due for a result. -/
def dueAll (step : Nat) (d : Dev) : Dev := sortDue (makeDue step d) d.planes

/-! ## Computing (R271, R282, R283, R285, R286) -/

/-- Write every component of the new version; `none` without space. -/
def writeComps (now h : Nat) (p : Panel) : List (Option Nat × Nat × List Byte) → Dev → Option Dev
  | [], d => some d
  | (a, w, bs) :: rest, d => (writeComp now h p a w bs d).bind (writeComps now h p rest)

/-- A far panel passes through the staging area of its plane, all of it but the inbox. DESIGN CHOICE (log 141): the spec lays out no chunk in it,
so what an update leaves there is free, over as much of it as the panel's components and gradient fill (R282). -/
def useStaging (h : Nat) (p : Panel) (d : Dev) : Dev :=
  let each := (((arraysOf (p.version p.sel)).zip p.widths).filter (fun a => a.1.isSome)).map Prod.snd
  if p.far then { d.poke (d.plane h).stageBase.toNat (Dev.undefBytes d.free (min (0x4000000 - 0x20000) (p.nparam * (each.sum + 4)))) with free := d.free + 1 } else d

/-- The new version of a panel from its gradient, into the set that is not authoritative; with the device, whether it waits for repairs that it
has started. -/
def computePanel (c : Ctl) (h : Nat) (p : Panel) (step : Nat) (grad : List Byte) (d : Dev) : Bool × Dev :=
  match resultOf d step, optEntryFor d p.optSet step with
  | some r, some e =>
    let old := arraysOf (p.version p.sel)
    let new := arraysOf (p.version (1 - p.sel))
    let rd := readComps c h p (old.take 4 |>.zip (p.widths.map (fun w => w * p.nparam))) d []
    match rd.1, rd.2.1 with
    | none, true => (true, rd.2.2)
    | none, false => (false, failUpdate c h p step rd.2.2)
    | some cols, _ =>
      let d0 := useStaging h p (if p.far then (new.filterMap id).foldl (fun x a => freeImage a x) rd.2.2 else rd.2.2)
      let k := updConst (optVals e) p.wdEn r.res.kappa r.scale.toNat r.res.d (p.t + 1)
      let n := newState p (optVals e) k d.opt.seed.toNat step cols grad
      match writeComps c.now h p (new.zip (p.widths.zip n.1)) d0 with
      | none => (false, failUpdate c h p step d0)
      | some d1 =>
        let d2 := modUpd h (fun u => { u with computed := true }) (d1.modPlane h (fun x => { x with nonfiniteCnt := cntAdd x.nonfiniteCnt n.2 }))
        (false, raiseAll c d2 (List.replicate n.2 (Fs.plnNonfinite h, 0, p.id)))
  | _, _ => (false, failUpdate c h p step d)

/-- Does the slot of a step hold it? One that is FREE or holds another step has no contribution of it: its gradient is +0 (R266, R271). -/
def Panel.holdsStep (d : Dev) (p : Panel) (step : Nat) : Bool :=
  let s := slotAt d p (p.slotOf step)
  s.state != 0 && s.step == step

/-- The gradient of an owner's step, from the ledger, the ring or the sealed image. -/
def slotGrad (c : Ctl) (h : Nat) (p : Panel) (step : Nat) (d : Dev) : CompRead × Dev :=
  let j := p.slotOf step
  let n := p.nparam * 4
  if !p.holdsStep d step then (.bytes (List.replicate n 0), d)
  else if p.sealOn then readImage c (planeBay h) (slotAt d p j).map n d
  else
    let r := readSpanBy true c d (p.ledger + 4096 + j * n) n
    (if r.2.1 then .fail else .bytes r.1, r.2.2)

/-- May the update start: a SEAL slot of the step must be SEALED first (R271)? -/
def slotReady (d : Dev) (p : Panel) (step : Nat) : Bool :=
  let s := slotAt d p (p.slotOf step)
  !p.sealOn || !p.holdsStep d step || s.state == 3 || s.state == 4

/-- An owner's update in COMPUTING goes on as far as open repairs let it: the mirror transfer starts with the gradient, and the new version is
computed (R283, R286, R287). -/
def ownerProgress (c : Ctl) (h : Nat) (d : Dev) : Dev :=
  match (d.plane h).state, (d.plane h).cur with
  | .computing, some u =>
    if u.mirror || u.computed then d else
    let p := panelAt d u.idx
    let g := slotGrad c h p u.step d
    match g.1 with
    | .held => g.2
    | .fail => failUpdate c h p u.step g.2
    | .bytes bs =>
      (computePanel c h p u.step bs (if u.sent then g.2 else startMirror c h p u.step false bs (modUpd h (fun x => { x with sent := true }) g.2))).2
  | _, _ => d

/-- An owner's update starts: its slot goes to APPLYING (R271, R283). -/
def computeOwner (c : Ctl) (h : Nat) (p : Panel) (step : Nat) (d : Dev) : Dev :=
  let j := p.slotOf step
  let d1 := if p.holdsStep d step then putSlot p j { slotAt d p j with state := 4 } d else d
  ownerProgress c h (d1.modPlane h (fun y => { y with state := .computing, cur := some { idx := p.idx, step := step, mirror := false }, due := y.due.erase (p.idx, step) }))

/-! ## The states of an update (R283) -/

/-- Has the panel committed the step already (R283)? -/
def Panel.committed (p : Panel) (step : Nat) : Bool := p.valid && p.applied == step % 2 ^ 24

/-- The flow that answers a mirror transfer: a twin answers on the service flow of the owner's node, a replica on the flow of its group, or that of
the transfer where the group is not defined (R316, R337). -/
def backFlow (d : Dev) (t : MirrorIn) : Option Nat :=
  let p := panelAt d t.idx
  if p.role = 2 then
    let f := match (tabFind d.coll.groups p.replGroup).bind (fun g => (rankOf g t.node).map (fun r => g.flows.getD r 0)) with | some f => f | none => t.flow
    if openTo d f t.node then some f else none
  else serviceFlow d t.node

/-- A plane answers the plane that mirrors to it; with no flow open the answer fails as an operation does (R316, R317). -/
def planeSend (c : Ctl) (t : MirrorIn) (fr : Frame) (d : Dev) : Dev :=
  match backFlow d t with
  | some f => startMsg c f .engine [fr] 0 0 0 d
  | none => fabError c 1 t.node 0 d

/-- A plane sends credits back to the plane that mirrors to it (R329). -/
def giveCredit (c : Ctl) (h n : Nat) (t : MirrorIn) (d : Dev) : Dev :=
  if n = 0 then d else planeSend c t { opc := Opc.mirrorCredit, addr := BitVec.ofNat 64 h, attr := BitVec.ofNat 32 n } d

/-- The next whole chunk of the inbox is consumed. -/
def takeChunk (c : Ctl) (h : Nat) (d : Dev) : Option Dev :=
  match (d.plane h).transfer with
  | none => none
  | some t =>
    match (d.plane h).inbox.find? (fun x => x.chunk == t.got && x.lo.isSome && x.hi.isSome) with
    | none => none
    | some x =>
      some (giveCredit c h 1 t (d.modPlane h (fun y =>
        { y with inbox := y.inbox.erase x, transfer := some { t with got := t.got + 1, grad := t.grad ++ x.lo.getD [] ++ x.hi.getD [], bad := t.bad || x.bad } })))

def takeChunks (c : Ctl) (h : Nat) : Nat → Dev → Dev
  | 0, d => d
  | n + 1, d => match takeChunk c h d with
    | some d1 => takeChunks c h n d1
    | none => d

/-- The transfer ends: the credits of chunks still in the inbox go back. -/
def endTransfer (c : Ctl) (h : Nat) (d : Dev) : Dev :=
  match (d.plane h).transfer with
  | some t => giveCredit c h (d.plane h).inbox.length t (d.modPlane h (fun y => { y with transfer := none, inbox := [] }))
  | none => d

/-- A twin or replica in COMPUTING takes the chunks that are in; with all of them the new version is computed (R288). -/
def mirrorProgress (c : Ctl) (h : Nat) (d : Dev) : Dev :=
  match (d.plane h).cur with
  | some u =>
    if !u.mirror || u.computed || (d.plane h).state != .computing then d else
    let d1 := takeChunks c h 17 d
    match (d1.plane h).transfer with
    | some t =>
      let p := panelAt d1 u.idx
      if t.idx ≠ u.idx ∨ t.step ≠ u.step ∨ t.got * 2048 < p.nparam then d1
      else if t.bad then failUpdate c h p u.step (endTransfer c h d1)
      else (computePanel c h p u.step t.grad d1).2
    | none => d1
  | none => d

/-- The mirror update a plane can start: its transfer's clamp result is held (R288). -/
def mirrorDue (d : Dev) (h : Nat) : Option (Nat × Nat) :=
  match (d.plane h).transfer with
  | some t => if (resultOf d t.step).isSome then some (t.idx, t.step) else none
  | none => none

/-! ## What mirror frames do (R288, R329, R347) -/

/-- Table index of the header at an address, if one is defined there. -/
def panelIdxAt (d : Dev) (a : Nat) : Option Nat :=
  let b := (d.plane 0).panelBase.toNat
  if a < b ∨ (a - b) % 256 ≠ 0 then none else if (tabFind d.opt.panels ((a - b) / 256)).isSome then some ((a - b) / 256) else none

/-- Place of a chunk in the inbox: the last 128 KiB of the staging area. -/
def inboxAddr (pl : Plane) (chunk half : Nat) : Nat := pl.stageBase.toNat + 0x4000000 - 0x20000 + chunk % 16 * 8192 + half * 4096

/-- A half-chunk in the inbox. -/
def putHalf (chunk half : Nat) (bs : List Byte) (bad : Bool) (l : List InboxChunk) : List InboxChunk :=
  let x := (l.find? (fun y => y.chunk == chunk)).getD { chunk := chunk }
  let y := if half = 0 then { x with lo := some bs } else { x with hi := some bs }
  (l.filter (fun z => z.chunk != chunk)) ++ [{ y with bad := y.bad || bad }]

/-- The owner that a fan-out is rooted at, for the member of rank `r` that has it from rank `s` (R347). DESIGN CHOICE (log 60): a MIRROR frame does
not name the owner; it is taken for the lowest rank whose tree has `s` as the parent of `r`. -/
def fanRoot (g : Group) (s r : Nat) : Nat := ((List.range g.members.length).find? (fun o => (treeKids g o s).contains r)).getD s

/-- An interior replica forwards a half-chunk to its children once it lies in its own inbox (R347). -/
def forwardHalf (c : Ctl) (h : Nat) (p : Panel) (t : MirrorIn) (addr chunk half : Nat) (bs : List Byte) (bad : Bool) (d : Dev) : Dev :=
  if p.role ≠ 2 then d else
  match tabFind d.coll.groups p.replGroup with
  | none => d
  | some g =>
    match rankOf g t.node, rankOf g d.fab.node.toNat with
    | some s, some r =>
      let m := fun (k : Nat × Nat) => ({ node := k.1, flow := some k.2, addr := addr, step := t.step, chunk := chunk, data := bs, bad := bad, half := some half } : MirrorOut)
      flushMirror c h (d.modPlane h (fun y => { y with outq := y.outq ++ (fanKids d g (g.members.getD (fanRoot g s r) 0)).map m }))
    | _, _ => d

/-- The half-chunk joins the transfer that holds the inbox; chunk 0 again starts it anew. -/
def joinTransfer (c : Ctl) (h : Nat) (p : Panel) (t : MirrorIn) (addr chunk half : Nat) (bs : List Byte) (bad : Bool) (d : Dev) : Dev :=
  let t1 := if chunk = 0 ∧ 0 < t.got then { t with got := 0, grad := [], bad := false } else t
  let a := inboxAddr (d.plane h) chunk half
  let d1 := (d.poke a bs).modPlane h (fun y => { y with transfer := some t1, inbox := putHalf chunk half bs bad y.inbox })
  let d2 := if bad then (Memory.linesOf a 4096).foldl (fun x l => x.pokePoison l) d1 else d1
  mirrorProgress c h (forwardHalf c h p t addr chunk half bs bad d2)

/-- A half-chunk goes to the transfer that holds the inbox, or starts one; refused where the sending plane has no credit here (R323, R329). -/
def mirrorTake (c : Ctl) (m : MirrorAsk) (addr chunk half : Nat) (bs : List Byte) (bad : Bool) (d : Dev) : Contributed × Dev :=
  let p := panelAt d m.idx
  let h := p.id % 8
  let fresh : MirrorIn := { idx := m.idx, step := m.step, node := m.node, flow := m.flow }
  match (d.plane h).transfer with
  | some t =>
    let full := decide (16 ≤ (d.plane h).inbox.length) && !(d.plane h).inbox.any (fun x => x.chunk == chunk)
    if full then (.denied, d) else (.applied, joinTransfer c h p t addr chunk half bs bad d)
  | none =>
    if p.committed m.step && chunk != 0 then (.applied, giveCredit c h half fresh d)
    else (.applied, joinTransfer c h p fresh addr chunk half bs bad d)

/-- Does a transfer hold the inbox, or may it take it: nobody holds it, and nobody asked before (R329)? -/
def mayEnter (pl : Plane) (m : MirrorAsk) : Bool :=
  match pl.transfer with
  | some t => t.idx == m.idx && t.step == m.step && t.node == m.node
  | none => pl.asks.headD m == m

/-- A half-chunk arrives from a node by a flow (R288, R329): refused where the target holds no such header or the sending plane has no credit here
(R323). A transfer that asks while another has the inbox waits for its grant: its frames are held back by RNR, and so not acknowledged before they
lie in the inbox (R313, R314). -/
def mirrorArrive (c : Ctl) (addr step chunk half node flow : Nat) (bs : List Byte) (bad : Bool) (d : Dev) : Contributed × Dev :=
  match panelIdxAt d addr with
  | none => (.denied, d)
  | some i =>
    let p := panelAt d i
    let h := p.id % 8
    let m : MirrorAsk := { idx := i, step := step, node := node, flow := flow }
    if p.role = 0 then (.denied, d)
    else if mayEnter (d.plane h) m then mirrorTake c m addr chunk half bs bad (d.modPlane h (fun y => { y with asks := y.asks.erase m }))
    else (.held, d.modPlane h (fun y => { y with asks := if y.asks.contains m then y.asks else y.asks ++ [m] }))

/-- MIRROR_CREDIT from a node: credits of plane `h` there come back, and more chunks go out. -/
def creditArrive (c : Ctl) (h n node : Nat) (d : Dev) : Dev :=
  flushMirror c h (d.modPlane h (fun y => { y with creditUsed := tabSet 0 y.creditUsed node (tabGet 0 y.creditUsed node - n) }))

/-- TWIN_DONE for the owner's header at an address: the update in hand has its acknowledgement, one that waits for it ends (R283, R329). -/
def twinDoneArrive (c : Ctl) (addr step : Nat) (d : Dev) : Option Dev :=
  match panelIdxAt d addr with
  | none => none
  | some i =>
    let p := panelAt d i
    let h := p.id % 8
    let its := fun (u : Update) => u.idx == i && u.step % 2 ^ 32 == step && !u.mirror
    if p.role ≠ 0 then none
    else if (d.plane h).cur.any its then some (modUpd h (fun x => { x with twinAck := true }) d)
    else match (d.plane h).parked.find? its with
      | some u => some (finishParked c h u d)
      | none => some d

/-! ## The rows of a plane (R283, R288) -/

/-- The first update due of a panel for which the plane is not stopped (R276, R286). -/
def nextDue (pl : Plane) : Option (Nat × Nat) := pl.due.find? (fun x => !pl.stopped.any (fun y => y.1 == x.1))

/-- A plane takes the next update due; one that is stopped for a panel goes on with others (R286). An update of a panel whose last one still waits
for its twin waits with it (log 140). -/
def devUpdateStart (h : Nat) (c : Ctl) (d : Dev) : Dev :=
  let pl := d.plane h
  if pl.halted || !(pl.state == .idle || pl.state == .stopped) then d else
  match nextDue pl, mirrorDue d h with
  | some (i, step), _ =>
    let p := panelAt d i
    let rest := pl.due.erase (i, step)
    if pl.parked.any (fun u => u.idx == i) then d
    else if p.committed step then d.modPlane h (fun y => { y with state := .committed, cur := some { idx := i, step := step, mirror := p.role != 0, computed := true }, due := rest })
    else if p.role ≠ 0 then
      mirrorProgress c h (d.modPlane h (fun y => { y with state := .computing, cur := some { idx := i, step := step, mirror := true }, due := rest }))
    else if slotReady d p step then computeOwner c h p step d else d
  | none, some (i, step) =>
    let p := panelAt d i
    let u : Update := { idx := i, step := step, mirror := true, computed := p.committed step }
    if pl.stopped.any (fun y => y.1 == i) then d
    else mirrorProgress c h (d.modPlane h (fun y => { y with state := if p.committed step then .committed else .computing, cur := some u }))
  | none, none => d

def execPlaneUpdateStart (plane : Fin 8) (s : State) : Host.Outcome State Fault Refusal := onWork (devUpdateStart plane.val) s

/-- Are the twin's chunks all sent? -/
def twinSent (d : Dev) (h : Nat) (p : Panel) : Bool := !(d.plane h).outq.any (fun m => m.flow.isNone && m.node == bits p.twinHdr 48 16)

/-- Every chunk is written: the commit word is written as one aligned 8-byte write (R264, R283). -/
def writeCommit (c : Ctl) (h : Nat) (d : Dev) : Dev :=
  match (d.plane h).state, (d.plane h).cur with
  | .computing, some u =>
    let p := panelAt d u.idx
    if !u.computed || !(u.mirror || twinSent d h p) then d else
    updatesDone c ((d.poke64 (panelAddr d u.idx) ((1 - p.sel) + 2 + (p.t + 1) % 2 ^ 32 * 2 ^ 8 + u.step % 2 ^ 24 * 2 ^ 40)).modPlane h (fun y => { y with state := .committed }))
  | _, _ => d

/-- What repairs held up is computed first. -/
def devPlaneCommit (h : Nat) (c : Ctl) (d : Dev) : Dev := writeCommit c h (mirrorProgress c h (ownerProgress c h d))

def execPlaneCommit (plane : Fin 8) (s : State) : Host.Outcome State Fault Refusal := onWork (devPlaneCommit plane.val) s

/-- Copy a span of whole lines; a line read with poison is written with poison (R153, R155). -/
def copySpan (c : Ctl) (a b n : Nat) (d : Dev) : Dev :=
  let r := readSpanBy true c d a n
  (Memory.linesOf a n).zipIdx.foldl (fun x l => if d.linePoison l.1 then x.pokePoison (b / 64 + l.2) else x) (r.2.2.pokeTagged b r.1)

/-- Copy the image of the authoritative version to PUB_IMAGE: the array, or the map's entries with ENTRIES last (R263, R283). -/
def publish (c : Ctl) (p : Panel) (d : Dev) : Dev :=
  let img := (p.version p.sel).getD 4 0
  if p.far then
    let n := d.mapEntries img
    let r := readSpanBy true c d img (64 + 8 * n)
    let bad := (Memory.linesOf img (64 + 8 * n)).filter d.linePoison
    (bad.foldl (fun x l => x.pokePoison (p.pub / 64 + (l - img / 64))) (r.2.2.poke (p.pub + 64) (r.1.drop 64))).poke32 p.pub n
  else copySpan c img p.pub (p.nparam * 2) d

/-- TWIN_DONE to the owner of a mirror transfer (R288, R329). -/
def sendTwinDone (c : Ctl) (h : Nat) (p : Panel) (step : Nat) (d : Dev) : Dev :=
  match (d.plane h).transfer with
  | some t =>
    if p.role ≠ 1 then d else planeSend c t { opc := Opc.twinDone, addr := BitVec.ofNat 64 (bits p.twinHdr 0 48), aux := BitVec.ofNat 32 step } d
  | none => d

/-- A row of an update that has its commit word written: it completes in the safe state too, until the stacks are in self-refresh (R284, R461). -/
def onCommitted (f : Ctl → Dev → Dev) (s : State) : Host.Outcome State Fault Refusal :=
  onDev (fun c d => if d.fc.entering && d.near.selfRefresh then d else f c d) s

/-- The commit word is acknowledged: a twin acknowledges to its owner, and the image is published (R283, R288). -/
def devCommitAck (h : Nat) (c : Ctl) (d : Dev) : Dev :=
  match (d.plane h).state, (d.plane h).cur with
  | .committed, some u =>
    let p := panelAt d u.idx
    let d1 := if u.mirror then endTransfer c h (sendTwinDone c h p u.step d) else d
    (publish c p d1).modPlane h (fun y => { y with state := .publishing })
  | _, _ => d

def execPlaneCommitAck (plane : Fin 8) (s : State) : Host.Outcome State Fault Refusal := onCommitted (devCommitAck plane.val) s

/-- The publication is acknowledged: the other set's segments and the slot are released (R271, R283). -/
def devPublishAck (h : Nat) (_ : Ctl) (d : Dev) : Dev :=
  match (d.plane h).state, (d.plane h).cur with
  | .publishing, some u =>
    let p := panelAt d u.idx
    let d1 := if p.far then ((arraysOf (p.version (1 - p.sel))).filterMap id).foldl (fun x a => freeImage a x) d else d
    let j := p.slotOf u.step
    let d2 := if p.role = 0 ∧ (slotAt d1 p j).step = u.step then freeSlot p j d1 else d1
    d2.modPlane h (fun y => { y with state := .releasing })
  | _, _ => d

def execPlanePublishAck (plane : Fin 8) (s : State) : Host.Outcome State Fault Refusal := onCommitted (devPublishAck plane.val) s

/-- Does an update end without its twin's acknowledgement: it is a mirror's, or has no twin, or has the acknowledgement (R283)? -/
def twinSettled (p : Panel) (u : Update) : Bool := u.mirror || u.twinAck || p.twinHdr == 0 || p.untwinned

/-- The release is acknowledged. Without the twin's acknowledgement the update waits in RELEASING, and the plane is free for the next one: it
runs one panel at a time through COMPUTING only (R283). -/
def devReleaseAck (h : Nat) (c : Ctl) (d : Dev) : Dev :=
  match (d.plane h).state, (d.plane h).cur with
  | .releasing, some u =>
    if twinSettled (panelAt d u.idx) u then finishUpdate c h u d
    else if u.twinFailed then finishUpdate c h u (loseTwin c h u d)
    else d.modPlane h (fun y => { y with state := .idle, cur := none, parked := y.parked ++ [u] })
  | _, _ => d

def execPlaneReleaseAck (plane : Fin 8) (s : State) : Host.Outcome State Fault Refusal := onCommitted (devReleaseAck plane.val) s

/-- PLN_TWIN_TIMEOUT expires for an update in RELEASING: the twin is lost. On a tie its acknowledgement wins (R24, R283). -/
def twinExpired (c : Ctl) (h : Nat) (tie : Bool) (d : Dev) : Dev :=
  match (d.plane h).state, (d.plane h).cur, (d.plane h).parked with
  | .releasing, some u, _ =>
    if twinSettled (panelAt d u.idx) u then d
    else if tie then modUpd h (fun x => { x with twinAck := true }) d
    else finishUpdate c h u (loseTwin c h u d)
  | _, _, u :: _ => finishParked c h u (if tie then d else loseTwin c h u d)
  | _, _, [] => d

/-- PLN_TWIN_TIMEOUT expires for a mirror update that waits for chunks: it stops. On a tie the chunk wins (R24, R288). DESIGN CHOICE (log 159):
the plane is then IDLE, the transfer is gone, and nothing waits for a re-run, since the owner goes on UNTWINNED (R283). -/
def inboxExpired (c : Ctl) (h : Nat) (u : Update) (d : Dev) : Dev :=
  let d1 := (endTransfer c h d).modPlane h (fun y => { y with state := .idle, cur := none, twinLostCnt := cntInc y.twinLostCnt, rerun := y.rerun.erase (u.idx, u.step) })
  raise c (updatesDone c d1) (Fs.plnTwinLost h) (panelAt d u.idx).id

/-- PLN_TWIN_TIMEOUT expires (R283, R288). DESIGN CHOICE (log 140): the row names no update, and is taken for the one in RELEASING, else the oldest
that waits for its twin, else the mirror update in COMPUTING. -/
def devTwinTimeout (h : Nat) (tie : Bool) (c : Ctl) (d : Dev) : Dev :=
  let pl := d.plane h
  let waits := pl.cur.any (fun u => pl.state == .releasing && !twinSettled (panelAt d u.idx) u)
  let count := fun (x : Dev) => if tie then x.modPlane h (fun y => { y with tieCnt := cntInc y.tieCnt }) else x
  if waits || (pl.state != .releasing && !pl.parked.isEmpty) then count (twinExpired c h tie d)
  else match pl.state, pl.cur with
    | .computing, some u => if !u.mirror || u.computed then d else if tie then count d else inboxExpired c h u d
    | _, _ => d

def execPlaneTwinTimeoutExpiry (plane : Fin 8) (tie : Bool) (s : State) : Host.Outcome State Fault Refusal := onCommitted (devTwinTimeout plane.val tie) s

/-! ## Sealing (R273) -/

/-- A CLOSED SEAL slot is put into its image; its frames are zeroed and freed. A PUT that fails leaves it CLOSED. -/
def sealSlot (c : Ctl) (p : Panel) (j : Nat) (d : Dev) : Dev :=
  let h := p.id % 8
  let r := (slotSpans d p j 0 (p.nparam * 4)).foldl (fun (a : List Byte × Bool × Dev) s =>
    let y := readSpanBy true c a.2.2 s.1 s.2
    (a.1 ++ y.1, a.2.1 || y.2.1, y.2.2)) ([], false, d)
  let s := slotAt d p j
  match (if r.2.1 then none else putImage c.now (planeBay h) 2 s.map r.1 (freeImage s.map (squareAll p j r.2.2))) with
  | some d1 => putSlot p j { s with state := 3 } (giveFrames p j d1)
  | none => raise c r.2.2 (Fs.plnUpdateFail h) p.id

def devSealPutDone (idx j : Nat) (c : Ctl) (d : Dev) : Dev :=
  if (tabFind d.opt.panels idx).isNone then d else
  let p := panelAt d idx
  if p.role = 0 ∧ p.sealOn ∧ j < p.slots ∧ (slotAt d p j).state = 2 then sealSlot c p j d else d

def execSealPutDone (panel : Nat) (slot : Fin 5) (s : State) : Host.Outcome State Fault Refusal := onWork (devSealPutDone panel slot.val) s

end Sys2Proof.Machine
end

