-- ==== Sys2Proof/Machine/Coll.lean ====
section
/-! DEFINITION. The collective engine (09): collective operations, barriers and the dovetail. -/

namespace Sys2Proof.Machine

open Sys2Proof

/-! ## Descriptors (R340, R527) -/

/-- The fields of a collective descriptor. -/
structure CollDesc where
  op : Nat
  fmt : Nat
  ordered : Bool
  group : Nat
  root : Nat
  mb : Nat
  src : Nat
  dst : Nat
  len : Nat
  aux : Nat
  auxLen : Nat
  resv : Bool
  word7 : Nat
  deriving DecidableEq, Repr

def collDescOf (ws : List Nat) : CollDesc :=
  let w := wordAt ws
  { op := bits (w 0) 0 8, fmt := bits (w 0) 8 4, ordered := bitAt (w 0) 12, group := bits (w 0) 16 16, root := bits (w 0) 32 16, mb := bits (w 0) 48 16,
    src := bits (w 1) 0 48, dst := bits (w 2) 0 48, len := bits (w 3) 0 40, aux := bits (w 4) 0 48, auxLen := bits (w 5) 0 32,
    resv := bits (w 0) 13 3 != 0 || bits (w 1) 48 16 != 0 || bits (w 2) 48 16 != 0 || bits (w 3) 40 24 != 0 || bits (w 4) 48 16 != 0 ||
      bits (w 5) 32 32 != 0 || w 6 != 0,
    word7 := w 7 }

/-- The fields an operation does not use are zero (R527). -/
def unusedZero (x : CollDesc) : Bool :=
  match x.op with
  | 1 => x.group == 0 && x.root == 0 && x.dst == 0
  | 2 => !x.ordered && x.root == 0 && x.mb == 0 && x.aux == 0 && x.auxLen == 0
  | 3 => x.fmt == 0 && !x.ordered && x.root == 0 && x.mb == 0 && x.aux == 0 && x.auxLen == 0
  | 4 => !x.ordered && x.root == 0 && x.mb == 0 && x.aux == 0 && x.auxLen == 0
  | 5 => x.fmt == 0 && !x.ordered && x.mb == 0 && x.aux == 0 && x.auxLen == 0
  | 6 => x.fmt == 0 && !x.ordered && x.root == 0 && x.mb == 0 && x.src == 0 && x.dst == 0 && x.len == 0 && x.aux == 0 && x.auxLen == 0
  | 7 => x.fmt == 0 && !x.ordered && x.root == 0 && x.mb == 0 && x.src == 0 && x.len == 0
  | 8 => x.fmt == 0 && !x.ordered && x.root == 0 && x.mb == 0 && x.src == 0 && x.dst == 0 && x.len == 0 && x.auxLen == 0
  | _ => false

/-- Bytes of an element (R69). -/
def collWidth (fmt : Nat) : Nat := if fmt = 0 then 4 else 2

/-- The group an operation runs in; 0 for a GRAD_SEND. -/
def CollOp.grp (x : CollOp) : Nat := (collDescOf x.words).group

/-! ## Trees (R338) -/

def parentOf (g : Group) (r : Nat) : Nat := (r - 1) / g.fanout

/-- Is rank `x` in the subtree of rank `r`? -/
def inSubtree (g : Group) (r : Nat) : Nat → Nat → Bool
  | 0, x => x == r
  | n + 1, x => x == r || (x != 0 && inSubtree g r n (parentOf g x))

/-- Ranks of the subtree of `r`. -/
def subtree (g : Group) (r : Nat) : List Nat := (List.range g.members.length).filter (inSubtree g r 17)

def kidsOf (g : Group) (r : Nat) : List Nat := treeKids g 0 r

/-- This package's rank in a group. -/
def myRank (d : Dev) (g : Group) : Nat := (rankOf g d.fab.node.toNat).getD 0

/-- Is the flow to a member open? The own rank needs none. -/
def memberOpen (d : Dev) (g : Group) (r : Nat) : Bool := r == myRank d g || openTo d (g.flows.getD r 0) (g.members.getD r 0)

/-- Members whose flows an operation names. -/
def namedRanks (d : Dev) (g : Group) (x : CollDesc) : List Nat :=
  let k := myRank d g
  let n := g.members.length
  let up := if k = 0 then [] else [parentOf g k]
  match x.op with
  | 5 => let v := (k + n - x.root % n) % n; treeKids g x.root k ++ (if v = 0 then [] else [(parentOf g v + x.root) % n])
  | 6 => up ++ kidsOf g k
  | 7 => up ++ kidsOf g k
  | 8 => List.range n
  | _ => [(k + 1) % n, (k + n - 1) % n]

/-! ## Checks (R340, R345) -/

/-- Shard map entries of a GRAD_SEND. -/
def shardMap (d : Dev) (x : CollDesc) : List (List Nat) := (List.range x.auxLen).map (fun i => wordsOf (d.peekBytes (x.aux + 32 * i) 32))

/-- Entries in ascending order without overlap. -/
def shardsOrdered : List (List Nat) → Bool
  | [] => true
  | [_] => true
  | a :: b :: t => decide (bits (wordAt a 0) 0 32 + bits (wordAt a 0) 32 32 ≤ bits (wordAt b 0) 0 32) && decide (bits (wordAt a 0) 0 32 < bits (wordAt b 0) 0 32) && shardsOrdered (b :: t)

/-- The check of a shard map: the failing status (R345). -/
def shardCheck (d : Dev) (x : CollDesc) : Option Nat :=
  let es := shardMap d x
  if es.any (fun e => bits (wordAt e 1) 52 12 != 0 || bits (wordAt e 2) 32 32 != 0 || wordAt e 3 != 0) || !shardsOrdered es then some 1
  else if es.any (fun e => decide (x.len / 1024 < bits (wordAt e 0) 0 32 + bits (wordAt e 0) 32 32)) then some 2
  else if es.any (fun e => !openTo d (bits (wordAt e 1) 16 16) (bits (wordAt e 1) 0 16)) then some 6
  else none

/-- A span of the near tier within a registered region. -/
def nearSpan (d : Dev) (a n : Nat) : Bool := n == 0 || (d.isNear a n && d.engineSpan a n)

/-- Spans of an operation (check 3). -/
def collSpans (d : Dev) (g : Group) (x : CollDesc) : Bool :=
  let n := g.members.length
  let e := collWidth x.fmt
  match x.op with
  | 1 => nearSpan d x.src (x.len * e) && nearSpan d x.aux (x.auxLen * 32)
  | 2 => nearSpan d x.src (x.len * e) && nearSpan d x.dst (ceilDiv x.len n * e)
  | 3 => nearSpan d x.src x.len && nearSpan d x.dst (x.len * n)
  | 4 => nearSpan d x.src (x.len * e) && nearSpan d x.dst (x.len * e)
  | 5 => (myRank d g != x.root || nearSpan d x.src x.len) && nearSpan d x.dst x.len
  | 7 => nearSpan d x.dst (x.auxLen * 1088) && nearSpan d x.aux 16
  | 8 => nearSpan d x.aux 64 && nearSpan d x.aux (64 + 32 * bits (d.peek64 x.aux) 32 32)
  | _ => true

def usesLen (op : Nat) : Bool := 1 ≤ op && op ≤ 5

/-- Bytes of a dovetail descriptor, by its header. -/
def doveLen (d : Dev) (a : Nat) : Nat := 64 + 32 * bits (d.peek64 a) 32 32

/-- The status with which an operation ends before it begins, if it does (R340). A member declared lost is absent in the clamp
(R353, R359, R464) and does not stop a CLAMP. -/
def collEarly (d : Dev) (o : CollOp) : Option Nat :=
  let x := collDescOf o.words
  let g := tabFind d.coll.groups x.group
  if o.poison then some 4
  else if x.word7 ≠ 0 ∨ x.resv ∨ !unusedZero x ∨ ((x.op = 1 ∨ x.op = 2 ∨ x.op = 4) ∧ 3 ≤ x.fmt) ∨ (x.op = 7 ∧ x.auxLen = 0) then some 1
  else if usesLen x.op ∧ x.len = 0 then some 0
  else if x.op = 1 then
    (if !collSpans d { members := [0], flows := [0], fanout := 8, clamp := false, watch := false, mbMask := [] } x ∨ x.len % 1024 ≠ 0 then some 2 else if d.peekPoison x.aux (32 * x.auxLen) then some 4 else shardCheck d x)
  else match g with
    | none => some 6
    | some g =>
      if (rankOf g d.fab.node.toNat).isNone then some 6
      else if x.op = 5 ∧ g.members.length ≤ x.root then some 1
      else if !(namedRanks d g x).all (fun r => memberOpen d g r || (x.op == 7 && (d.node (g.members.getD r 0)).lost)) then some 6
      else if !collSpans d g x then some 2
      else if x.op = 8 ∧ d.peekPoison x.aux (doveLen d x.aux) then some 4
      else none

/-! ## Operations in order (R344) -/

/-- A COLL record names a descriptor (R340): it is read and joins the operations. -/
def issueColl (qi : Nat) (r : JigRec) (q : Queue) (serial : Nat) (d : Dev) : IssueResult × Dev :=
  let a := recAddr q r
  match nearCheck d a with
  | some st => (.fails st, d)
  | none =>
    let o : CollOp := { seq := d.coll.seq, desc := a, tag := some { jig := 4, queue := qi, record := serial }, words := wordsOf (d.peekBytes a 64), poison := d.peekPoison a 64,
                        step := d.life.step.toNat }
    let grp := (collDescOf o.words).group
    (.openOn 0 true, d.modColl (fun m => { m with ops := m.ops ++ [o], seq := m.seq + 1, named := if m.named.contains grp then m.named else m.named ++ [grp] }))

def execColl (queue : Nat) (s : State) : Host.Outcome State Fault Refusal := onWork (issueKind 11 4 queue (issueColl queue)) s

/-- Is no earlier operation of the same group still there? A GRAD_SEND names no group and waits for none (R337, R344). -/
def turnOf (ops : List CollOp) (o : CollOp) : Bool :=
  o.grp == 0 || match ops.find? (fun x => x.grp == o.grp) with
  | some x => x.seq == o.seq
  | none => true

/-- The operation of a kind that can start now. -/
def nextColl (d : Dev) (op : Nat) : Option CollOp :=
  d.coll.ops.find? (fun o => !o.started && (collDescOf o.words).op == op && turnOf d.coll.ops o && (collEarly d o).isNone)

def modOp (seq : Nat) (f : CollOp → CollOp) (d : Dev) : Dev := d.modColl (fun m => { m with ops := m.ops.map (fun o => if o.seq = seq then f o else o) })
def opAt (d : Dev) (seq : Nat) : Option CollOp := d.coll.ops.find? (fun o => o.seq == seq)

/-- An operation takes the next operation sequence of its group and starts. -/
def beginOp (o : CollOp) (d : Dev) : CollOp × Dev :=
  let g := tabFind d.coll.groups o.grp
  let n := match g with | some x => x.opSeq | none => 0
  let o1 := { o with started := true, gseq := n }
  let d1 := match g with | some x => d.modColl (fun m => { m with groups := tabPut m.groups o.grp { x with opSeq := n + 1 } }) | none => d
  (o1, modOp o.seq (fun _ => o1) d1)

/-- An operation is done but for its acknowledgements. -/
def finishOp (seq st : Nat) (d : Dev) : Dev := modOp seq (fun o => { o with finished := true, status := if o.status ≠ 0 then o.status else st }) d

/-- Is an operation a DOVETAIL? -/
def isDove (d : Dev) (seq : Nat) : Bool := match opAt d seq with | some o => (collDescOf o.words).op == 8 | none => false

/-- Status of an operation that a wire status ends (R317): CHECK_FAIL, POISONED, or of a DOVETAIL whose flow has failed TIMEOUT (R363). -/
def wireStatus (wire : Nat) (dove : Bool) : Nat := if wire = 4 then 5 else if decide (wire = 15) && dove then 7 else 4

/-- The context to a member is no longer OPEN to it: the operation fails as on a failed flow, and nothing is sent (R308, R316). -/
def collLost (c : Ctl) (seq flow node : Nat) (d : Dev) : Dev :=
  let st := wireStatus 15 (isDove d seq)
  let d1 := modOp seq (fun y => if y.status = 0 then { y with status := st, blame := some node } else y) d
  fabError c 15 node flow (match opAt d1 seq with | some o => if o.own then d1 else finishOp seq st d1 | none => d1)

/-- Start a message of an operation to a member. -/
def collMsg (c : Ctl) (seq : Nat) (g : Group) (r : Nat) (frs : List Frame) (respDue addr dest : Nat) (d : Dev) : Dev :=
  let f := g.flows.getD r 0
  let node := g.members.getD r 0
  if openTo d f node then startMsg c f (.coll seq) frs respDue addr dest d else collLost c seq f node d

/-- Send frames of an operation to a member. -/
def collSend (c : Ctl) (seq : Nat) (g : Group) (r : Nat) (frs : List Frame) (d : Dev) : Dev :=
  if frs.isEmpty then d else collMsg c seq g r frs 0 0 0 d

/-- COLL_DATA frames of bytes of a ring step (R348). ADDR is the offset within the data of the step. -/
def dataFrames (group gseq ring : Nat) (bad : Bool) (bs : List Byte) : List Frame :=
  ((chunksOf 4096 (bs.length + 1) bs).zipIdx).map (fun p =>
    { opc := Opc.collData, addr := BitVec.ofNat 64 (p.2 * 4096), attr := BitVec.ofNat 32 (group + ring * 2 ^ 16), aux := BitVec.ofNat 32 gseq, payload := p.1, poison := bad })

/-- Poison that the engine reads of its source: the operation is to end with POISONED, and the errors are recorded (R153). -/
def sourcePoison (c : Ctl) (seq a n : Nat) (d : Dev) : Dev :=
  if d.peekPoison a n then notePoison c a n (modOp seq (fun y => { y with status := if y.status = 0 then 4 else y.status }) d) else d

/-! ## GRAD_SEND (R345) -/

/-- PANEL_ADD frames of a shard map entry. -/
def shardFrames (d : Dev) (x : CollDesc) (step : Nat) (e : List Nat) : List Frame :=
  let w := collWidth x.fmt
  let per := if x.ordered ∨ x.fmt = 0 then 1 else 2
  let runs := bits (wordAt e 0) 32 32
  (List.range (ceilDiv runs per)).map (fun i =>
    let k := min per (runs - i * per)
    let a := x.src + (bits (wordAt e 0) 0 32 + i * per) * 1024 * w
    { opc := Opc.panelAdd, ordered := x.ordered, addr := BitVec.ofNat 64 ((bits (wordAt e 2) 0 32 + i * per) * 1024 % 2 ^ 28 + bits (wordAt e 1) 32 20 * 2 ^ 28),
      attr := BitVec.ofNat 32 (x.fmt + x.mb * 2 ^ 16), aux := BitVec.ofNat 32 step, payload := d.peekBytes a (k * 1024 * w), poison := d.peekPoison a (k * 1024 * w) })

def devGradSend (c : Ctl) (d : Dev) : Dev :=
  match nextColl d 1 with
  | none => d
  | some o =>
    let x := collDescOf o.words
    let b := beginOp o d
    let d1 := (shardMap b.2 x).foldl (fun y e =>
      let frs := shardFrames y x o.step e
      if frs.isEmpty then y else startMsg c (bits (wordAt e 1) 16 16) (.coll o.seq) frs 0 0 0 y) b.2
    (shardMap b.2 x).foldl (fun y e =>
      sourcePoison c o.seq (x.src + bits (wordAt e 0) 0 32 * 1024 * collWidth x.fmt) (bits (wordAt e 0) 32 32 * 1024 * collWidth x.fmt) y) (finishOp o.seq 0 d1)

def execGradSend (s : State) : Host.Outcome State Fault Refusal := onWork devGradSend s

/-! ## Rings (R341, R343) -/

/-- Block `r` of `len` units over `n` members: first unit and count. -/
def ringBlock (len n r : Nat) : Nat × Nat :=
  let size := ceilDiv len n
  (min len (r * size), min size (len - min len (r * size)))

/-- FP32 encodings of source elements. -/
def toF32 (fmt : Nat) (bs : List Byte) : List Nat :=
  (chunksOf (collWidth fmt) (bs.length + 1) bs).map (fun e => if fmt = 0 then leNat e else to32 (decodeFl (fmtSpec fmt) (leNat e)))

/-- FP32 encodings as elements of FMT (R77). -/
def ofF32 (fmt : Nat) (vs : List Nat) : List Byte := vs.flatMap (fun v => if fmt = 0 then natLE 4 v else natLE 2 (encodeFl (fmtSpec fmt) none (f32 v)))

/-- Element-wise FP32 sum, each addition rounded once (R343). -/
def sumF32 (a b : List Nat) : List Nat := List.zipWith (fun x y => to32 (add32 (f32 x) (f32 y))) a b

/-- Data of a ring step, if all of it has arrived. -/
def collGot (d : Dev) (group gseq ring n : Nat) : Option (List Byte × Bool) :=
  let l := d.coll.inData.filter (fun x => x.group == group && x.gseq == gseq && x.ring == ring)
  if n = 0 then some ([], false)
  else if (l.map (fun x => x.data.length)).sum < n then none
  else
    let put := l.foldl (fun t x => cellsPut t x.off x.data) []
    some ((List.range n).map (fun i => (tabFind put i).getD 0), l.any (fun x => x.bad))

def dropData (group gseq ring : Nat) (d : Dev) : Dev :=
  d.modColl (fun m => { m with inData := m.inData.filter (fun x => !(x.group == group && x.gseq == gseq && x.ring == ring)) })

/-- Own source elements of a block, as FP32 bytes. -/
def ownBlock (d : Dev) (x : CollDesc) (lo n : Nat) : List Nat := toF32 x.fmt (d.peekBytes (x.src + lo * collWidth x.fmt) (n * collWidth x.fmt))

/-- Is a source block poisoned? -/
def ownBad (d : Dev) (x : CollDesc) (lo n : Nat) : Bool := d.peekPoison (x.src + lo * collWidth x.fmt) (n * collWidth x.fmt)

/-- The sum of a block is complete: it is stored, and in an ALL_REDUCE goes round (R343). -/
def ringResult (c : Ctl) (o : CollOp) (g : Group) (x : CollDesc) (k : Nat) (vs : List Nat) (bad : Bool) (d : Dev) : Dev :=
  let n := g.members.length
  let bs := ofF32 x.fmt vs
  let at_ := if x.op = 4 then x.dst + (ringBlock x.len n k).1 * collWidth x.fmt else x.dst
  let d1 := modOp o.seq (fun y => { y with stage := n - 1, bad := y.bad || bad }) (d.poke at_ bs)
  if x.op = 2 ∨ n = 1 then finishOp o.seq (if bad then 4 else 0) d1
  else collSend c o.seq g ((k + 1) % n) (dataFrames x.group o.gseq n bad bs) d1

/-- One ring step of a reduction: the partial received takes this member's addend. -/
def reduceStep (c : Ctl) (o : CollOp) (g : Group) (x : CollDesc) (k : Nat) (d : Dev) : Option Dev :=
  let n := g.members.length
  let s := o.stage + 1
  let b := (k + 2 * n - 1 - s) % n
  let blk := ringBlock x.len n b
  match collGot d x.group o.gseq s (blk.2 * 4) with
  | none => none
  | some r =>
    let vs := sumF32 ((chunksOf 4 (r.1.length + 1) r.1).map leNat) (ownBlock d x blk.1 blk.2)
    let bad := r.2 || ownBad d x blk.1 blk.2
    let d1 := modOp o.seq (fun y => { y with stage := s, bad := y.bad || bad }) (dropData x.group o.gseq s d)
    some (if s + 1 = n then ringResult c o g x k vs bad d1 else collSend c o.seq g ((k + 1) % n) (dataFrames x.group o.gseq (s + 1) bad (vs.flatMap (natLE 4))) d1)

/-- Place and bytes of block `b` in a gathering phase. -/
def gatherSpan (x : CollDesc) (n b : Nat) : Nat × Nat :=
  if x.op = 3 then (x.dst + b * x.len, x.len)
  else let k := ringBlock x.len n b; (x.dst + k.1 * collWidth x.fmt, k.2 * collWidth x.fmt)

/-- One ring step of a gathering phase: block `k - t` arrives, is stored and goes on. -/
def gatherStep (c : Ctl) (o : CollOp) (g : Group) (x : CollDesc) (k base : Nat) (d : Dev) : Option Dev :=
  let n := g.members.length
  let t := o.stage - base + 1
  let sp := gatherSpan x n ((k + n - t % n) % n)
  match collGot d x.group o.gseq (base + t) sp.2 with
  | none => none
  | some r =>
    let d1 := modOp o.seq (fun y => { y with stage := o.stage + 1, bad := y.bad || r.2 }) (dropData x.group o.gseq (base + t) (d.poke sp.1 r.1))
    some (if t + 1 = n then finishOp o.seq (if o.bad || r.2 then 4 else 0) d1
      else collSend c o.seq g ((k + 1) % n) (dataFrames x.group o.gseq (base + t + 1) r.2 r.1) d1)

/-- One step of a ring operation, if its data is in. -/
def ringStep (c : Ctl) (seq : Nat) (d : Dev) : Option Dev :=
  match opAt d seq with
  | none => none
  | some o =>
    let x := collDescOf o.words
    match tabFind d.coll.groups x.group with
    | none => none
    | some g =>
      let n := g.members.length
      let k := myRank d g
      if o.finished || !o.started then none
      else if x.op = 3 then gatherStep c o g x k 0 d
      else if o.stage + 1 < n then reduceStep c o g x k d
      else gatherStep c o g x k (n - 1) d

def ringGo (c : Ctl) (seq : Nat) : Nat → Dev → Dev
  | 0, d => d
  | n + 1, d => match ringStep c seq d with
    | some d1 => ringGo c seq n d1
    | none => d

/-- A reduction starts: this member's part of the block that ends one rank before it goes to the next (R343). -/
def startReduce (op : Nat) (c : Ctl) (d : Dev) : Dev :=
  match nextColl d op with
  | none => d
  | some o =>
    let x := collDescOf o.words
    let b := beginOp o d
    match tabFind b.2.coll.groups x.group with
    | none => d
    | some g =>
      let n := g.members.length
      let k := myRank d g
      let blk := ringBlock x.len n ((k + n - 1) % n)
      sourcePoison c o.seq x.src (x.len * collWidth x.fmt) <|
      if n = 1 then ringResult c b.1 g x k (ownBlock d x 0 x.len) (ownBad d x 0 x.len) b.2
      else
        let bad := ownBad d x blk.1 blk.2
        let fr := dataFrames x.group b.1.gseq 1 bad ((ownBlock d x blk.1 blk.2).flatMap (natLE 4))
        ringGo c o.seq (2 * n) (collSend c o.seq g ((k + 1) % n) fr (modOp o.seq (fun y => { y with bad := bad }) b.2))

def execReduceScatter (s : State) : Host.Outcome State Fault Refusal := onWork (startReduce 2) s
def execAllReduce (s : State) : Host.Outcome State Fault Refusal := onWork (startReduce 4) s

/-- ALL_GATHER starts: the own block is stored and goes to the next member. -/
def devAllGather (c : Ctl) (d : Dev) : Dev :=
  match nextColl d 3 with
  | none => d
  | some o =>
    let x := collDescOf o.words
    let b := beginOp o d
    match tabFind b.2.coll.groups x.group with
    | none => d
    | some g =>
      let n := g.members.length
      let k := myRank d g
      let bs := d.peekBytes x.src x.len
      let bad := d.peekPoison x.src x.len
      let d1 := modOp o.seq (fun y => { y with bad := bad }) (b.2.poke (x.dst + k * x.len) bs)
      sourcePoison c o.seq x.src x.len <|
      if n = 1 then finishOp o.seq (if bad then 4 else 0) d1
      else ringGo c o.seq (2 * n) (collSend c o.seq g ((k + 1) % n) (dataFrames x.group b.1.gseq 1 bad bs) d1)

def execAllGather (s : State) : Host.Outcome State Fault Refusal := onWork devAllGather s

/-! ## Broadcast (R341) -/

/-- ROOT stores its bytes and sends them to its children. -/
def spread (c : Ctl) (o : CollOp) (g : Group) (x : CollDesc) (bs : List Byte) (bad : Bool) (d : Dev) : Dev :=
  let d1 := (treeKids g x.root (myRank d g)).foldl (fun y r => collSend c o.seq g r (dataFrames x.group o.gseq 0 bad bs) y) (d.poke x.dst bs)
  finishOp o.seq (if bad then 4 else 0) d1

/-- One frame of ROOT's bytes is stored, and goes on to this member's children at once. -/
def relay (c : Ctl) (o : CollOp) (g : Group) (x : CollDesc) (d : Dev) (f : CollIn) : Dev :=
  (treeKids g x.root (myRank d g)).foldl (fun y r => collSend c o.seq g r ((dataFrames x.group o.gseq 0 f.bad f.data).map (fun fr => { fr with addr := BitVec.ofNat 64 f.off })) y)
    (d.poke (x.dst + f.off) f.data)

/-- What has arrived of a BROADCAST goes down the tree frame by frame; with the last byte this member is done (R341). -/
def broadcastGo (c : Ctl) (seq : Nat) (d : Dev) : Dev :=
  match opAt d seq with
  | none => d
  | some o =>
    let x := collDescOf o.words
    match tabFind d.coll.groups x.group with
    | none => d
    | some g =>
      let l := d.coll.inData.filter (fun f => f.group == x.group && f.gseq == o.gseq && f.ring == 0)
      if o.finished || !o.started || myRank d g == x.root || l.isEmpty then d
      else
        let got := o.stage + (l.map (fun f => f.data.length)).sum
        let bad := o.bad || l.any (fun f => f.bad)
        let d1 := modOp seq (fun y => { y with stage := got, bad := bad }) (l.foldl (relay c o g x) (dropData x.group o.gseq 0 d))
        if x.len ≤ got then finishOp seq (if bad then 4 else 0) d1 else d1

def devBroadcast (c : Ctl) (d : Dev) : Dev :=
  match nextColl d 5 with
  | none => d
  | some o =>
    let x := collDescOf o.words
    let b := beginOp o d
    match tabFind b.2.coll.groups x.group with
    | none => d
    | some g =>
      if myRank d g = x.root then sourcePoison c o.seq x.src x.len (spread c b.1 g x (d.peekBytes x.src x.len) (d.peekPoison x.src x.len) b.2) else broadcastGo c o.seq b.2

def execBroadcast (s : State) : Host.Outcome State Fault Refusal := onWork devBroadcast s

/-! ## Barriers (R341, R348) -/

/-- A frame of the barrier. DESIGN CHOICE (log entry 63): a FAILED arrival carries the byte of R348's FAILED upwards too. -/
def barrierFrame (opc attr gseq : Nat) (failed : Bool) (down : Bool) : Frame :=
  { opc := opc, attr := BitVec.ofNat 32 attr, aux := BitVec.ofNat 32 gseq, payload := if down || failed then [BitVec.ofNat 8 (b2n failed)] else [] }

/-- The barrier an operation is at is over in every member below: it is released downwards. -/
def releaseDown (c : Ctl) (o : CollOp) (g : Group) (failed : Bool) (d : Dev) : Dev :=
  let d1 := modOp o.seq (fun y => { y with released := true, failed := failed }) d
  let d2 := (kidsOf g (myRank d g)).foldl (fun y r => collSend c o.seq g r [barrierFrame Opc.barrierDown o.grp o.gseq failed true] y) d1
  if (collDescOf o.words).op = 6 then finishOp o.seq (if failed && o.own then 7 else 0) d2 else d2

/-- A member that has arrived, with all its children, tells its parent, or as root releases the barrier. -/
def barrierGo (c : Ctl) (seq : Nat) (d : Dev) : Dev :=
  match opAt d seq with
  | none => d
  | some o =>
    match tabFind d.coll.groups o.grp with
    | none => d
    | some g =>
      let k := myRank d g
      let ups := d.coll.inUps.filter (fun u => u.group == o.grp && u.gseq == o.gseq)
      let here := (kidsOf g k).all (fun r => ups.any (fun u => u.rank == r))
      if o.finished || !o.started || !o.selfDone || o.upSent || o.released || !here then d
      else
        let failed := o.failed || ups.any (fun u => u.failed)
        let d1 := d.modColl (fun m => { m with inUps := m.inUps.filter (fun u => !(u.group == o.grp && u.gseq == o.gseq)) })
        if k = 0 then releaseDown c o g failed d1
        else collSend c o.seq g (parentOf g k) [barrierFrame Opc.barrierUp (o.grp + k * 2 ^ 16) o.gseq failed false] (modOp o.seq (fun y => { y with upSent := true }) d1)

def devBarrier (c : Ctl) (d : Dev) : Dev :=
  match nextColl d 6 with
  | none => d
  | some o => barrierGo c o.seq (modOp o.seq (fun y => { y with selfDone := true }) (beginOp o d).2)

def execBarrier (s : State) : Host.Outcome State Fault Refusal := onWork devBarrier s

/-! ## The dovetail (R360 to R363) -/

/-- A move entry. -/
structure DoveMove where
  src : Nat
  dst : Nat
  wave : Nat
  tag : Bool
  srcScr : Bool
  dstScr : Bool
  resv : Bool
  srcAddr : Nat
  dstAddr : Nat
  blocks : Nat
  deriving DecidableEq, Repr

/-- A dovetail descriptor. -/
structure Dove where
  group : Nat
  waves : Nat
  scratch : Nat
  scratchBlocks : Nat
  resv : Bool
  moves : List DoveMove
  deriving DecidableEq, Repr

def doveMoveOf (ws : List Nat) : DoveMove :=
  let w := wordAt ws
  { src := bits (w 0) 0 16, dst := bits (w 0) 16 16, wave := bits (w 0) 32 8, tag := bitAt (w 0) 40, srcScr := bitAt (w 0) 41, dstScr := bitAt (w 0) 42,
    resv := bits (w 0) 43 21 != 0 || bits (w 1) 48 16 != 0 || bits (w 2) 48 16 != 0 || bits (w 3) 32 32 != 0, srcAddr := bits (w 1) 0 48, dstAddr := bits (w 2) 0 48,
    blocks := bits (w 3) 0 32 }

def doveAt (d : Dev) (a : Nat) : Dove :=
  let w := wordAt (wordsOf (d.peekBytes a 64))
  { group := bits (w 0) 0 16, waves := bits (w 0) 16 8, scratch := bits (w 1) 0 48, scratchBlocks := bits (w 2) 0 32,
    resv := bits (w 0) 24 8 != 0 || bits (w 1) 48 16 != 0 || bits (w 2) 32 32 != 0 || (List.range 5).any (fun i => w (3 + i) != 0),
    moves := (List.range (bits (w 0) 32 32)).map (fun i => doveMoveOf (wordsOf (d.peekBytes (a + 64 + 32 * i) 32))) }

/-- The span a move writes and the one it reads meet another's, in one member and wave. -/
def movesClash (a b : DoveMove) : Bool :=
  a.wave == b.wave &&
    ((a.src == b.dst && a.srcScr == b.dstScr && overlaps a.srcAddr (a.blocks * 4096) b.dstAddr (b.blocks * 4096)) ||
     (b.src == a.dst && b.srcScr == a.dstScr && overlaps b.srcAddr (b.blocks * 4096) a.dstAddr (a.blocks * 4096)) ||
     (a.dst == b.dst && a.dstScr == b.dstScr && overlaps a.dstAddr (a.blocks * 4096) b.dstAddr (b.blocks * 4096)))

def pairwiseOk {α : Type} (bad : α → α → Bool) : List α → Bool
  | [] => true
  | x :: xs => xs.all (fun y => !bad x y) && pairwiseOk bad xs

/-- Address in this member of an address or scratch offset. -/
def doveAddr (v : Dove) (scr : Bool) (a : Nat) : Nat := if scr then v.scratch + a else a

/-- The ranges of a move in this member are registered for fabric access and within its scratch. -/
def moveOk (d : Dev) (v : Dove) (m : DoveMove) : Bool :=
  let me := d.fab.node.toNat
  let n := m.blocks * 4096
  let fits := fun (scr : Bool) (a : Nat) => !scr || decide (a + n ≤ v.scratchBlocks * 4096)
  (m.src != me || (fits m.srcScr m.srcAddr && d.inRegion (fun r => r.fabRd) (doveAddr v m.srcScr m.srcAddr) n)) &&
    (m.dst != me || (fits m.dstScr m.dstAddr && d.inRegion (fun r => r.fabWr) (doveAddr v m.dstScr m.dstAddr) n))

/-- The check of R362. -/
def doveOk (d : Dev) (group : Nat) (v : Dove) : Bool :=
  v.group == group && !v.resv && v.waves != 0 && pairwiseOk movesClash v.moves &&
    v.moves.all (fun m => !m.resv && m.wave != 0 && decide (m.wave ≤ v.waves) && m.srcAddr % 4096 == 0 && m.dstAddr % 4096 == 0 && moveOk d v m)

/-- One pull of a wave: a local copy, or a DOVE_PULL to its member. A scratch offset of another member goes with bit 63 of
ADDR (DESIGN CHOICE, log entry 64). -/
def pullMove (c : Ctl) (seq : Nat) (g : Group) (v : Dove) (m : DoveMove) (d : Dev) : Dev :=
  let me := d.fab.node.toNat
  let dest := doveAddr v m.dstScr m.dstAddr
  if m.blocks = 0 then d
  else if m.src = me then
    let a := doveAddr v m.srcScr m.srcAddr
    let n := m.blocks * 4096
    let bs := d.peekBytes a n
    let ends := fun (st : Nat) (x : Dev) => modOp seq (fun y => { y with status := if y.status = 0 then st else y.status }) x
    if d.peekPoison a n then sourcePoison c seq a n d
    else if !m.tag then pokeAt c 14 dest bs d
    else if tagsPoisoned d a n then readTags c a n (ends 4 d)
    else match d.badTag a bs with
      | some b => dowelFault c 3 0 b (readTags c a n (ends 5 d))
      | none => writeAt c 14 dest n (fun x => x.pokeTagged dest bs) (readTags c a n d)
  else
    let r := (rankOf g m.src).getD 0
    let fr : Frame := { opc := Opc.dovePull, addr := BitVec.ofNat 64 (m.srcAddr + b2n m.srcScr * 2 ^ 63), attr := BitVec.ofNat 32 m.blocks, aux := BitVec.ofNat 32 m.wave }
    if openTo d (g.flows.getD r 0) m.src then
      collMsg c seq g r [fr] (m.blocks * 4096) (m.srcAddr + b2n m.srcScr * 2 ^ 63) (dest + b2n m.tag * 2 ^ 60 + 2 ^ 61) (modOp seq (fun y => { y with pullsDue := y.pullsDue + 1 }) d)
    else collLost c seq (g.flows.getD r 0) m.src d

/-- A part of a wave failed here: a DOVETAIL ends (R344); the dovetail of an ND_RESHARD says so in its next barrier (R473). -/
def failWave (c : Ctl) (o : CollOp) (d : Dev) : Dev :=
  if o.own then barrierGo c o.seq (modOp o.seq (fun y => { y with failed := true, selfDone := true }) d) else finishOp o.seq o.status d

/-- Wave `w` starts: its pulls, and with none due the barrier. -/
def startWave (c : Ctl) (seq w : Nat) (d : Dev) : Dev :=
  match opAt d seq with
  | none => d
  | some o =>
    match tabFind d.coll.groups o.grp with
    | none => d
    | some g =>
      let v := doveAt d (collDescOf o.words).aux
      let d1 := modOp seq (fun y => { y with stage := w, gseq := g.opSeq, selfDone := false, upSent := false, released := false, failed := false })
        (d.modColl (fun m => { m with groups := tabPut m.groups o.grp { g with opSeq := g.opSeq + 1 } }))
      let a := (collDescOf o.words).aux
      let d0 := if o.own then d1 else sourcePoison c seq a (doveLen d a) d1
      let d2 := (v.moves.filter (fun m => m.wave == w && m.dst == d.fab.node.toNat)).foldl (fun x m => pullMove c seq g v m x) d0
      match opAt d2 seq with
      | some o2 =>
        if o2.status ≠ 0 then failWave c o2 d2
        else if o2.pullsDue = 0 then barrierGo c seq (modOp seq (fun y => { y with selfDone := true }) d2) else d2
      | none => d2

/-- A dovetail starts: the whole descriptor is checked, and the first barrier tells the members (R362). -/
def devDovetail (c : Ctl) (d : Dev) : Dev :=
  match nextColl d 8 with
  | none => d
  | some o =>
    let x := collDescOf o.words
    let ok := doveOk d x.group (doveAt d x.aux)
    barrierGo c o.seq (modOp o.seq (fun y => { y with selfDone := true, failed := !ok }) ((beginOp o d).2.modColl (fun m => { m with doveWave := BitVec.ofNat 8 o.stage })))

def execDovetail (s : State) : Host.Outcome State Fault Refusal := onWork devDovetail s

/-- The barrier after a wave, or the first one, is over in every member: the next wave starts, or the dovetail ends. -/
def devDoveWaveDone (c : Ctl) (d : Dev) : Dev :=
  match d.coll.ops.find? (fun o => o.started && o.released && !o.finished && (collDescOf o.words).op == 8) with
  | none => d
  | some o =>
    if o.failed then finishOp o.seq (if o.checked then 7 else 1) d
    else
      let d1 := (modOp o.seq (fun y => { y with checked := true }) d).modColl (fun m => { m with doveWave := BitVec.ofNat 8 o.stage })
      if (doveAt d (collDescOf o.words).aux).waves ≤ o.stage then finishOp o.seq 0 d1 else startWave c o.seq (o.stage + 1) d1

def execDoveWaveBarrierDone (s : State) : Host.Outcome State Fault Refusal := onWork devDoveWaveDone s

/-! ## What frames do (R348) -/

/-- An operation moves on with what has arrived. -/
def collGo (c : Ctl) (seq : Nat) (d : Dev) : Dev :=
  match opAt d seq with
  | none => d
  | some o =>
    match (collDescOf o.words).op with
    | 5 => broadcastGo c seq d
    | 6 => barrierGo c seq d
    | 8 => barrierGo c seq d
    | 2 => ringGo c seq (2 * (d.coll.inData.length + 2)) d
    | 3 => ringGo c seq (2 * (d.coll.inData.length + 2)) d
    | 4 => ringGo c seq (2 * (d.coll.inData.length + 2)) d
    | _ => d

/-- Started operations of a group move on. -/
def groupGo (c : Ctl) (group : Nat) (d : Dev) : Dev :=
  (d.coll.ops.filter (fun o => o.started && o.grp == group)).foldl (fun x o => collGo c o.seq x) d

/-- COLL_DATA is kept until its operation takes it. -/
def collDataArrive (c : Ctl) (group ring gseq off : Nat) (bs : List Byte) (bad : Bool) (d : Dev) : Dev :=
  groupGo c group (d.modColl (fun m => { m with inData := m.inData ++ [{ group := group, gseq := gseq, ring := ring, off := off, data := bs, bad := bad }] }))

def barrierUpArrive (c : Ctl) (group rank gseq : Nat) (failed : Bool) (d : Dev) : Dev :=
  groupGo c group (d.modColl (fun m => { m with inUps := m.inUps ++ [{ group := group, gseq := gseq, rank := rank, failed := failed }] }))

def barrierDownArrive (c : Ctl) (group gseq : Nat) (failed : Bool) (d : Dev) : Dev :=
  match d.coll.ops.find? (fun o => o.started && o.grp == group && o.gseq == gseq && o.upSent && !o.released), tabFind d.coll.groups group with
  | some o, some g => releaseDown c o g failed d
  | _, _ => d

/-- A pull has all its blocks (R361). -/
def pullDone (c : Ctl) (seq : Nat) (d : Dev) : Dev :=
  let d1 := modOp seq (fun y => { y with pullsDue := y.pullsDue - 1 }) d
  match opAt d1 seq with
  | some o => if o.finished || o.pullsDue ≠ 0 then d1 else if o.status ≠ 0 then failWave c o d1 else barrierGo c seq (modOp seq (fun y => { y with selfDone := true }) d1)
  | none => d1

/-- A block of a pull arrives: checked if TAG, which bit 60 of its place says, and written (R361). -/
def pullBlock (c : Ctl) (seq dest : Nat) (bs : List Byte) (tag : Nat) (bad : Bool) (d : Dev) : Dev :=
  let wrong := bitAt dest 60 && crc32c bs != tag
  let a := dest % 2 ^ 60
  let ended := modOp seq (fun y => { y with status := if y.status = 0 then (if bad then 4 else 5) else y.status }) d
  if bad then ended
  else if wrong then dowelFault c 3 0 a ended
  else if bitAt dest 60 then writeAt c 14 a bs.length (fun x => (x.poke a bs).setTag a tag) d else pokeAt c 14 a bs d

/-- A message of an operation failed (R317): the operation ends POISONED, or CHECK_FAIL; a DOVETAIL that lost a member ends with TIMEOUT (R363). -/
def collFailed (c : Ctl) (seq wire node : Nat) (d : Dev) : Dev :=
  let st := wireStatus wire (isDove d seq)
  let d1 := modOp seq (fun y => if y.status = 0 then { y with status := st, blame := some node } else y) d
  match opAt d1 seq with
  | some o => if o.own then pullDone c seq d1 else finishOp seq st d1
  | none => d1

/-! ## Completion (R340, R344, R365) -/

/-- Are messages of an operation still open? -/
def collOpen (d : Dev) (seq : Nat) : Bool := d.fab.flows.any (fun p => p.2.msgs.any (fun m => m.issuer == .coll seq))

/-- The span whose poison ends an operation before it begins: its descriptor, a shard map, a dovetail descriptor (R153, R340). -/
def collSick (d : Dev) (o : CollOp) : Nat × Nat :=
  let x := collDescOf o.words
  if o.started || o.own then (0, 0) else if o.poison then (o.desc, 64) else if x.op = 1 then (x.aux, 32 * x.auxLen) else if x.op = 8 then (x.aux, doveLen d x.aux) else (0, 0)

/-- Poison met before an operation began is recorded; containment may then have ended it (R153, R447). -/
def noteEarly (c : Ctl) (o : CollOp) (st : Nat) (d : Dev) : Dev :=
  if st ≠ 4 then d else notePoison c (collSick d o).1 (collSick d o).2 (modOp o.seq (fun y => { y with status := 4 }) d)

/-- Word 7 is written, the record is told, a failure is recorded. An operation of an ND_RESHARD has no descriptor. -/
def completeOp (c : Ctl) (o : CollOp) (st : Nat) (d : Dev) : Dev :=
  let x := collDescOf o.words
  let bad := if x.op = 1 ∧ st ≠ 0 ∧ o.step = d.life.step.toNat then d.coll.gradBad ||| 2 ^ x.mb else d.coll.gradBad
  let d0 := if o.own then d else pokeAt c 14 (o.desc + 56) (natLE 8 (st + 2 ^ 63)) d
  let d1 := d0.modColl (fun m =>
    { m with ops := m.ops.filter (fun y => y.seq != o.seq), opCnt := cntInc m.opCnt, gradBad := bad, clampBusy := m.clampBusy && x.op != 7,
             inData := m.inData.filter (fun y => !(y.group == x.group && y.gseq == o.gseq)) })
  let d2 := match o.tag with | some t => d1.noteTask t none (stOfColl st) | none => d1
  if st = 0 then d2
  else
    let info := x.group + o.blame.getD d.fab.node.toNat * 2 ^ 16
    raiseAll c d2 ([(Fs.collOpFail, 0, info)] ++ (if x.op = 8 then [(Fs.doveFail, 0, info)] else []))

/-- The status with which an operation may complete now: all it does is done, or its checks end it in its turn. -/
def completing (d : Dev) (o : CollOp) : Option Nat :=
  if o.started then (if o.finished && !collOpen d o.seq then some o.status else none)
  else match collEarly d o with
    | some st => if turnOf d.coll.ops o then some st else none
    | none => none

/-- Another member's part does not come within JIG_WAIT_TIMEOUT (R344, R363); an arrival in the same cycle wins (R24). -/
def devPartTimeout (seq : Nat) (tie : Bool) (_ : Ctl) (d : Dev) : Dev :=
  match opAt d seq with
  | some o =>
    if !o.started || o.finished || (collDescOf o.words).op == 7 || (collDescOf o.words).op == 1 then d
    else if tie then d.modColl (fun m => { m with tieCnt := cntInc m.tieCnt })
    else finishOp seq 7 d
  | none => d

def execCollectivePartTimeout (seq : Nat) (tie : Bool) (s : State) : Host.Outcome State Fault Refusal := onWork (devPartTimeout seq tie) s

end Sys2Proof.Machine
end

