-- ==== Sys2Proof/Machine/Clamp.lean ====
section
/-! DEFINITION. The clamp (R349 to R359): the record, sending and combining, the result and what it does to the step (R47, R49, R50). -/

namespace Sys2Proof.Machine

open Sys2Proof

/-! ## The record (R349) -/

/-- The 1,088 bytes of a record. -/
def recBytes (r : ClampRec) : List Byte :=
  let w1 := r.kind % 4 + b2n r.nonfinite * 4 + b2n r.abort * 8 + b2n r.skip * 16 + b2n r.clipped * 32 + r.epoch.toNat * 2 ^ 16 + r.d % 2 ^ 16 * 2 ^ 48
  [r.step, w1, r.q, r.loss, r.samples, r.kappa, r.present % 2 ^ 32 + r.absent % 2 ^ 32 * 2 ^ 32, r.sNext % 2 ^ 32 + r.gOkNext % 2 ^ 32 * 2 ^ 32].flatMap (natLE 8) ++
    natLE 1024 r.bitmap

/-- The record that bytes hold. -/
def recOfBytes (bs : List Byte) : ClampRec :=
  let w := fun i => leAt bs (8 * i) 8
  { step := w 0, kind := bits (w 1) 0 2, nonfinite := bitAt (w 1) 2, abort := bitAt (w 1) 3, skip := bitAt (w 1) 4, clipped := bitAt (w 1) 5,
    epoch := BitVec.ofNat 16 (bits (w 1) 16 16), d := bits (w 1) 48 16, q := w 2, loss := w 3, samples := w 4, kappa := w 5, present := bits (w 6) 0 32,
    absent := bits (w 6) 32 32, sNext := bits (w 7) 0 32, gOkNext := bits (w 7) 32 32, bitmap := leAt bs 64 1024 }

/-- Is epoch `e` older than `a` (R238)? -/
def olderEpoch (e a : BitVec 16) : Bool := decide (32768 ≤ (e - a).toNat)

/-- The bits of `a` that `b` lacks. -/
def andNot (a b : Nat) : Nat := a ^^^ (a &&& b)

/-- The clamp group of the package (R337). -/
def clampGroup (d : Dev) : Option (Nat × Group) := d.coll.groups.find? (fun p => p.2.clamp)

def maskAt (g : Group) (r : Nat) : Nat := g.mbMask.getD r 0

/-- Subtree mask of a rank (R338). -/
def subtreeMask (g : Group) (r : Nat) : Nat := (subtree g r).foldl (fun a x => a ||| maskAt g x) 0

def modClamp (f : ClampRun → ClampRun) (d : Dev) : Dev := d.modColl (fun m => { m with clamp := m.clamp.map f })
def countLate (d : Dev) : Dev := d.modColl (fun m => { m with lateCnt := cntInc m.lateCnt })

/-- INFO of the clamp sources: group and node (R452). -/
def clampInfo (group node : Nat) : Nat := group % 2 ^ 16 + node % 2 ^ 16 * 2 ^ 16

/-- Send one frame of the clamp to a member; one that is lost is left out (log 61), and a context that is not OPEN to it fails the operation with
DENIED (R316, R317). -/
def clampSend (c : Ctl) (g : Group) (r : Nat) (fr : Frame) (d : Dev) : Dev :=
  let n := g.members.getD r 0
  let f := g.flows.getD r 0
  if (d.node n).lost then d else if openTo d f n then startMsg c f .engine [fr] 0 0 0 d else fabError c 1 n f d

def clampFrame (opc group rank step : Nat) (bs : List Byte) : Frame :=
  { opc := opc, attr := BitVec.ofNat 32 (group + rank * 2 ^ 16), aux := BitVec.ofNat 32 step, payload := bs }

/-! ## The own record (R350, R352) -/

/-- The run of the clamp over a group, with partials that came before. -/
def newRun (group : Nat) (d : Dev) : ClampRun := { step := d.life.step.toNat, group := group, parts := d.coll.earlyParts }

/-- NONFINITE of any active bench. -/
def benchNonfinite (d : Dev) : Bool :=
  (List.range 4).any (fun b => (d.activeOf b).any (fun i => (d.bench i).mx.nonfinite || (d.bench i).vec.nonfinite || (d.bench i).row.nonfinite))

def clearNonfinite (d : Dev) : Dev :=
  let f := fun (e : Eng) => { e with nonfinite := false }
  ((List.range 4).flatMap d.activeOf).foldl (fun x i => x.modBench i (fun b => { b with mx := f b.mx, vec := f b.vec, row := f b.row })) d

/-- GRAD_SENDs of the step that have not completed. -/
def openGrads (d : Dev) : List CollOp := d.coll.ops.filter (fun o => (collDescOf o.words).op == 1 && o.step == d.life.step.toNat)

/-- Records that a queue may still issue in this step: from its head on, and those that a LOOP among them jumps back to. -/
def leftRecs (q : Queue) : List JigRec :=
  if q.state = 5 ∨ q.state = 6 then [] else
  let rs := q.recs.map jigRecOf
  let low := (rs.drop q.head).foldl (fun n r => if r.kind = 9 ∧ q.loopIdx.getD r.loopSel 0 < r.jumps then min n (r.addr % 2 ^ 16) else n) q.head
  rs.drop low

/-- Is a GRAD_SEND of the program's still to be issued in this step (DEDUCED, log 58)? -/
def gradsLeft (d : Dev) : Bool := (d.jig 4).queues.any (fun p => (leftRecs p.2).any (fun r => r.kind == 11 && d.peek (recAddr p.2 r) == 1))

/-- Have the GRAD_SENDs of the step completed (R352)? -/
def gradsDone (d : Dev) : Bool := (openGrads d).isEmpty && !gradsLeft d

/-- Micro-batches of MB_MASK whose GRAD_SENDs all completed with OK. -/
def contribOf (d : Dev) (mask : Nat) : Nat := andNot mask ((openGrads d).foldl (fun a o => a ||| 2 ^ (collDescOf o.words).mb) d.coll.gradBad)

/-- Every owner slot of the step has ARRIVED equal to EXPECT. -/
def slotsFull (d : Dev) : Bool :=
  (ownerPanels d).all (fun p =>
    let s := slotAt d p (p.slotOf d.life.step.toNat)
    (if s.state ≠ 0 ∧ s.step = d.life.step.toNat then s.arrived else 0) == p.expect)

/-- The loss cell: FP64 loss sum and sample count; without a CLAMP record there is none (DESIGN CHOICE, log entry 66). -/
def lossCell (c : Ctl) (run : ClampRun) (d : Dev) : (Nat × Nat) × Dev :=
  match run.cell with
  | some a => let r := readSpan c d a 16; ((leAt r.1 0 8, leAt r.1 8 8), r.2.2)
  | none => ((0, 0), d)

/-- The own record is ready: the owner slots of the step are frozen (R352). -/
def readyOwn (run : ClampRun) (d : Dev) : Dev :=
  (d.modAux (fun x => { x with frozen := some run.step })).modColl (fun m => { m with clamp := some { run with ready := true }, earlyParts := [] })

/-- The own record, formed at the moment it is sent; the jig is in CLAMP from then on (R41, R49, R350). A package that aborted before its backward
phase was complete has contributed nothing. -/
def formOwn (c : Ctl) (run : ClampRun) (g : Group) (d : Dev) : ClampRec × Dev :=
  let cell := lossCell c run d
  let d1 := (stepSlots cell.2 run.step).foldl (fun x q => squareAll q.1 q.2 x) cell.2
  let q := stepSquare d1 run.step
  let aborted := d1.life.state == .aborted
  let own : ClampRec :=
    { step := run.step, nonfinite := benchNonfinite d1 || q.nonFinite || (f64 cell.1.1).nonFinite, abort := aborted || d1.life.carryAbort, epoch := d1.life.epoch, q := to64 q,
      loss := cell.1.1, samples := cell.1.2, present := 1, bitmap := if aborted && !d1.life.backDone then 0 else contribOf d1 (maskAt g (myRank d1 g)) }
  let d2 := (clearNonfinite d1).modColl (fun m => { m with clampBusy := true })
  (own, d2.modLife (fun l => { l with state := if aborted then .aborted else .clamp, carryAbort := false }))

/-! ## The result at a package (R355 to R358) -/

/-- The result goes to the next entry of the ring. -/
def writeRing (ring len : Nat) (r : ClampRec) (d : Dev) : Dev :=
  (d.poke (ring + d.coll.ringIdx % len * 1088) (recBytes r)).modColl (fun m => { m with ringIdx := (m.ringIdx + 1) % len })

/-- The clamp results of the last five steps, newest first: one of a retried step takes the place of the aborted one (R276). -/
def keepResult (h : HeldResult) (l : List HeldResult) : List HeldResult := (h :: l.filter (fun x => x.res.step != h.res.step)).take 5

/-- The slots of the step are settled or freed, and the planes become due (R47, R276, R277, R358). -/
def applyResult (c : Ctl) (r : ClampRec) (d : Dev) : Dev :=
  let kept : HeldResult := { res := r, scale := d.opt.lossScale }
  let d1 := d.modOpt (fun o => { o with results := keepResult kept o.results, lossScale := BitVec.ofNat 32 r.sNext, goodSteps := BitVec.ofNat 32 r.gOkNext })
  let d2 := dueAll r.step (if r.skip then freeStep r.step d1 else settleStep c r.step r.bitmap r.d d1)
  d2.modLife (fun l => { l with update := l.update || d2.planes.any (fun p => !p.2.due.isEmpty) })

/-- The next step, or with a stop pending none: IDLE once the updates are done (R50). -/
def nextStepOrStop (c : Ctl) (n : Nat) (d : Dev) : Dev :=
  if d.life.stopPending.isSome then
    let d1 := d.modLife (fun l => { l with state := .clamp, nextStep := some (n + 1), interrupted := none })
    if d1.life.update then d1 else d1.stopDone
  else enterForward c.now (d.modLife (fun l => { l with step := BitVec.ofNat 64 (n + 1) }))

/-- The outcome of a result (R49): abort, which frees the slots of the step (R271), leaves no record to send (R357) and is held by the planes as any
other (R276, R490); or the step commits or is skipped, also where the package itself has aborted (R41). -/
def outcome (c : Ctl) (r : ClampRec) (d : Dev) : Dev :=
  let d0 := d.modLife (fun l => { l with held := none })
  if r.abort then
    let d1 := d0.modOpt (fun o => { o with results := keepResult { res := r, scale := o.lossScale } o.results })
    freeStep r.step (modClamp (fun x => { x with done := true }) (if d1.life.state = .idle ∨ d1.life.state = .aborted then d1 else abortNow c d1))
  else
    let d1 := d0.modColl (fun m => { m with clamp := none })
    match d1.life.state with
    | .aborted => (applyResult c r d1).modLife (fun l => { l with step := BitVec.ofNat 64 (r.step + 1), reload := true, carryAbort := true, nextStep := some (r.step + 1) })
    | .idle =>
      if d1.life.wasAborted then
        (applyResult c r d1).modLife (fun l => { l with step := BitVec.ofNat 64 (r.step + 1), reload := true, carryAbort := true, nextStep := some (r.step + 1) })
      else d1
    | _ => nextStepOrStop c r.step (applyResult c r d1)

/-- The CLAMP record completes. -/
def endClamp (c : Ctl) (op : Option Nat) (d : Dev) : Dev :=
  match op.bind (opAt d) with
  | some o => completeOp c o 0 d
  | none => d.modColl (fun m => { m with clampBusy := false })

/-- Micro-batches of this package were excluded (R357). -/
def noteDropped (c : Ctl) (group : Nat) (g : Group) (r : ClampRec) (d : Dev) : Dev :=
  if andNot (maskAt g (myRank d g)) r.bitmap = 0 then d
  else raise c (d.modColl (fun m => { m with selfDropCnt := cntInc m.selfDropCnt })) Fs.clampSelfDropped (clampInfo group d.fab.node.toNat)

/-- A package takes a result it did not hold: ring and registers, the CLAMP record, the outcome. One that has not sent its own record holds it, and
writes it when its CLAMP record is issued; a step whose CLAMP record no longer comes writes it to the ring of the last one (R49, R357). -/
def takeResult (c : Ctl) (group : Nat) (g : Group) (r : ClampRec) (d : Dev) : Dev :=
  let run := d.coll.clamp
  let op := run.bind (fun x => x.op)
  let early := (match run with | some x => !x.sent | none => true) && !r.abort && (d.life.state == .forward || d.life.state == .backward)
  let d1 := match d.coll.ring with | some p => if op.isSome || !early then writeRing p.1 p.2 r d else d | none => d
  let d2 := (d1.modColl (fun m => { m with valid := true, lastRes := r })).modAux (fun x => { x with resultStep := some r.step, frozen := none })
  let d3 := endClamp c op (noteDropped c group g r d2)
  if early && (d3.life.state == .forward || d3.life.state == .backward) then
    (d3.modLife (fun l => { l with held := some r })).modColl (fun m => { m with clamp := none, earlyParts := [], heldResult := if op.isSome then none else some r })
  else outcome c r (if d3.coll.clamp.isNone then d3.modColl (fun m => { m with clamp := some (newRun group d3) }) else d3)

/-! ## The root (R354, R290) -/

/-- Loss scale and good steps after a step (R290): aborted, skipped with the non-finite flag, skipped, committed. -/
def nextScale (o : OptJob) (abort skip nonfinite : Bool) : Nat × Nat :=
  let s := o.lossScale.toNat
  let k := o.goodSteps.toNat
  if !o.lsDynamic then (to32 (.fin false 1 o.lsInit), 0)
  else if abort then (s, k)
  else if skip && nonfinite then (to32 ((Fl.fin false 1 o.lsMin).max ((f32 s).scale2 (-1))), 0)
  else if skip then (s, k)
  else if k + 1 < o.lsInterval.toNat then (s, k + 1)
  else (to32 ((Fl.fin false 1 o.lsMax).min ((f32 s).scale2 1)), 0)

/-- The clip factor (R354). -/
def clipFactor (o : OptJob) (skip : Bool) (q n : Nat) : Fl :=
  let clip := f64 o.clipNorm.toNat
  if clip.isZero ∨ skip then .one
  else
    let norm := div64 (sqrt64 (f64 q)) (mul64 (f32 o.lossScale.toNat) (Fl.ofNat n))
    if clip.lt norm then div64 clip norm else .one

/-- The root turns the combined partial into the result. -/
def resultFrom (d : Dev) (g : Group) (p : ClampRec) : ClampRec :=
  let contrib := andNot (g.mbMask.foldl (fun a m => a ||| m) 0) p.bitmap
  let n := popcount contrib 8192
  let skip := p.nonfinite || decide (n = 0) || decide (n < d.opt.mbMin) || (d.opt.sealing && decide (n < d.opt.mbCount))
  let k := clipFactor d.opt skip p.q n
  let s := nextScale d.opt p.abort skip p.nonfinite
  { p with kind := 2, skip := skip, clipped := k.lt .one, epoch := d.life.attemptEpoch, d := n, kappa := to64 k, sNext := s.1, gOkNext := s.2, bitmap := contrib }

/-- Send the result on to members. -/
def spreadResult (c : Ctl) (group : Nat) (g : Group) (r : ClampRec) (ranks : List Nat) (d : Dev) : Dev :=
  ranks.foldl (fun x k => clampSend c g k (clampFrame Opc.clampResult group 0 r.step (recBytes r)) x) d

/-- The backup root holds the result, or is lost: the root sends it to its children and takes it. -/
def rootGo (c : Ctl) (d : Dev) : Dev :=
  match d.coll.clamp with
  | some run =>
    match run.pending, tabFind d.coll.groups run.group with
    | some r, some g => takeResult c run.group g r (spreadResult c run.group g r (kidsOf g 0) (modClamp (fun x => { x with pending := none }) d))
    | _, _ => d
  | none => d

/-- The root has a result: it goes to the backup root first (R355). -/
def rootResult (c : Ctl) (run : ClampRun) (g : Group) (p : ClampRec) (d : Dev) : Dev :=
  let r := resultFrom d g p
  let d1 := modClamp (fun x => { x with sent := true, pending := some r }) d
  let b := g.members.getD 1 0
  if g.members.length < 2 || (d.node b).lost || !openTo d (g.flows.getD 1 0) b then rootGo c d1
  else clampSend c g 1 (clampFrame Opc.clampResult run.group 0 r.step (recBytes r)) d1

/-! ## Combining (R351, R353) -/

/-- One more input joins: a child's partial, or an absent child's place. -/
def combine1 (g : Group) (run : ClampRun) (a : ClampRec) (k : Nat) : ClampRec :=
  match run.parts.find? (fun p => p.1 == k) with
  | some p =>
    { a with nonfinite := a.nonfinite || p.2.nonfinite, abort := a.abort || p.2.abort, q := to64 (add64 (f64 a.q) (f64 p.2.q)),
             loss := to64 (add64 (f64 a.loss) (f64 p.2.loss)), samples := (a.samples + p.2.samples) % 2 ^ 64, present := (a.present + p.2.present) % 2 ^ 32,
             absent := (a.absent + p.2.absent) % 2 ^ 32, bitmap := a.bitmap ||| p.2.bitmap }
  | none => { a with absent := (a.absent + (subtree g k).length) % 2 ^ 32, bitmap := a.bitmap ||| subtreeMask g k,
                     q := to64 (add64 (f64 a.q) .zero), loss := to64 (add64 (f64 a.loss) .zero) }

/-- The combined partial: the own record, then the children in ascending rank. -/
def combined (d : Dev) (g : Group) (run : ClampRun) (own : ClampRec) : ClampRec :=
  let k := myRank d g
  let first := { own with kind := 1, epoch := d.life.epoch, bitmap := andNot (maskAt g k) own.bitmap }
  (kidsOf g k).foldl (combine1 g run) first

/-- Children neither heard nor absent. -/
def missingKids (d : Dev) (g : Group) (run : ClampRun) : List Nat :=
  (kidsOf g (myRank d g)).filter (fun k => !(run.parts.any (fun p => p.1 == k)) && !run.absentKids.contains k)

/-- A child is declared absent. -/
def declareAbsent (c : Ctl) (group : Nat) (g : Group) (d : Dev) (k : Nat) : Dev :=
  let d1 := modClamp (fun x => { x with absentKids := x.absentKids ++ [k] }) (d.modColl (fun m => { m with absentCnt := cntInc m.absentCnt }))
  raise c d1 Fs.clampAbsent (clampInfo group (g.members.getD k 0))

/-- Children that are lost are absent at once, whether or not the own record is ready (R353). -/
def noteLost (c : Ctl) (d : Dev) : Dev :=
  match d.coll.clamp with
  | none => d
  | some run =>
    match tabFind d.coll.groups run.group with
    | none => d
    | some g =>
      if run.sent || run.done then d
      else ((missingKids d g run).filter (fun k => (d.node (g.members.getD k 0)).lost)).foldl (declareAbsent c run.group g) d

/-- Can the own record be formed: it is ready, and the loss cell that its CLAMP record names is known, or the package is in ABORTED (R350, R352)? -/
def canForm (d : Dev) (run : ClampRun) : Bool := run.ready && !run.sent && !run.done && (run.op.isSome || d.life.state == .aborted)

/-- The partial goes to the parent, or at the root becomes the result, once every child is in or absent. -/
def tryPartial (c : Ctl) (d : Dev) : Dev :=
  let d1 := noteLost c d
  match d1.coll.clamp with
  | none => d1
  | some run =>
    match tabFind d1.coll.groups run.group with
    | none => d1
    | some g =>
      if !canForm d1 run || !(missingKids d1 g run).isEmpty then d1 else
      let o := formOwn c run g d1
      let p := combined o.2 g run o.1
      let k := myRank d1 g
      if k = 0 then rootResult c run g p o.2
      else clampSend c g (parentOf g k) (clampFrame Opc.clampPart run.group k run.step (recBytes p)) (modClamp (fun x => { x with sent := true }) o.2)

/-- The own record is ready; it is formed and sent as soon as the children allow (R352, R353). -/
def sendOwn (c : Ctl) (run : ClampRun) (d : Dev) : Dev :=
  if (tabFind d.coll.groups run.group).isSome then tryPartial c (readyOwn run d) else d

/-! ## Rows -/

/-- The backup root acknowledges a result once it stands in its own ring (R355). -/
def ackHeld (c : Ctl) (r : ClampRec) (d : Dev) : Dev :=
  match clampGroup d with
  | some (id, g) => if rankOf g d.fab.node.toNat = some 1 then clampSend c g 0 (clampFrame Opc.clampAck id 0 r.step []) d else d
  | none => d

/-- A result held for a CLAMP record is written to a ring. -/
def landHeld (c : Ctl) (ring len : Nat) (r : ClampRec) (d : Dev) : Dev :=
  ackHeld c r ((writeRing ring len r d).modColl (fun m => { m with heldResult := none }))

/-- A CLAMP record starts (R357): it takes the ring and the loss cell, or completes with a result held for it. A record that was ready before it
can be formed now. -/
def devClamp (c : Ctl) (d : Dev) : Dev :=
  match nextColl d 7 with
  | none => d
  | some o =>
    let x := collDescOf o.words
    let d1 := (beginOp o d).2.modColl (fun m => { m with ring := some (x.dst, x.auxLen) })
    match d1.coll.heldResult with
    | some r => endClamp c (some o.seq) (landHeld c x.dst x.auxLen r d1)
    | none =>
      let run := match d1.coll.clamp with | some y => y | none => newRun x.group d1
      tryPartial c (d1.modColl (fun m => { m with clamp := some { run with op := some o.seq, cell := some x.aux }, earlyParts := if m.clamp.isSome then m.earlyParts else [] }))

def execClamp (s : State) : Host.Outcome State Fault Refusal := onWork devClamp s

/-- Has the package aborted the step, so that nothing of it runs any more? -/
def stepCut (d : Dev) : Bool := d.life.state == .aborted || (d.life.state == .idle && d.life.wasAborted)

/-- Does a result that a straggler holds take its outcome now: its work is done and its CLAMP record complete, or the step is aborted (R41, R49,
R357)? -/
def heldDue (d : Dev) : Bool := stepCut d || (d.coll.heldResult.isNone && backwardDone d && gradsDone d)

/-- A held result takes its outcome. One whose CLAMP record no longer comes goes to the ring of the last one (R357). -/
def takeHeld (c : Ctl) (r : ClampRec) (d : Dev) : Dev :=
  outcome c r (match d.coll.heldResult, d.coll.ring with
    | some h, some p => landHeld c p.1 p.2 h d
    | some h, none => ackHeld c h (d.modColl (fun m => { m with heldResult := none }))
    | none, _ => d)

/-- A result held by a package that has aborted since is final: the next mailbox command finds its outcome taken (R41, R49; DESIGN CHOICE, log 167). -/
def settleHeld (c : Ctl) (d : Dev) : Dev :=
  match d.life.held with
  | some r => if stepCut d then takeHeld c r d else d
  | none => d

/-- The run whose record can become ready: one begun, or a new one (R352). -/
def dueRun (d : Dev) : Option ClampRun :=
  match d.coll.clamp with
  | some run => if !run.ready ∧ !run.done then some run else none
  | none => (clampGroup d).map (fun p => newRun p.1 d)

/-- The own record becomes ready; `full` asks for every owner slot of the step. -/
def recordReady (full : Bool) (c : Ctl) (d : Dev) : Dev :=
  match d.life.held with
  | some r => if heldDue d then takeHeld c r d else d
  | none =>
    match dueRun d, d.life.state with
    | some run, .aborted => sendOwn c run d
    | some run, .backward => if backwardDone d && gradsDone d && (!full || slotsFull d) then sendOwn c run d else d
    | _, _ => d

def execClampRecordReady (s : State) : Host.Outcome State Fault Refusal := onWork (recordReady true) s

/-- Does FAB_CLAMP_WAIT run: the backward phase and the GRAD_SENDs complete, the own record not ready (R352)? -/
def clampWaits (d : Dev) : Bool :=
  d.life.held.isNone && d.life.state == .backward && (dueRun d).isSome && backwardDone d && gradsDone d

/-- FAB_CLAMP_WAIT has passed since the backward phase completed (R352). The last contribution of the same cycle wins: the record is
ready by its own row, and the tie is counted (R24, R463). -/
def devClampWait (tie : Bool) (c : Ctl) (d : Dev) : Dev :=
  if tie then (if clampWaits d then d.modColl (fun m => { m with tieCnt := cntInc m.tieCnt }) else d) else recordReady false c d

def execClampWaitExpiry (s : State) (tie : Bool := false) : Host.Outcome State Fault Refusal := onWork (devClampWait tie) s

/-- The child deadline passes (R353); a partial of the same cycle wins (R24) and arrives as its own frame. -/
def devChildDeadline (tie : Bool) (c : Ctl) (d : Dev) : Dev :=
  match d.coll.clamp with
  | some run =>
    match tabFind d.coll.groups run.group with
    | some g =>
      let miss := missingKids d g run
      if !run.ready || run.sent || run.done || miss.isEmpty then d
      else if tie then d.modColl (fun m => { m with tieCnt := cntInc m.tieCnt })
      else tryPartial c (miss.foldl (declareAbsent c run.group g) d)
    | none => d
  | none => d

def execClampChildDeadline (tie : Bool) (s : State) : Host.Outcome State Fault Refusal := onWork (devChildDeadline tie) s

/-! ## Queries (R356) -/

/-- No member can supply the result: ABORTED, CLAMP_NO_RESULT. DEDUCED (log entry 67): the next record is one of the same step. -/
def noResult (c : Ctl) (run : ClampRun) (d : Dev) : Dev :=
  let d1 := if d.life.state = .aborted then d else abortNow c d
  let d2 := (d1.modColl (fun m => { m with clamp := none, clampBusy := false })).modLife (fun l => { l with carryAbort := true })
  raise c d2 Fs.clampNoResult (clampInfo run.group d.fab.node.toNat)

/-- Ask the next member that may hold the result: the backup root, then the root. -/
def askNext2 (c : Ctl) (run : ClampRun) (g : Group) (d : Dev) : Dev :=
  let k := myRank d g
  let can := fun (r : Nat) => r != k && decide (r < g.members.length) && !(d.node (g.members.getD r 0)).lost && openTo d (g.flows.getD r 0) (g.members.getD r 0)
  let ask := fun (r q : Nat) => clampSend c g r (clampFrame Opc.clampQuery run.group 0 run.step []) ((modClamp (fun x => { x with queried := q }) d).modColl (fun m => { m with queryCnt := cntInc m.queryCnt }))
  if run.queried = 0 ∧ can 1 then ask 1 1
  else if run.queried ≤ 1 ∧ can 0 then ask 0 2
  else noResult c run d

/-- The run of a package that has sent its partial and holds no result. -/
def awaiting (d : Dev) : Option (ClampRun × Group) :=
  match d.coll.clamp with
  | some run => if run.sent && !run.done && run.pending.isNone then (tabFind d.coll.groups run.group).map (fun g => (run, g)) else none
  | none => none

/-- FAB_CLAMP_RESULT_WAIT passes; a result of the same cycle wins (R24) and arrives as its own frame. -/
def devResultWait (tie : Bool) (c : Ctl) (d : Dev) : Dev :=
  match awaiting d with
  | some q => if q.1.queried ≠ 0 then d else if tie then d.modColl (fun m => { m with tieCnt := cntInc m.tieCnt }) else askNext2 c q.1 q.2 d
  | none => d

def execClampResultWaitExpiry (tie : Bool) (s : State) : Host.Outcome State Fault Refusal := onWork (devResultWait tie) s

/-! ## What frames do (R348, R353, R355, R356, R359) -/

/-- A partial is not of the receiver's clamp step, or of an earlier attempt (R359). -/
def staleRec (d : Dev) (r : ClampRec) : Bool := olderEpoch r.epoch d.life.attemptEpoch || r.step != d.life.step.toNat

/-- A partial that came before the run it belongs to. -/
def earlyPart (rank : Nat) (r : ClampRec) (d : Dev) : Dev :=
  d.modColl (fun m => { m with earlyParts := m.earlyParts.filter (fun p => p.1 != rank) ++ [(rank, r)] })

/-- CLAMP_PART from a child. One for a run that is over belongs to the next attempt if its epoch is newer (DEDUCED, log entry 67); one of a step whose
result a straggler holds is not of its present clamp step (R359). -/
def partArrive (c : Ctl) (group rank : Nat) (r : ClampRec) (d : Dev) : Dev :=
  match tabFind d.coll.groups group with
  | none => d
  | some g =>
    if !(kidsOf g (myRank d g)).contains rank then d
    else if staleRec d r then countLate d
    else match d.coll.clamp with
      | none => if d.life.held.isSome then countLate d else earlyPart rank r d
      | some run =>
        let heard := run.parts.any (fun p => p.1 == rank)
        let absent := run.absentKids.contains rank
        if run.sent || run.done then
          (if r.epoch == d.life.attemptEpoch || (absent && r.abort) then countLate d else earlyPart rank r d)
        else if heard || absent then countLate d
        else tryPartial c (modClamp (fun x => { x with parts := x.parts ++ [(rank, r)] }) d)

/-- CLAMP_RESULT: a second copy is discarded; else it is taken and goes on to the children (R355, R357, R359). The backup root acknowledges it once
it stands in its ring: one that holds the result for its CLAMP record does so then. -/
def resultArrive (c : Ctl) (group node : Nat) (r : ClampRec) (d : Dev) : Dev :=
  match tabFind d.coll.groups group with
  | none => d
  | some g =>
    let k := myRank d g
    let root := g.members.headD 0 == node && k == 1
    let ack := fun (x : Dev) => if root && x.coll.heldResult.isNone then clampSend c g 0 (clampFrame Opc.clampAck group 0 r.step []) x else x
    if d.coll.valid ∧ d.coll.lastRes.step = r.step ∧ d.coll.lastRes.epoch = r.epoch then ack d
    else if staleRec d r then countLate d
    else
      let kids := (if root then (kidsOf g 0).filter (fun x => x != 1) else []) ++ kidsOf g k
      spreadResult c group g r kids (ack (takeResult c group g r d))

/-- CLAMP_ACK from the backup root. -/
def ackArrive (c : Ctl) (node step : Nat) (d : Dev) : Dev :=
  match d.coll.clamp with
  | some run =>
    match tabFind d.coll.groups run.group with
    | some g => if run.pending.isSome ∧ g.members.getD 1 0 = node ∧ run.step % 2 ^ 32 = step then rootGo c d else d
    | none => d
  | none => d

/-- Results the package holds, newest first. -/
def heldResults (d : Dev) : List ClampRec := (if d.coll.valid then [d.coll.lastRes] else []) ++ d.opt.results.map (fun r => r.res)

/-- Is a held result the one that a query for a step asks for? One of the holder's present step from an earlier attempt is not (DEDUCED, log 61). -/
def answersQuery (d : Dev) (step : Nat) (r : ClampRec) : Bool :=
  r.step % 2 ^ 32 == step && !(r.step == d.life.step.toNat && olderEpoch r.epoch d.life.attemptEpoch)

/-- CLAMP_QUERY: answered with the result, or CLAMP_NONE. -/
def queryArrive (c : Ctl) (group node step : Nat) (d : Dev) : Dev :=
  match tabFind d.coll.groups group with
  | some g =>
    match rankOf g node with
    | some k =>
      match (heldResults d).find? (answersQuery d step) with
      | some r => clampSend c g k (clampFrame Opc.clampResult group 0 r.step (recBytes r)) d
      | none => clampSend c g k (clampFrame Opc.clampNone group 0 step []) d
    | none => d
  | none => d

/-- CLAMP_NONE from the member asked, or the loss of that member. -/
def noneArrive (c : Ctl) (node : Nat) (d : Dev) : Dev :=
  match awaiting d with
  | some q => if q.1.queried ≠ 0 ∧ q.2.members.getD (2 - q.1.queried) 0 = node then askNext2 c q.1 q.2 d else d
  | none => d

/-- The clamp of the present step begins with the loss of a child, if nothing else has begun it (R353). -/
def openRun (node : Nat) (d : Dev) : Dev :=
  match d.coll.clamp, clampGroup d with
  | none, some (id, g) =>
    if d.life.state != .idle && d.life.held.isNone && (kidsOf g (myRank d g)).any (fun k => g.members.getD k 0 == node) then
      d.modColl (fun m => { m with clamp := some (newRun id d), earlyParts := [] })
    else d
  | _, _ => d

/-- A node is lost: a child of it is absent at once, a backup root is not waited for, a query goes on (R353, R355, R356). -/
def clampPeerLost (c : Ctl) (node : Nat) (d : Dev) : Dev :=
  let d1 := noneArrive c node d
  let d2 := match d1.coll.clamp with
    | some run => if run.pending.isSome && (match tabFind d1.coll.groups run.group with | some g => g.members.getD 1 0 == node | none => false) then rootGo c d1 else d1
    | none => d1
  tryPartial c (openRun node d2)

end Sys2Proof.Machine
end

