-- ==== Sys2Proof/Machine/HostSide.lean ====
section
/-! DEFINITION. Cluster caches (R378), the upstream port and host memory (R388 to R397, R432), host loss (R394, R395). -/

namespace Sys2Proof.Machine

open Sys2Proof

/-! ## Cluster caches (R378) -/

/-- A line of the external host range (R393). -/
def hostLine (line : Nat) : Bool := rangeOf (line * 64) == .host

/-- Host physical address of a line of the host range (R63, R393). -/
def hostAddr (d : Dev) (line : Nat) : Nat := d.host.base.toNat * 2 ^ 30 + (line * 64 - 0x3E0000000000)

/-- Does a core's access exist for its cluster, and do the tables permit it (R57, R436)? -/
def coreMay (c : Ctl) (d : Dev) (ty a : Nat) : Bool := d.mapped .puwell a && ptPermits c .puwell ty a 1

/-- Ranges whose lines a cluster caches (R366, R393). -/
def cacheable (line : Nat) : Bool := coherent (line * 64) || hostLine line

/-- A core access that does not exist or is refused: poison, or nothing written (R57). -/
def coreRefused (c : Ctl) (k line : Nat) (write : Bool) (a : Nat) (d : Dev) : Dev :=
  let d1 := if write then d else { d.emit (.data k line (poisonData d)) with free := d.free + 1 }
  raise c d1 Fs.addrDecode (dropInfo a k write)

/-- CSR space past the scratchpad windows, where no block stands (R64). -/
def pastWindows (a : Nat) : Bool := decide (0x3F8010800000 ≤ a) && decide (a < 0x400000000000)

/-- A core access to a line that no cluster caches: a reserved range ends it with an error, CSR space where no block stands as R19 says (R57). The
window, the registers and the scratchpad windows have rows of their own. -/
def coreElsewhere (c : Ctl) (k a : Nat) (write : Bool) (d : Dev) : Dev :=
  if rangeOf a = .reserved then coreRefused c k (a / 64) write a d
  else if pastWindows a then (if write then dropWrite a k c d else (dropRead a k c d).emit (.value k a 0))
  else d

/-- A core load: a hit, or RdShared (R378). Host memory behind a port that is not up answers with poison. Cores that do not run make none. -/
def devCoreLoad (k a : Nat) (c : Ctl) (d : Dev) : Dev :=
  let line := a / 64
  let l := d.cacheLine k line
  if !arrives d k then d
  else if !cacheable line then coreElsewhere c k a false d
  else if !coreMay c d 1 a then coreRefused c k line false a d
  else match l.st with
    | .inv =>
      if hostLine line && !hostUp d then { d.emit (.data k line (poisonData d)) with free := d.free + 1 }
      else (d.setLine k line { l with st := .isP }).emit (.request k .rdShared line)
    | .shr => d.emit (.data k line l.data)
    | .exc => d.emit (.data k line l.data)
    | .own => d.emit (.data k line l.data)
    | .mod => d.emit (.data k line l.data)
    | _ => d

def execCoreLoad (cluster : Fin 8) (addr : BitVec 48) (s : State) : Host.Outcome State Fault Refusal := onWork (devCoreLoad cluster.val addr.toNat) s

/-- A core store or AMO's result: a hit, RdOwn or Upgrade; a store that waits is performed at the grant (R378). The tables ask WR of a
store and ATOM of an AMO (R436). -/
def devCoreStore (k a : Nat) (bs : List Byte) (amo : Bool) (c : Ctl) (d : Dev) : Dev :=
  let line := a / 64
  let l := d.cacheLine k line
  let w := (a % 64, bs.take (64 - a % 64))
  if !arrives d k then d
  else if !cacheable line then coreElsewhere c k a true d
  else if !coreMay c d (if amo then 3 else 2) a then coreRefused c k line true a d
  else match l.st with
    | .inv => if hostLine line && !hostUp d then d else (d.setLine k line { l with st := .imP, stores := [w] }).emit (.request k .rdOwn line)
    | .shr => (d.setLine k line { l with st := .smP, stores := [w] }).emit (.request k .upgrade line)
    | .own => (d.setLine k line { l with st := .omP, stores := [w] }).emit (.request k .upgrade line)
    | .exc => d.setLine k line { l with st := .mod, data := mergeLine l.data w.1 w.2 }
    | .mod => d.setLine k line { l with data := mergeLine l.data w.1 w.2 }
    | _ => d

def execCoreStore (cluster : Fin 8) (addr : BitVec 48) (data : List Byte) (s : State) (amo : Bool := false) : Host.Outcome State Fault Refusal :=
  onWork (devCoreStore cluster.val addr.toNat data amo) s

/-- Has a cluster a writeback credit at the home of a line (R381)? Its writebacks without WbAck count against it. -/
def mayWriteBack (d : Dev) (k line : Nat) : Bool :=
  let used := fun (a : Nat) => (d.caches.filter (fun p => p.1 / 2 ^ 42 == a && p.2.st == .wbP && !hostLine (p.1 % 2 ^ 42) && homeOfLine (p.1 % 2 ^ 42) == homeOfLine line)).length
  decide (used k < 16) || decide (((List.range 8).map (fun a => used a - 16)).sum < 48)

/-- A replacement: silent in E and S, a writeback in M and O, which waits for a credit (R378, R381); port 0 issues a host line's as DirtyEvict
(R393). -/
def devReplace (k line : Nat) (_ : Ctl) (d : Dev) : Dev :=
  let l := d.cacheLine k line
  let wb := fun (x : Dev) =>
    let y := x.setLine k line { l with st := .wbP }
    if !hostLine line && !mayWriteBack d k line then x
    else if hostLine line then y.emit (.hostWrite (hostAddr d line) l.data.bytes) else y.emit (.writeback k line l.data)
  if !arrives d k then d else match l.st with
  | .exc => d.setLine k line {}
  | .shr => d.setLine k line {}
  | .mod => wb d
  | .own => wb d
  | _ => d

def execCacheReplacement (cluster : Fin 8) (addr : BitVec 48) (s : State) : Host.Outcome State Fault Refusal := onWork (devReplace cluster.val (addr.toNat / 64)) s

/-- The request that a cluster's waiting state stands for. -/
def pendingKind : LineState → Option ReqKind
  | .isP => some .rdShared
  | .imP => some .rdOwn
  | .smP => some .upgrade
  | .omP => some .upgrade
  | _ => none

/-- RETRY: the cluster backs off (R374). -/
def devRetry (k line : Nat) (_ : Ctl) (d : Dev) : Dev :=
  let l := d.cacheLine k line
  if (pendingKind l.st).isSome then d.setLine k line { l with retries := l.retries + 1, backoff := true } else d

def execRetry (cluster : Fin 8) (line : Nat) (s : State) : Host.Outcome State Fault Refusal := onWork (devRetry cluster.val line) s

/-- The back-off ends: the request is sent again (R374). -/
def devBackoff (k line : Nat) (_ : Ctl) (d : Dev) : Dev :=
  let l := d.cacheLine k line
  match l.backoff, pendingKind l.st with
  | true, some q => (d.setLine k line { l with backoff := false }).emit (.request k q line)
  | _, _ => d

def execRetryBackoffExpiry (cluster : Fin 8) (addr : BitVec 48) (s : State) : Host.Outcome State Fault Refusal := onWork (devBackoff cluster.val (addr.toNat / 64)) s

/-! ### The host-line filter (R393) -/

/-- A host line invalidated in a cluster because its filter entry goes: a dirty copy is written back to the host. -/
def dropHostLine (line : Nat) (d : Dev) (k : Nat) : Dev :=
  let l := d.cacheLine k line
  match l.st with
  | .mod => (d.setLine k line {}).emit (.hostWrite (hostAddr d line) l.data.bytes)
  | .exc => d.setLine k line {}
  | .shr => d.setLine k line {}
  | .smP => d.setLine k line { l with st := .imP }
  | _ => d

/-- A cluster gets a host line: the filter names it; a full filter evicts its oldest fill. -/
def filterAdd (k line : Nat) (d : Dev) : Dev :=
  if d.host.filter.any (fun p => p.1 == line) then
    d.modHost (fun h => { h with filter := h.filter.map (fun p => if p.1 = line then (p.1, BitVec.ofNat 8 (setBit p.2.toNat k true)) else p) })
  else
    let d1 := if d.host.filter.length < 262144 then d else
      match d.host.filter with
      | p :: rest => (setBitsOf p.2.toNat 8).foldl (dropHostLine p.1) (d.modHost (fun h => { h with filter := rest }))
      | [] => d
    d1.modHost (fun h => { h with filter := h.filter ++ [(line, BitVec.ofNat 8 (setBit 0 k true))] })

/-- A cluster no longer holds a host line. -/
def filterDrop (k line : Nat) (d : Dev) : Dev :=
  d.modHost (fun h => { h with filter := (h.filter.map (fun p => if p.1 = line then (p.1, BitVec.ofNat 8 (setBit p.2.toNat k false)) else p)).filter (fun p => p.2 != 0) })

/-- A grant is installed, the waiting stores are performed, GrantAck is sent (R378). -/
def devGrant (k line st : Nat) (data : Option LineData) (_ : Ctl) (d : Dev) : Dev :=
  let l := d.cacheLine k line
  let x := data.getD l.data
  let own : CacheLine := { st := .mod, data := l.stores.foldl (fun y w => mergeLine y w.1 w.2) x }
  let put := fun (n : CacheLine) =>
    let d1 := (d.setLine k line n).emit (.grantAck k line)
    if hostLine line then filterAdd k line d1 else d1
  match l.st, st with
  | .isP, 0 => put { st := .shr, data := x }
  | .isP, 1 => put { st := .exc, data := x }
  | .imP, 2 => put own
  | .smP, 2 => put own
  | .omP, 2 => put own
  | _, _ => d

def execGrant (cluster : Fin 8) (line : Nat) (state : Fin 3) (data : Option (List Byte)) (poison : Bool) (s : State) : Host.Outcome State Fault Refusal :=
  onWork (devGrant cluster.val line state.val (data.map (fun bs => { bytes := (bs ++ List.replicate 64 0).take 64, poison := poison }))) s

/-- WbAck in WB_P (R378). -/
def devWback (k line : Nat) (_ : Ctl) (d : Dev) : Dev :=
  if (d.cacheLine k line).st = .wbP then
    let d1 := d.setLine k line {}
    if hostLine line then filterDrop k line d1 else d1
  else d

def execWback (cluster : Fin 8) (line : Nat) (s : State) : Host.Outcome State Fault Refusal := onWork (devWback cluster.val line) s

/-- A snoop at a cluster (R378): 0 SnpInv, 1 SnpData, 2 SnpCur. A host line in M goes to S, never to O (R393). -/
def clusterSnoop (kind : Nat) (host : Bool) (l : CacheLine) : CacheLine × SnoopRsp :=
  match l.st, kind with
  | .inv, _ => (l, .miss)
  | .isP, _ => (l, .miss)
  | .imP, _ => (l, .miss)
  | .wbP, _ => (l, .evicting)
  | .exc, 0 => ({}, .clean)
  | .shr, 0 => ({}, .clean)
  | .mod, 0 => ({}, .data)
  | .own, 0 => ({}, .data)
  | .smP, 0 => ({ l with st := .imP }, .clean)
  | .omP, 0 => ({ l with st := .imP }, .data)
  | .exc, 1 => ({ l with st := .shr }, .clean)
  | .mod, 1 => ({ l with st := if host then .shr else .own }, .data)
  | .own, _ => (l, .data)
  | .omP, _ => (l, .data)
  | .mod, _ => (l, .data)
  | _, _ => (l, .clean)

/-- A home's snoop reaches a cluster, which answers from its state. -/
def devSnoop (kind k line : Nat) (_ : Ctl) (d : Dev) : Dev :=
  let l := d.cacheLine k line
  let r := clusterSnoop kind false l
  (d.setLine k line r.1).emit (.response k line r.2 (if r.2 = .data then l.data else {}))

def execSnpinv (cluster : Fin 8) (line : Nat) (s : State) : Host.Outcome State Fault Refusal := onWork (devSnoop 0 cluster.val line) s

def execSnpdata (cluster : Fin 8) (line : Nat) (s : State) : Host.Outcome State Fault Refusal := onWork (devSnoop 1 cluster.val line) s

def execSnpcur (cluster : Fin 8) (line : Nat) (s : State) : Host.Outcome State Fault Refusal := onWork (devSnoop 2 cluster.val line) s

/-! ## Host snoops and BIConflict (R392, R393) -/

/-- The line of the host range at a host physical line, if the base reaches it. -/
def deviceLine (d : Dev) (hline : Nat) : Option Nat :=
  let b := d.host.base.toNat * 2 ^ 24
  if b ≤ hline ∧ hline < b + 2 ^ 34 then some (hline - b + 0x3E0000000000 / 64) else none

/-- One cluster's part of a host snoop: strongest answer and data so far. -/
def hostSnoopOne (kind line : Nat) (r : Dev × SnoopRsp × LineData) (k : Nat) : Dev × SnoopRsp × LineData :=
  let l := r.1.cacheLine k line
  let q := clusterSnoop kind true l
  let d1 := r.1.setLine k line q.1
  let d2 := if q.1.st = .inv then filterDrop k line d1 else d1
  match q.2, r.2.1 with
  | .data, _ => (d2, .data, l.data)
  | .evicting, .data => (d2, r.2)
  | .evicting, _ => (d2, .evicting, r.2.2)
  | .clean, .miss => (d2, .clean, r.2.2)
  | _, _ => (d2, r.2)

/-- A host snoop of a host physical line: resolved against the filter, forwarded to the clusters named (R393). -/
def devHostSnoop (hline kind : Nat) (_ : Ctl) (d : Dev) : Dev :=
  if !hostUp d then d else
  match deviceLine d hline with
  | none => d.emit (.hostSnoop hline .miss {})
  | some line =>
    let who := match d.host.filter.find? (fun p => p.1 == line) with
      | some p => setBitsOf p.2.toNat 8
      | none => []
    let r := who.foldl (hostSnoopOne kind line) (d, .miss, {})
    r.1.emit (.hostSnoop hline r.2.1 r.2.2)

def execHostH2dSnoop (line : Nat) (kind : Fin 3) (s : State) : Host.Outcome State Fault Refusal := onWork (devHostSnoop line kind.val) s

/-- A BISnp crossed a request of the host: the conflict is acknowledged after the completions ordered before it (R392). -/
def devBiConflict (line : Nat) (_ : Ctl) (d : Dev) : Dev :=
  let m := d.home (homeOfLine line)
  if m.txns.any (fun t => t.req.line == line && t.waiting.contains 8) || m.evicts.any (fun e => e.entry.line == line && e.waiting.contains 8)
  then d.emit (.biConflictAck line) else d

def execBiconflict (line : Nat) (s : State) : Host.Outcome State Fault Refusal := onWork (devBiConflict line) s

/-! ## The direct alias (R388, R389, R391) -/

/-- One line through the alias: from the read-ahead if it holds it, else from memory, with 64 more lines after a sequential read. -/
def aliasLine (r : Dev × List Byte × Bool) (line : Nat) : Dev × List Byte × Bool :=
  let d := r.1
  let l := match d.host.ahead.find? (fun p => p.1 == line) with
    | some p => p.2
    | none => d.backing line
  let more := d.host.lastAlias == some (line - 1) && decide (0 < line) && !(d.host.ahead.any (fun p => p.1 == line))
  let d1 := d.modHost (fun h => { h with lastAlias := some line, ahead := if more then (List.range 64).map (fun i => (line + 1 + i, d.backing (line + 1 + i))) else h.ahead })
  (d1, r.2.1 ++ l.bytes, r.2.2 || l.poison)

/-- A BAR2 read: memory without a snoop, under the decode and the tables for the host (R389, R391). -/
def devAliasRead (a n : Nat) (c : Ctl) (d : Dev) : Dev :=
  if (d.cxl 0).role ≠ 1 ∨ n = 0 ∨ c.boot.failed then d
  else if !(d.spanMapped .hostCls a n && ptPermits c .hostCls 1 a n) then
    raise c ({ d.emit (.bytes 8 a (Dev.undefBytes d.free n) true) with free := d.free + 1 }) Fs.addrDecode (dropInfo a 8 false)
  else
    let ls := Memory.linesOf a n
    let r := ls.foldl aliasLine (d, [], false)
    let bad := ls.filter (fun l => !(d.host.ahead.any (fun p => p.1 == l)) && (d.backing l).poison)
    bad.foldl (noteUeLine c) (r.1.emit (.bytes 8 a ((r.2.1.drop (a % 64)).take n) r.2.2))

/-- In the safe state the host's reads of memory are answered with poison (R460; DEDUCED, log 99: through BAR2 as through CXL.mem). -/
def devAlias (a n : Nat) (c : Ctl) (d : Dev) : Dev :=
  if !d.fc.entering then devAliasRead a n c d
  else if (d.cxl 0).role ≠ 1 ∨ n = 0 ∨ c.boot.failed then d
  else { d.emit (.bytes 8 a (Dev.undefBytes d.free n) true) with free := d.free + 1 }

def execAliasRead (addr : BitVec 39) (len : Nat) (s : State) : Host.Outcome State Fault Refusal := onClocked (devAlias addr.toNat len) s

/-! ## Host loss (R394, R395) -/

/-- An access in flight at host loss: a write is discarded, a read returns poison; a bench descriptor ends so (R126, R395). -/
def loseAccess (d : Dev) (x : HostAcc) : Dev :=
  match x.bench with
  | some b => d.modBench b (fun y => { y with dma := { y.dma with slots := modAt (fun t => { t with hostWrites := 0, res := if x.write then 6 else 4 }) y.dma.slots 0 } })
  | none => if x.write then d else { d.emit (.bytes x.port x.addr (Dev.undefBytes d.free x.len) true) with free := d.free + 1 }

/-- A host line of a cluster is dropped; one in M is recorded in the orphan log (R395, R396). -/
def dropOrphan (c : Ctl) (r : Dev × Nat) (p : Nat × CacheLine) : Dev × Nat :=
  let k := p.1 / 2 ^ 42
  let line := p.1 % 2 ^ 42
  if !hostLine line then r else
  let d1 := r.1.setLine k line {}
  let d2 := if (pendingKind p.2.st).isSome then { d1.emit (.data k line (poisonData d1)) with free := d1.free + 1 } else d1
  if p.2.st ≠ .mod then (d2, r.2)
  else if d2.host.orphans.length < 256 then
    (d2.modHost (fun h => { h with orphans := h.orphans ++ [{ line := hostAddr d2 line / 64, cluster := k, time := c.now }] }), r.2)
  else (d2.modHost (fun h => { h with orphanOvfCnt := cntInc h.orphanOvfCnt }), r.2 + 1)

/-- A device line that the host owned: poisoned, counted, the first address latched (R395). -/
def poisonOwned (d : Dev) (line : Nat) : Dev :=
  let d1 := match d.place (line * 64) with
    | some a => { d with mem := d.mem.poisonLine (a / 64) }
    | none => d.deferWrite (line * 64) [] true
  d1.modHost (fun h => { h with poisonCnt := cntInc h.poisonCnt, poisonAddr := if h.poisonValid then h.poisonAddr else BitVec.ofNat 48 (line * 64), poisonValid := true })

/-- A host transaction is discarded. One that has sent SnpInv ends as an eviction, so that data its snoops return reaches
memory; dirty data already returned is written. -/
def dropHostTxn (c : Ctl) (h : Nat) (d : Dev) (t : Txn) : Dev :=
  let e := (Dev.dirFind (d.home h) t.req.line).map Prod.snd
  let inv := t.req.kind != .rdShared && t.req.kind != .rdCur
  let gone := d.modHome h (fun m => { m with txns := m.txns.filter (fun x => x.req.line != t.req.line) })
  if !inv then
    if (d.entryBefore h t.req.line).isSome then gone else gone.modHome h (fun m => Dev.putEntry m t.req.line none)
  else
    let d1 := gone.modHome h (fun m => Dev.putEntry m t.req.line none)
    let d2 := match t.dirty with
      | some l => Dev.homeStore c 8 t.req.line l d1
      | none => d1
    if t.waiting.isEmpty ∧ (t.evicting.isEmpty ∨ t.dirty.isSome) then d2
    else match e with
      | some x => d2.modHome h (fun m => { m with evicts := m.evicts ++ [{ entry := x, waiting := t.waiting.filter (fun a => a != 8), evicting := if t.dirty.isSome then [] else t.evicting }] })
      | none => d2

/-- The host leaves an entry: in DEM or DO as owner its line is poisoned (R395). -/
def leaveEntry (h : Nat) (d : Dev) (p : Nat × DirEntry) : Dev :=
  let owned := p.2.st != .ds && p.2.owner == 8
  let d1 := if owned then poisonOwned d p.2.line else d
  if Dev.lineOpen (d1.home h) p.2.line then
    d1.modHome h (fun m => { m with dir := tabPut m.dir p.1 { p.2 with sharers := Dev.dropSharers p.2.sharers [8] } })
  else d1.modHome h (fun m => Dev.putEntry m p.2.line (Dev.withoutAgents p.2 [8]))

/-- One home at host loss: its host requests discarded, the host out of its entries, its outstanding snoops of the host as
answered RSP_MISS (R380, R395). -/
def homeLoss (c : Ctl) (h : Nat) (d : Dev) : Dev :=
  let d1 := d.modHome h (fun m =>
    { m with chain := m.chain.filter (fun r => r.port != 8), overflow := m.overflow.filter (fun p => p.2.port != 8),
             ingress := m.ingress.filter (fun r => r.port != 8), wb := m.wb.filter (fun w => w.agent != 8) })
  let d2 := (((d1.home h).txns).filter (fun t => t.req.port == 8)).foldl (dropHostTxn c h) d1
  let d3 := (d2.home h).dir.foldl (leaveEntry h) d2
  let d4 := (d3.home h).evicts.foldl (fun x e => if e.entry.st != .ds && e.entry.owner == 8 then poisonOwned x e.entry.line else x) d3
  let d5 := (d4.home h).txns.foldl (fun x t => if t.waiting.contains 8 then Dev.respond c 8 t.req.line .miss {} x
    else if t.st == .tWb && t.evicting.contains 8 then Dev.advance c h { t with evicting := t.evicting.erase 8, missed := t.missed ++ [8] } x
    else Dev.modTxn h t.req.line (fun y => { y with missed := y.missed ++ [8] }) x) d4
  let d6 := (d5.home h).evicts.foldl (fun x e => if e.waiting.contains 8 then Dev.respond c 8 e.entry.line .miss {} x
    else if e.evicting.contains 8 then Dev.finishEvict c h { e with evicting := e.evicting.erase 8 } x else x) d5
  Dev.represent c h ((((d6.home h).chain).map Req.line).foldl (fun x l => Dev.runChain c h l x) d6)

/-- A mailbox of the host at host loss (R412). -/
def mbxLoss (c : Ctl) (k : Nat) (d : Dev) : Dev :=
  if bitAt c.cfg.mbxAccess.toNat k && ((d.mbx k).st == .busy || (d.mbx k).st == .pending) then d.modMbx k (fun m => { m with hostLost := true }) else d

/-- Entry to LOST, the actions of R395, and DOWN (R394). In the safe state the directory is left as it stands (R460). -/
def hostLoss (c : Ctl) (d : Dev) : Dev :=
  if !hostUp d then d else
  let d1 := d.host.flight.foldl loseAccess d
  let d2 := d1.modHost (fun h => { h with st := .down, lostFlag := true, lostCnt := cntInc h.lostCnt, flight := [], ahead := [], lastAlias := none, filter := [] })
  let r := d2.caches.foldl (dropOrphan c) (d2, 0)
  let d3 := if d.fc.entering then r.1 else foldRange 8 r.1 (homeLoss c)
  let d4 := foldRange 16 d3 (mbxLoss c)
  raiseAll c d4 ((Fs.hostLost, 0, 0) :: List.replicate r.2 (Fs.orphanOvf, 0, 0))

/-! ## Rows of the upstream port (R394, R432) -/

/-- PERST_N of an upstream port 0 rises: training may start once stage 5 has ended. -/
def execPerstN0Release (s : State) : Host.Outcome State Fault Refusal :=
  onAll (fun c d => ({ c with pins := { c.pins with perst := BitVec.ofNat 4 (setBit c.pins.perst.toNat 0 (c.pins.perst0Open || bitAt c.pins.perst.toNat 0)) } }, d)) s

/-- PERST_N of port 0 falls: a host-loss event. -/
def execPerstN0Assert (s : State) : Host.Outcome State Fault Refusal :=
  onAll (fun c d =>
    if c.pins.perst0Open then ({ c with pins := { c.pins with perst := BitVec.ofNat 4 (setBit c.pins.perst.toNat 0 false) } }, if c.live then hostLoss c d else d) else (c, d)) s

def execUpstreamHotReset (s : State) : Host.Outcome State Fault Refusal := onDev hostLoss s

def execUpstreamLinkDown (s : State) : Host.Outcome State Fault Refusal := onDev (fun c d => if d.host.st = .retraining then hostLoss c d else d) s

/-- The link trains: UP, with an empty filter (R394, R397, R432). -/
def devLinkTrained (c : Ctl) (d : Dev) : Dev :=
  if (d.cxl 0).role = 1 ∧ d.host.st = .down ∧ bitAt c.pins.perst.toNat 0 ∧ 6 ≤ c.boot.stage.toNat then d.modHost (fun h => { h with st := .up, filter := [] }) else d

def execUpstreamLinkTrained (s : State) : Host.Outcome State Fault Refusal := onDev devLinkTrained s

def execUpstreamLinkRecovery (s : State) : Host.Outcome State Fault Refusal :=
  onDev (fun _ d => if d.host.st = .up then d.modHost (fun h => { h with st := .retraining }) else d) s

def devLinkL0 (c : Ctl) (d : Dev) : Dev :=
  if d.host.st = .retraining then raise c (d.modHost (fun h => { h with st := .up, retrainCnt := cntInc h.retrainCnt })) Fs.hostRetrain 0 else d

def execUpstreamLinkL0 (s : State) : Host.Outcome State Fault Refusal := onDev devLinkL0 s

/-- A snoop goes unanswered: fatal for a cluster, host loss for the host; on a tie the response wins (R380). -/
def devSnoopTimeout (agent line : Nat) (tie : Bool) (c : Ctl) (d : Dev) : Dev :=
  let h := homeOfLine line
  let m := d.home h
  if !(m.txns.any (fun t => t.req.line == line && t.waiting.contains agent) || m.evicts.any (fun e => e.entry.line == line && e.waiting.contains agent)) then d
  else if tie then d.modHome h (fun m => { m with timeoutTieCnt := cntInc m.timeoutTieCnt })
  else if agent < 8 then raise c d (Fs.cohSnoopTimeout h) (line * 64 % 2 ^ 48 + agent * 2 ^ 48)
  else hostLoss c d

def execCohSnoopTimeoutExpiry (agent : Fin 9) (line : Nat) (tie : Bool) (s : State) : Host.Outcome State Fault Refusal := onWork (devSnoopTimeout agent.val line tie) s

/-- The host acknowledges a bench's access: one less is open, a read's data is delivered (R123, R387). -/
def bankHostAcc (x : HostAcc) (data : List Byte) (d : Dev) : Dev :=
  match x.bench with
  | some b => d.arriveTask b x.dest (if x.write then [] else (data ++ List.replicate x.len 0).take x.len)
  | none => if x.write then d else d.emit (.bytes x.port x.addr ((data ++ List.replicate x.len 0).take x.len) false)

/-- The oldest access of the direction completes. A completion in the cycle of a host-loss event counts (R387, R395). -/
def devHostCompletion (write : Bool) (data : List Byte) (tie : Bool) (c : Ctl) (d : Dev) : Dev :=
  match d.host.flight.find? (fun x => x.write == write) with
  | none => if tie then hostLoss c d else d
  | some x =>
    let d1 := bankHostAcc x data (d.modHost (fun h => { h with flight := h.flight.erase x }))
    if tie then hostLoss c d1 else d1

def execHostCompletion (write : Bool) (data : List Byte) (tie : Bool) (s : State) : Host.Outcome State Fault Refusal := onWork (devHostCompletion write data tie) s

/-- A configuration request: Configuration Request Retry Status until READY, then served, and served by a halted part, which completes enumeration;
the host enables MSI-X by it (R431, R432, R446). -/
def devConfig (write : Bool) (reg : BitVec 12) (v : Nat) (c : Ctl) (d : Dev) : Dev :=
  if (d.cxl 0).role ≠ 1 then d
  else
    let served := c.boot.ready || c.boot.failed
    let d1 := d.emit (.config (!served) reg.toNat)
    if served && write && reg == Config.msixCap then d1.modSilkai (fun m => { m with msixEn := bitAt v 31 }) else d1

def execConfigurationRequest (write : Bool) (reg : BitVec 12) (value : W32) (s : State) : Host.Outcome State Fault Refusal := onDev (devConfig write reg value.toNat) s

/-- COH_ORPHAN_STATUS.CLEAR empties the log (R396). -/
def execCohOrphanClear (s : State) : Host.Outcome State Fault Refusal := onDev (fun _ d => d.modHost (fun h => { h with orphans := [] })) s

end Sys2Proof.Machine
end

