-- ==== Sys2Proof/Machine/FarCopy.lean ====
section
/-! DEFINITION. The plan of an ND_RESHARD (R469, R470) and its FAR_COPY actions (R470, R471, R473, R478): a source image in this package,
or read over the fabric from another one, with its bad blocks repaired from the sources of its own map. -/

namespace Sys2Proof.Machine

open Sys2Proof

/-! ## The plan (R469, R470) -/

/-- A plan action. -/
structure PlanAct where
  node : Nat
  act : Nat
  panel : Nat
  commit : Nat
  addr : Nat
  twin : Nat
  expect : Nat
  source : Nat
  fields : Nat
  resv : Bool
  deriving DecidableEq, Repr

def planActOf (ws : List Nat) : PlanAct :=
  let w := wordAt ws
  { node := bits (w 0) 0 16, act := bits (w 0) 16 4, panel := bits (w 0) 20 20, commit := w 1, addr := bits (w 2) 0 48, twin := w 3, expect := w 4, source := w 5,
    fields := bits (w 6) 0 44, resv := bits (w 0) 40 24 != 0 || bits (w 2) 48 16 != 0 || bits (w 6) 44 20 != 0 || w 7 != 0 }

/-- A plan as it lies in memory. -/
structure Plan where
  magic : Nat
  group : Nat
  members : Nat
  resv : Bool
  scratch : List Nat
  acts : List PlanAct
  moves : List DoveMove
  deriving DecidableEq, Repr

/-- Bytes of a plan, by its header. -/
def planLen (hd : List Byte) : Nat := 64 + roundUp (4 * leAt hd 8 4) 64 + 64 * leAt hd 12 4 + 32 * leAt hd 16 4

def planOf (bs : List Byte) : Plan :=
  let n := leAt bs 8 4
  let a := 64 + roundUp (4 * n) 64
  let m := a + 64 * leAt bs 12 4
  { magic := leAt bs 0 4, group := leAt bs 4 2, members := n, resv := leAt bs 6 2 != 0 || leAt bs 24 40 != 0, scratch := (List.range n).map (fun i => leAt bs (64 + 4 * i) 4),
    acts := (List.range (leAt bs 12 4)).map (fun i => planActOf (wordsOf ((bs.drop (a + 64 * i)).take 64))),
    moves := (List.range (leAt bs 16 4)).map (fun i => doveMoveOf (wordsOf ((bs.drop (m + 32 * i)).take 32))) }

/-- The plan at an address. -/
def planAt (d : Dev) (a : Nat) : Plan := planOf (d.peekBytes a (planLen (d.peekBytes a 64)))

/-! ## Segments as stored (R478) -/

/-- What a segment stores: bytes, index words, format, first block. -/
abbrev StoredSeg := List Byte × List Nat × Nat × Nat

/-- What the check of a block's stored bytes finds: nothing wrong, or a bad block with the DOWEL of its header if that can be read. -/
inductive StoredBlock where
  | sound
  | bad (dowel : Option Nat)
  deriving DecidableEq, Repr

/-- Check block `j` of a segment by its stored bytes (R204, R206). DEDUCED (log 90): a POISON block is well-formed, and is copied as stored. -/
def checkStored (g : Seg) (data : List Byte) (j : Nat) : StoredBlock :=
  let sp := Dev.blockSpan g j
  let bs := (data.drop sp.1).take sp.2
  if g.fmt = 1 then (if crc32c bs = wordAt g.index j then .sound else .bad (some (wordAt g.index j)))
  else match veneerDecode bs (g.dataLen - sp.1) with
    | .data x dw => if crc32c x = dw then .sound else .bad (some dw)
    | .poison => .sound
    | .bad => .bad (if 8 ≤ bs.length then some (vnDowel bs) else none)

/-- Put a repaired block, encoded as it was stored (R203), into the bytes of a segment. -/
def mendStored (g : Seg) (data : List Byte) (j : Nat) (bs : List Byte) : List Byte :=
  let sp := Dev.blockSpan g j
  let old := (data.drop sp.1).take sp.2
  let enc := if g.fmt = 1 then bs else veneerEncode (rewriteKind old bs sp.2) bs
  data.take sp.1 ++ (enc ++ List.replicate sp.2 0).take sp.2 ++ data.drop (sp.1 + sp.2)

/-- The first bad block of a segment. -/
def firstBad (g : Seg) (data : List Byte) : Option (Nat × Option Nat) :=
  (List.range g.nblk).findSome? (fun j => match checkStored g data j with | .bad dw => some (j, dw) | .sound => none)

/-- A header that HDR_CRC covers, of a segment with bytes (R194, R198). -/
def headerSound (g : Seg) : Bool := g.crc == g.hdrCrc && g.nblk != 0 && g.dataLen != 0 && decide (g.dataLen ≤ 0x200000)

/-! ## An image of this package -/

/-- The bytes of a segment of this package: a block with a poisoned line is bad (R204), and one decided by its repair is as repaired. -/
def segStored (d : Dev) (m id : Nat) : List Byte :=
  let g := d.seg id
  (List.range g.nblk).foldl (fun data j => match repairedBlock d m id j with | some (some bs) => mendStored g data j bs | _ => data) (d.peekBytes (Dev.segBase id) g.dataLen)

/-- Block `j` of segment `id` of an image in this package, by its map `m`. -/
def checkLocal (d : Dev) (m id j : Nat) : StoredBlock :=
  match repairedBlock d m id j with
  | some _ => .sound
  | none => match d.readBlock id j with
    | .bad dw => .bad dw
    | _ => .sound

/-- The end of reading an image: its segments, a status, or a bad block (entry, segment, block, DOWEL). -/
inductive ImageEnd where
  | segs (l : List StoredSeg)
  | fails (st : Nat)
  | bad (entry id j : Nat) (dowel : Option Nat)
  deriving DecidableEq, Repr

/-- Entries of an image of this package, read in order: a port that is down, a sick header or a block given up end POISONED, a stale entry
CHECK_FAIL (R190, R199, R224). -/
def localEntries (d : Dev) (m : Nat) : List Nat → List StoredSeg → ImageEnd
  | [], done => .segs done
  | i :: rest, done =>
    let e := d.mapEntry m i
    let g := d.seg e.1
    if !(d.cxl (Dev.segPort e.1)).up then .fails 0xA
    else if g.state ≠ 2 ∨ g.gen.toNat % 2048 ≠ e.2.1 then .fails 0xD
    else if !headerSound g then .fails 0xA
    else if (List.range g.nblk).any (fun j => repairedBlock d m e.1 j == some none) then .fails 0xA
    else match (List.range g.nblk).findSome? (fun j => match checkLocal d m e.1 j with | .bad dw => some (j, dw) | .sound => none) with
      | some b => .bad i e.1 b.1 b.2
      | none => localEntries d m rest (done ++ [(segStored d m e.1, g.index, g.fmt, e.2.2)])

/-- An image of this package, by its map. -/
def localImage (d : Dev) (m : Nat) : ImageEnd :=
  if d.peekPoison m 64 || d.peekPoison (m + 64) (8 * d.mapEntries m) then .fails 0xA else localEntries d m (List.range (d.mapEntries m)) []

/-! ## The course of the copies -/

def modReshard (f : Reshard → Reshard) (d : Dev) : Dev := d.modColl (fun m => { m with reshard := m.reshard.map f })

/-- Change the FAR_COPY under way. -/
def modCopy (f : FarCopy → FarCopy) (d : Dev) : Dev := modReshard (fun r => { r with copy := f r.copy }) d

/-- An operation of an ND_RESHARD joins the group's operations. -/
def addOwn (op group aux stage : Nat) (failed : Bool) (d : Dev) : Dev :=
  let o : CollOp := { seq := d.coll.seq, desc := 0, tag := none, words := [op + group * 2 ^ 16, 0, 0, 0, aux, 0, 0, 0], step := d.life.step.toNat, stage := stage, failed := failed, own := true }
  d.modColl (fun m => { m with ops := m.ops ++ [o], seq := m.seq + 1 })

/-- The copies are over, well or with a status: the first barrier (R473). -/
def copiesEnd (st : Nat) (d : Dev) : Dev :=
  match d.coll.reshard with
  | none => d
  | some r => addOwn 6 r.group 0 0 (st != 0) (modReshard (fun x => { x with status := st, copy := {} }) d)

/-- The FAR_COPY under way fails. -/
def copyFails (st : Nat) (d : Dev) : Dev := if (copyOf d).stage = .idle then d else copiesEnd st d

/-- The FAR_COPY actions of this member from an index on, with their indices. -/
def copiesOf (d : Dev) (p : Plan) (i : Nat) : List (Nat × PlanAct) :=
  (p.acts.zipIdx.filter (fun a => decide (i ≤ a.2) && a.1.node == d.fab.node.toNat && a.1.act == 4)).map (fun a => (a.2, a.1))

/-- The copied segments are stored, and the local map names them; a map that names them already stays (R471). -/
def storeCopy (c : Ctl) (a : PlanAct) (segs : List StoredSeg) (d : Dev) : Nat × Dev :=
  if localImage d a.addr = .segs segs then (0, d) else
  let packed := segs.map (fun s => ({ data := s.1, index := s.2.1, fmt := s.2.2.1, first := s.2.2.2 } : Packed))
  let t := takeSegments 0 0xF packed (d.stager 0).lastPort (releaseImage a.addr d) []
  if t.2.2 then (5, d) else (0, (sealAll c.now a.addr t.2.1 t.1).poke32 a.addr t.2.1.length)

/-- A bad block of the image copied: it is repaired from the sources of the image's map, or, with none, ends the action POISONED (R220,
R478). DESIGN CHOICE (log 90): stager 0 copies. -/
def mendCopy (c : Ctl) (target entry id j : Nat) (dowel : Option Nat) (sources : List Nat) (d : Dev) : Dev :=
  if sources.isEmpty then copyFails 0xA (if target < 2 ^ 64 then farBlockLost c id j d else raiseFloor c d Fs.farBlockBad 2 (farInfo id j))
  else startRepair c (modCopy (fun y => { y with stage := .mend }) d) 0 target false entry id j dowel []

/-- Read `n` bytes of the source's package on the service flow of its node; with none OPEN the action ends DENIED (R316). -/
def askCopy (c : Ctl) (stage : CopyStage) (a n : Nat) (d : Dev) : Dev :=
  let node := (copyOf d).src / 2 ^ 48
  match serviceFlow d node with
  | some fl => startMsg c fl .copy (readFrames a n false) n a 0 (modCopy (fun y => { y with stage := stage, buf := [], bad := false }) d)
  | none => copyFails 6 (fabError c 1 node 0 d)

/-- What a FAR_COPY begins with: a status at once, or reads or a repair that it waits for. -/
inductive CopyRun where
  | ends (st : Nat) (d : Dev)
  | waits (d : Dev)
  deriving DecidableEq

/-- The FAR_COPY of action `i` begins (R470). -/
def beginCopy (c : Ctl) (i : Nat) (a : PlanAct) (d : Dev) : CopyRun :=
  let m := a.source % 2 ^ 48
  if d.far.unified then .ends 6 d
  else if !(a.addr % 64 == 0 && d.isNear a.addr 64 && d.engineSpan a.addr 64) then .ends 4 d
  else if a.source / 2 ^ 48 ≠ d.fab.node.toNat then .waits (askCopy c .mapHead m 64 (modCopy (fun _ => { stage := .mapHead, act := i, src := a.source }) d))
  else match localImage d m with
    | .fails st => .ends st (if st = 0xA then notePoison c m (64 + 8 * d.mapEntries m) d else d)
    | .bad e id j dw => .waits (mendCopy c m e id j dw (d.mapSources m) (modCopy (fun _ => { stage := .mend, act := i, src := a.source, entry := e }) d))
    | .segs l => let r := storeCopy c a l d; .ends r.1 r.2

/-- FAR_COPY actions in plan order, until one waits or fails (R473). -/
def copyActs (c : Ctl) : List (Nat × PlanAct) → Dev → Dev
  | [], d => copiesEnd 0 d
  | a :: rest, d =>
    match beginCopy c a.1 a.2 d with
    | .waits x => x
    | .ends st x => if st = 0 then copyActs c rest x else copiesEnd st x

/-- The FAR_COPY under way again from an index of the plan on. -/
def copiesFrom (c : Ctl) (i : Nat) (d : Dev) : Dev :=
  match d.coll.reshard with
  | some r => copyActs c (copiesOf d (planAt d r.plan) i) d
  | none => d

/-! ## An image of another package -/

/-- Every segment of the source is copied: they are stored, and the next FAR_COPY begins. -/
def copyDone (c : Ctl) (d : Dev) : Dev :=
  match d.coll.reshard with
  | none => d
  | some r =>
    match (planAt d r.plan).acts[r.copy.act]? with
    | none => copiesEnd 0xA d
    | some a =>
      let t := storeCopy c a r.copy.segs d
      if t.1 ≠ 0 then copiesEnd t.1 t.2 else copiesFrom c (r.copy.act + 1) (modCopy (fun _ => {}) t.2)

/-- The next entry of the source's map, or the end of it. -/
def copyEntry (c : Ctl) (d : Dev) : Dev :=
  let y := copyOf d
  if y.entry < y.count then askCopy c .entry (y.src % 2 ^ 48 + 64 + 8 * y.entry) 8 d else copyDone c d

/-- The stored bytes of the entry's segment are checked: a bad block is repaired, a sound segment joins those copied. -/
def copySegment (c : Ctl) (d : Dev) : Dev :=
  let y := copyOf d
  let g := segOf y.hdr
  match firstBad g y.data with
  | some b => mendCopy c (2 ^ 64 + y.src) y.entry (2 ^ 21 + bits y.word 0 21) b.1 b.2 y.sources d
  | none => copyEntry c (modCopy (fun x => { x with entry := x.entry + 1, segs := x.segs ++ [(x.data, g.index, g.fmt, bits x.word 32 32)] }) d)

/-- Bytes of a copy's open read arrive. A poisoned frame of a segment's bytes leaves its blocks bad; of anything else, it ends the action. -/
def copyTakes (off : Nat) (bs : List Byte) (bad : Bool) (d : Dev) : Dev :=
  modCopy (fun y => { y with buf := if bad then y.buf else cellsPut y.buf off bs, bad := y.bad || (bad && y.stage != .data) }) d

/-- A read of a copy is over: the copy goes on (R478). A header that its HDR_CRC does not cover ends the action POISONED, one that is not
SEALED or of another generation CHECK_FAIL (R199). -/
def copyNext (c : Ctl) (d : Dev) : Dev :=
  let y := copyOf d
  let got := fun (n : Nat) => (List.range n).map (fun i => (tabFind y.buf i).getD 0)
  if y.bad then copyFails 0xA d else
  match y.stage with
  | .idle => d
  | .mend => d
  | .mapHead =>
    let ws := wordsOf (got 64)
    copyEntry c (modCopy (fun x => { x with count := wordAt ws 0 % 2 ^ 32, sources := ((List.range 3).map (fun i => wordAt ws (2 + i))).filter (fun s => s != 0) }) d)
  | .entry =>
    let w := leNat (got 8)
    askCopy c .header (0x10000000000 * (Dev.segPort w + 1) + w % 2 ^ 19 * 4096) 4096 (modCopy (fun x => { x with word := w }) d)
  | .header =>
    let hdr := got 4096
    let g := segOf hdr
    if g.state ≠ 2 ∨ g.gen.toNat % 2048 ≠ bits y.word 21 11 then copyFails 0xD d
    else if !headerSound g then copyFails 0xA d
    else askCopy c .data (0x10000000000 * (Dev.segPort y.word + 1) + y.word % 2 ^ 19 * 0x200000) g.dataLen (modCopy (fun x => { x with hdr := hdr }) d)
  | .data => copySegment c (modCopy (fun x => { x with data := got (segOfHeader y.hdr).dataLen }) d)

/-! ## Repairs (R221, R478) -/

/-- The decided entry of a copied block leaves the table; the block takes its place in the copy, or the action ends POISONED. -/
def copyMended (c : Ctl) (r : Repair) (d : Dev) : Dev :=
  let d1 := admitRepairs c (d.modFar (fun f => { f with repairs := f.repairs.filter (fun x => !x.same r) }))
  match r.fixed with
  | some bs => copySegment c (modCopy (fun y => { y with data := mendStored (segOfHeader y.hdr) y.data r.block bs }) d1)
  | none => copyFails 0xA d1

/-- A FAR_COPY that waits for the repair of this block goes on once it is decided; any other repair leaves the device as it is. -/
def resumeCopy (c : Ctl) (r : Repair) (d : Dev) : Dev :=
  if (copyOf d).stage ≠ .mend then d else
  match openRepair d r.isPage r.target r.seg r.block with
  | some q =>
    if !q.decided then d
    else if q.copied then copyMended c q d
    else if !q.isPage && (copyOf d).src == d.fab.node.toNat * 2 ^ 48 + q.target then copiesFrom c (copyOf d).act d
    else d
  | none => d

/-- A repair's fetch is done (R221), and a FAR_COPY that waits for the block goes on. -/
def devRepairDone (i : Nat) (block : Option (List Byte)) (c : Ctl) (d : Dev) : Dev :=
  match d.far.repairs[i]? with
  | none => d
  | some r => resumeCopy c r (devRepairFetch i block c d)

def execFarRepairFetchDone (entry : Nat) (block : Option (List Byte)) (s : State) : Host.Outcome State Fault Refusal := onWork (devRepairDone entry block) s

end Sys2Proof.Machine
end

