-- ==== Sys2Proof/Machine/FabricTx.lean ====
section
/-! DEFINITION. The sending side of the fabric engine (08): the end and the failure of messages at their issuers, acknowledgements,
retransmission, RNR, congestion control, the open handshake, heartbeats, peer loss. -/

namespace Sys2Proof.Machine

open Sys2Proof

/-! ## Registers with limits (08, Registers) -/

def rtoOf (d : Dev) : Nat := max 100 d.fab.rto.toNat
def reorderOf (d : Dev) : Nat := max 10 d.fab.reorderWin.toNat
def retriesOf (d : Dev) : Nat := max 1 d.fab.retryMax.toNat
def coalesceOf (d : Dev) : Nat := max 1 d.fab.ackCoalesce.toNat

/-! ## The end of a message at its issuer (R314) -/

/-- What the issuer of a finished message does. -/
def issuerDone (m : OpenMsg) (c : Ctl) (d : Dev) : Dev :=
  match m.issuer with
  | .window port => if bitAt m.dest 61 then d.emit (.ack port (m.dest % 2 ^ 48 / 64)) else d
  | .bench b => d.arriveTask b 0 []
  | .coll seq => if bitAt m.dest 61 then pullDone c seq d else d
  | .repair page target seg block => fetchOver c page target seg block d
  | .copy => copyNext c d
  | _ => d

/-- Messages of a flow that are over leave it. -/
def reapMsgs (c : Ctl) (f : Nat) (d : Dev) : Dev :=
  let done := (d.flow f).msgs.filter (msgOver (d.flow f))
  done.foldl (fun x m => issuerDone m c x) (d.modFlow f (fun x => { x with msgs := x.msgs.filter (fun m => !done.contains m) }))

/-- A DRAINING context with nothing left is CLOSED (R308). -/
def drainFlow (f : Nat) (d : Dev) : Dev :=
  let fl := d.flow f
  if fl.state = .draining ∧ fl.unacked.isEmpty ∧ fl.waiting.isEmpty ∧ fl.msgs.isEmpty then d.modFlow f (fun x => { x with state := .closed }) else d

/-! ## Failures at the issuer (R317) -/

/-- A bench DMA access failed: the descriptor ends so once every access is in (R126, R317). -/
def benchFailed (b st : Nat) (d : Dev) : Dev :=
  let fail := fun (t : Task) => { t with hostWrites := t.hostWrites - 1, res := if t.res = 0 then st else t.res }
  d.modBench b (fun y => { y with dma := { y.dma with slots := modAt fail y.dma.slots 0 } })

/-- A message failed with a wire status, 15 for a failed flow. DEDUCED (log entry 68): a response, which no engine waits for, is no
operation, and its failure raises nothing. -/
def failMsg (c : Ctl) (f w : Nat) (d : Dev) (m : OpenMsg) : Dev :=
  let node := (d.flow f).peerNode
  let err := fabError c w node f
  match m.issuer with
  | .none => d
  | .window port =>
    let a := m.dest % 2 ^ 48
    let d1 := if m.respDue = 0 then d else { d.emit (.bytes port a (Dev.undefBytes d.free m.respDue) true) with free := d.free + 1 }
    err (raise c d1 Fs.addrDecode (dropInfo a port (m.respDue == 0)))
  | .bench b => err (benchFailed b (if w = 4 then 5 else 4) d)
  | .jig t => err (failRecord c t.jig t.queue t.record (stOfWire w) d)
  | .fill b => fetchedInto b [] f w d
  | .plane h => err (mirrorLost c h node m.addr m.dest d)
  | .coll seq => err (collFailed c seq w node d)
  | .repair page target seg block => err (fetchFails page target seg block d)
  | .copy => copyFails (stOfWire w) (err d)
  | .engine => err d

/-- STATUS for a message (R317): it is over at its issuer. -/
def statusArrive (c : Ctl) (f : Nat) (id : BitVec 16) (w : Nat) (d : Dev) : Dev :=
  match (d.flow f).msgs.find? (fun m => m.msgId == id) with
  | some m => drainFlow f (failMsg c f w (d.modFlow f (fun x => { x with msgs := x.msgs.erase m })) m)
  | none => d

/-- A flow fails: every message still open fails (R308, R317). -/
def failFlow (c : Ctl) (f : Nat) (d : Dev) : Dev :=
  let fl := d.flow f
  if fl.state ≠ .opn ∧ fl.state ≠ .draining then d else
  let d0 : Dev := { d with planes := tabMap {} d.planes (fun p => { p with asks := p.asks.filter (fun a => a.flow != f) }) }
  let d1 := (d0.modAux (fun x => { x with holds := x.holds.filter (fun h => h.1 != f) })).modFlow f (fun x => { x with state := .failed, unacked := [], waiting := [], msgs := [], rnrHeld := [], fenced := [] })
  fl.msgs.foldl (failMsg c f 15) (raise c d1 Fs.fabFlowFail (fabInfo fl.peerNode f 15))

/-! ## Acknowledgements at the receiver (R311) -/

/-- Big-endian bytes. -/
def beBytes (n v : Nat) : List Byte := (natLE n v).reverse

/-- Runs of consecutive distances above RX_CUM, ascending. -/
def ackRanges : List Nat → List (Nat × Nat)
  | [] => []
  | a :: rest =>
    match ackRanges rest with
    | (lo, hi) :: more => if lo = a + 1 then (a, hi) :: more else (a, a) :: (lo, hi) :: more
    | [] => [(a, a)]

/-- Distances of the PSNs received above RX_CUM, ascending. -/
def gapList (fl : Flow) : List Nat := (List.range 1024).filter (fun i => fl.received.contains ((fl.rxCum.toNat + i) % 2 ^ 32))

/-- The payload of an ACK. -/
def ackPayload (fl : Flow) : List Byte :=
  let rs := (ackRanges (gapList fl)).take 8
  beBytes 4 fl.tsEcho.toNat ++ beBytes 2 fl.ceCnt ++ beBytes 2 fl.rxCnt ++ beBytes 1 rs.length ++ List.replicate 7 0 ++
    rs.flatMap (fun r => beBytes 4 ((fl.rxCum.toNat + r.1) % 2 ^ 32) ++ beBytes 4 ((fl.rxCum.toNat + r.2) % 2 ^ 32))

def sendAck (c : Ctl) (f : Nat) (d : Dev) : Dev :=
  let fl := d.flow f
  sendUnseq c f { opc := Opc.ack, psn := fl.rxCum, payload := ackPayload fl } (d.modFlow f (fun x => { x with ackPend := 0, ceCnt := 0, rxCnt := 0 }))

/-- A frame is to be acknowledged: at once if it leaves a gap or carries CE, else when enough have gathered. -/
def noteAck (c : Ctl) (f : Nat) (fr : Frame) (now_ : Bool) (d : Dev) : Dev :=
  let d1 := d.modFlow f (fun x => { x with ackPend := x.ackPend + 1, ackSince := if x.ackPend = 0 then c.now else x.ackSince, tsEcho := fr.ts })
  if now_ || decide (coalesceOf d ≤ (d1.flow f).ackPend) then sendAck c f d1 else d1

/-- FAB_ACK_DELAY passes since the first frame not acknowledged. -/
def devAckDelay (f : Nat) (c : Ctl) (d : Dev) : Dev :=
  let fl := d.flow f
  if (fl.state = .opn ∨ fl.state = .draining) ∧ fl.ackPend ≠ 0 then sendAck c f d else d

def execAckDelayExpiry (flow : Fin 65536) (s : State) : Host.Outcome State Fault Refusal := onWork (devAckDelay flow.val) s

/-! ## Acknowledgements at the sender (R312, R318) -/

/-- Does an ACK cover a PSN? -/
def ackCovers (fr : Frame) (psn : W32) : Bool :=
  decide (2 ^ 31 ≤ (psn - fr.psn).toNat) ||
    (List.range (beNat ((fr.payload.drop 8).take 1))).any (fun i =>
      let s := BitVec.ofNat 32 (beNat ((fr.payload.drop (16 + 8 * i)).take 4))
      let e := BitVec.ofNat 32 (beNat ((fr.payload.drop (20 + 8 * i)).take 4))
      decide ((psn - s).toNat ≤ (e - s).toNat))

/-- Send a frame again, with RETX, a new TS, an ICRC that covers it (log 166) and the next path. -/
def resend (c : Ctl) (f : Nat) (t : TxFrame) (d : Dev) : Dev :=
  let fl := d.flow f
  let path := nextPath d fl
  let k := path.getD 0
  let fr := { t.frame with retx := true, ts := BitVec.ofNat 32 c.now }
  let put := fun (x : TxFrame) => if x.frame.psn = t.frame.psn then { t with frame := fr, sent := c.now, port := k / 16, ent := k % 16 } else x
  transmit fr (outPort d fl path) fl.tc.toNat (k % 16) (d.modFlow f (fun x => { x with unacked := x.unacked.map put, pathPtr := k + 1 }))

/-- A frame is lost (R312): sent again, or too often. -/
def loseFrame (c : Ctl) (f : Nat) (d : Dev) (t : TxFrame) : Dev :=
  if (d.flow f).unacked.any (fun x => x.frame.psn == t.frame.psn) then
    (if retriesOf d ≤ t.retries then failFlow c f d
    else (resend c f { t with retries := t.retries + 1 } d).modAux (fun x => { x with retxCnt := cntInc x.retxCnt }))
  else d

/-- Least RTT of the last 10 ms (R307): BASE_RTT. -/
def baseRtt (now : Nat) (fl : Flow) : Nat :=
  ((fl.rtts.filter (fun p => decide (now ≤ p.1 + 1000000))).map Prod.snd).foldl min 0xFFFFFFFF

/-- An ACK's figures join the books of the congestion period. -/
def noteCc (now : Nat) (fr : Frame) (fl : Flow) : Flow :=
  let rtt := (BitVec.ofNat 32 now - BitVec.ofNat 32 (beNat (fr.payload.take 4))).toNat
  { fl with rtts := fl.rtts.filter (fun p => decide (now ≤ p.1 + 1000000)) ++ [(now, rtt)],
            ccCe := fl.ccCe + beNat ((fr.payload.drop 4).take 2), ccRx := fl.ccRx + beNat ((fr.payload.drop 6).take 2),
            ccDelay := match fl.ccDelay with | some q => some (min q rtt) | none => some rtt }

/-- An ACK: covered frames are done, frames sent well before a newly covered one are lost, messages end (R311 to R314). -/
def ackArrive2 (c : Ctl) (f : Nat) (fr : Frame) (d : Dev) : Dev :=
  let fl := d.flow f
  let hit := fl.unacked.filter (fun t => ackCovers fr t.frame.psn)
  let newest := (hit.map (fun t => t.sent)).foldl max 0
  let d1 := d.modFlow f (fun x => noteCc c.now fr
    { x with unacked := x.unacked.filter (fun t => !ackCovers fr t.frame.psn), rnrHeld := x.rnrHeld.filter (fun p => !ackCovers fr p) })
  let lost := (d1.flow f).unacked.filter (fun t => decide (t.sent + reorderOf d ≤ newest) && !(d1.flow f).rnrHeld.contains t.frame.psn)
  let d2 := if hit.isEmpty then d1 else lost.foldl (loseFrame c f) d1
  drainFlow f (flushWaiting c f (reapMsgs c f d2))

/-! ## Time-outs (R299, R312, R313) -/

/-- A frame's time-out; an acknowledgement of the same cycle wins (R24) and arrives as its own frame. -/
def devFrameLoss (f : Nat) (psn : W32) (tie : Bool) (c : Ctl) (d : Dev) : Dev :=
  let fl := d.flow f
  match fl.unacked.find? (fun t => t.frame.psn == psn) with
  | none => d
  | some t =>
    if fl.rnrHeld.contains psn then d
    else if tie then d.modAux (fun x => { x with tieCnt := cntInc x.tieCnt })
    else loseFrame c f (d.modFlow f (fun x => { x with penalties := tabPut x.penalties (t.port * 16 + t.ent) (c.now + d.fab.pathPenalty.toNat) })) t

def execFrameLossTimeout (flow : Fin 65536) (psn : W32) (tie : Bool) (s : State) : Host.Outcome State Fault Refusal := onWork (devFrameLoss flow.val psn tie) s

def execPathPenaltyExpiry (flow : Fin 65536) (path : Nat) (s : State) : Host.Outcome State Fault Refusal :=
  onWork (fun _ d => d.modFlow flow.val (fun x => { x with penalties := tabDel x.penalties path })) s

/-- RNR: no new frame goes out until the named one is accepted. -/
def rnrArrive (f : Nat) (psn : W32) (d : Dev) : Dev :=
  d.modFlow f (fun x => if x.unacked.any (fun t => t.frame.psn == psn) && !x.rnrHeld.contains psn then { x with rnrHeld := x.rnrHeld ++ [psn] } else x)

/-- FAB_RNR_DELAY passes: the held frames are sent again; that counts nowhere. -/
def devRnrRetransmit (f : Nat) (c : Ctl) (d : Dev) : Dev :=
  ((d.flow f).unacked.filter (fun t => (d.flow f).rnrHeld.contains t.frame.psn)).foldl (fun x t => resend c f t x) d

def execRnrRetransmit (flow : Fin 65536) (s : State) : Host.Outcome State Fault Refusal := onWork (devRnrRetransmit flow.val) s

/-! ## Congestion control (R318) -/

/-- A non-negative rate as numerator and denominator, in whole Mb/s: which of the two whole numbers around it is not said. -/
def wholeRate (free n m : Nat) : Nat := if n % m = 0 then n / m else n / m + Config.choice free 2 % 2

/-- The fraction by which RATE falls: max(f, min(1, (q - TARGET) / q)), as numerator and denominator. -/
def ccFraction (ce rx q target : Nat) : Nat × Nat :=
  let f := if rx = 0 then (0, 1) else (ce, rx)
  let g := if target < q then (q - target, q) else (0, 1)
  if f.1 * g.2 ≤ g.1 * f.2 then g else f

/-- FAB_CC_PERIOD ends: RATE follows the acknowledgements of the period; without any it stays. -/
def devCcTick (f : Nat) (c : Ctl) (d : Dev) : Dev :=
  let fl := d.flow f
  match fl.ccDelay with
  | none => d
  | some delay =>
    let q := delay - baseRtt c.now fl
    let beta := min 256 (max 1 d.fab.ccBeta.toNat)
    let x := ccFraction fl.ccCe fl.ccRx q d.fab.ccTarget.toNat
    let clear := fun (y : Flow) => { y with ccCe := 0, ccRx := 0, ccDelay := none }
    if (0 < fl.ccCe ∧ 0 < fl.ccRx) ∨ d.fab.ccTarget.toNat < q then
      let r := wholeRate d.free (fl.rate * (256 * x.2 - beta * x.1)) (256 * x.2)
      { d.modFlow f (fun y => clear { y with rate := max d.fab.ccRateMin.toNat r, ccRun := 0 }) with free := d.free + 1 }
    else
      let run := fl.ccRun + 1
      let step := d.fab.ccAiStep.toNat * (if d.fab.ccHai.toNat < run then 8 else 1)
      d.modFlow f (fun y => clear { y with rate := min (pathRate d fl) (fl.rate + step), ccRun := run })

def execCcPeriodTick (flow : Fin 65536) (s : State) : Host.Outcome State Fault Refusal :=
  onWork (fun c d => if (d.flow flow.val).state = .opn ∨ (d.flow flow.val).state = .draining then devCcTick flow.val c d else d) s

/-- The path rate follows ports that narrow or go down at once. -/
def capRates (d : Dev) : Dev :=
  d.modFab (fun g => { g with flows := tabMap {} g.flows (fun fl => { fl with rate := min fl.rate (pathRate d fl) }) })

/-! ## The open handshake (R307 to R309) -/

/-- A FLOW_OPEN frame of a context. -/
def sendOpen (c : Ctl) (f : Nat) (acked : Bool) (d : Dev) : Dev :=
  let fl := d.flow f
  let path := nextPath d fl
  let fr := { stamp c d fl { opc := Opc.flowOpen, addr := BitVec.ofNat 64 (f + fl.gen.toNat * 2 ^ 16 + b2n acked * 2 ^ 24), first := true, last := true } with gen := 0 }
  transmit fr (outPort d fl path) fl.tc.toNat (path.getD 0 % 16) (d.modFlow f (fun x => { x with pathPtr := path.getD 0 + 1 }))

/-- A FLOW_OPEN that passed checks 1 to 4: in no case of R309 it is dropped, and not counted as received. -/
def openArrive (c : Ctl) (fr : Frame) (d0 : Dev) : Dev :=
  let f := fr.dstFlow
  let fl := d0.flow f
  let d := d0.modAux (fun x => { x with rxFrameCnt := cntInc x.rxFrameCnt })
  let gen := BitVec.ofNat 8 (bits fr.addr.toNat 16 8)
  let stale := d0.modAux (fun x => { x with staleDropCnt := cntInc x.staleDropCnt })
  if fr.srcNode ≠ fl.peerNode ∨ bits fr.addr.toNat 0 16 ≠ fl.peerFlow then stale
  else match fl.state with
    | .opening => sendOpen c f true (d.modFlow f (fun x => { x with state := .opn, peerGen := gen, rate := pathRate d fl, rtts := [] }))
    | .opn => if gen ≠ fl.peerGen then failFlow c f d else if bitAt fr.addr.toNat 24 then d else sendOpen c f true d
    | _ => stale

/-- A context in OPENING sends FLOW_OPEN every FAB_RTO. -/
def devOpenResend (f : Nat) (c : Ctl) (d : Dev) : Dev := if (d.flow f).state = .opening then sendOpen c f false d else d

def execFlowOpenResend (flow : Fin 65536) (s : State) : Host.Outcome State Fault Refusal := onWork (devOpenResend flow.val) s

/-! ## Heartbeats and peer loss (R334, R335) -/

/-- JIG_STATUS.STATE of the global jig. -/
def stateCode (x : StepState) : Nat :=
  match x with
  | .idle => 0
  | .forward => 1
  | .backward => 2
  | .clamp => 3
  | .aborted => 5

/-- The next up port in rotation. -/
def nextUpPort (d : Dev) : Option Nat :=
  let ups := (List.range 64).filter (fun p => (d.eth p).up)
  match ups.find? (fun p => decide (d.fab.hbPtr ≤ p)) with
  | some p => some p
  | none => ups.head?

/-- One heartbeat to a node. It belongs to no flow: traffic class 0 and entropy index 0 (DESIGN CHOICE, log 144). -/
def sendBeat (c : Ctl) (d : Dev) (node : Nat) : Dev :=
  match nextUpPort d with
  | none => d
  | some p =>
    let pay := beBytes 8 d.life.step.toNat ++ [BitVec.ofNat 8 (stateCode d.life.state + b2n d.life.update * 16)] ++ List.replicate 7 0
    let fr : Frame := { opc := Opc.heartbeat, srcNode := d.fab.node.toNat, dstNode := node, epoch := d.life.epoch, ts := BitVec.ofNat 32 c.now, len := 16, payload := pay,
                        first := true, last := true, aux := BitVec.ofNat 32 d.life.step.toNat }
    transmit fr (some p) 0 0 (d.modFab (fun g => { g with hbPtr := p + 1 }))

/-- Every watched node gets a heartbeat, a lost one too (R334). -/
def devBeats (c : Ctl) (d : Dev) : Dev := (d.fab.nodes.filter (fun p => p.2.watched && p.1 != d.fab.node.toNat)).foldl (fun x p => sendBeat c x p.1) d

def execHeartbeatSend (s : State) : Host.Outcome State Fault Refusal := onWork (fun c d => if d.fab.joined then devBeats c d else d) s

/-- A watched node's timer reaches FAB_PEER_LOSS; a frame of it in the same cycle wins (R24) and arrives as its own. -/
def devPeerLoss (n : Nat) (tie : Bool) (c : Ctl) (d : Dev) : Dev :=
  let x := d.node n
  if !x.watched || x.lost then d
  else if tie then (d.modNode n (fun y => { y with lastSeen := c.now })).modAux (fun y => { y with tieCnt := cntInc y.tieCnt })
  else
    let fs := (d.fab.flows.filter (fun p => p.2.peerNode == n)).map Prod.fst
    let d1 := raise c (d.modNode n (fun y => { y with lost := true })) Fs.fabPeerLost (fabInfo n 0 0)
    clampPeerLost c n (fs.foldl (fun y f => failFlow c f y) d1)

def execPeerLossExpiry (node : Fin 65536) (tie : Bool) (s : State) : Host.Outcome State Fault Refusal := onWork (devPeerLoss node.val tie) s

end Sys2Proof.Machine
end

