-- ==== Sys2Proof/Machine/FabricRx.lean ====
section
/-! DEFINITION. The receiving side of the fabric engine (08): checks on receipt, sequence numbers, fences, what each opcode does at
its target, responses at their requester. -/

namespace Sys2Proof.Machine

open Sys2Proof

/-- What becomes of a sequenced frame that is performed. -/
inductive Perf where
  | done
  /-- it cannot be performed yet (R313) -/
  | rnr
  /-- refused with a wire status (R323) -/
  | bad (status : Nat)
  deriving DecidableEq, Repr

/-- Requester port of the fabric engine (R368). -/
def fabPort : Nat := 13

/-- The 64-bit step nearest the present one with given low bits (R328). -/
def nearestStep (d : Dev) (low : Nat) : Nat :=
  let cur := d.life.step.toNat
  let up := (low + 2 ^ 32 - cur % 2 ^ 32) % 2 ^ 32
  if up < 2 ^ 31 ∨ cur + up < 2 ^ 32 then cur + up else cur + up - 2 ^ 32

/-! ## Checks of R323 -/

/-- Ranges a fabric peer may target (R68). -/
def fabRange (d : Dev) (a : Nat) : Bool :=
  match rangeOf a with
  | .near => !d.far.unified
  | .farPlaced _ => !d.far.unified
  | .unified => d.far.unified
  | _ => false

/-- Checks 2 to 4 on a span: range and tables, region of the first byte, whole span. Type 1 read, 2 write, 3 atomic. -/
def spanCheck (c : Ctl) (d : Dev) (ok : Region → Bool) (ty a n : Nat) : Option Nat :=
  if !(fabRange d a && fabRange d (a + n - 1) && ptPermits c .fabric ty a n) then some 1
  else if !d.inRegion ok a 1 then some 1
  else if !d.inRegion ok a n then some 2
  else none

/-- A TAG frame covers exactly one aligned near-tier block (R324). -/
def tagBlock (d : Dev) (a n : Nat) : Bool := a % 4096 == 0 && n == 4096 && d.isNear a 4096

/-- A TAG read may also name a block of the unified range, which repair reads do whatever tier it lies in (DEDUCED from R221, R324; log 51). -/
def tagRead (d : Dev) (a n : Nat) : Bool := tagBlock d a n || (a % 4096 == 0 && n == 4096 && d.far.unified && rangeOf a == .unified)

/-- Check 1: ATTR, AUX and flags are legal for OPC. -/
def attrOk (d : Dev) (f : Frame) : Bool :=
  let at_ := f.attr.toNat
  let a := f.addr.toNat
  let n := f.payload.length
  let plain := !f.ordered && !f.tag
  match f.opc with
  | 0x01 => !f.ordered && at_ == 0 && (if f.tag then tagBlock d a n else f.aux == 0)
  | 0x02 => !f.ordered && f.aux == 0 && n == 0 && (!f.tag || tagRead d a at_)
  | 0x04 => plain && f.aux == 0 && (at_ == 16 || decide (at_ < 3)) && n % atomSrc at_ == 0
  | 0x05 => plain && f.aux == 0 && at_ == 0 && n == 8
  | 0x06 => plain && f.aux == 0 && at_ == 0 && n == 16
  | 0x08 => plain && at_ == 0
  | 0x09 => !f.tag && decide (bits at_ 0 16 < 3) && n % atomSrc (bits at_ 0 4) == 0 &&
      (!f.ordered || (n == 1024 * atomSrc (bits at_ 0 4) && bits a 0 28 % 1024 == 0))
  | 0x0A => plain && bits at_ 18 14 == 0 && n == 4096
  | 0x0B => plain && f.aux == 0
  | 0x0C => plain && at_ == 0
  | 0x20 => plain
  | 0x21 => plain && n == 1088
  | 0x22 => plain && bits at_ 16 16 == 0 && n == 1088
  | 0x26 => plain
  | 0x28 => plain
  | 0x03 => !f.ordered
  | 0x07 => plain
  | 0x11 => plain
  | _ => plain && bits at_ 16 16 == 0

/-! ## Memory operations (R324 to R326, R330) -/

/-- Poison every line of a span. -/
def poisonSpan (a n : Nat) (d : Dev) : Dev := (Memory.linesOf a n).foldl (fun x l => x.pokePoison l) d

/-- The part of bytes at an address that lies in one 64-byte line. -/
def linePart (a : Nat) (bs : List Byte) (l : Nat) : Nat × List Byte :=
  let lo := max a (l * 64)
  (lo, (bs.drop (lo - a)).take (l * 64 + 64 - lo))

/-- Write one mapped piece at a target: the far-tier view refuses it (R193). -/
def targetPiece (c : Ctl) (poison : Bool) (d : Dev) (a : Nat) (bs : List Byte) : Dev :=
  match rangeOf a with
  | .farPlaced n => raise c d (Fs.farWriteRefused n) a
  | _ => if poison then poisonSpan a bs.length (d.poke a bs) else d.poke a bs

/-- Write bytes at a target. A span with unmapped lines loses those lines alone, and its requester ends with POISONED (R57, R323). -/
def targetWrite (c : Ctl) (a : Nat) (bs : List Byte) (poison : Bool) (d : Dev) : Perf × Dev :=
  if d.spanMapped .fabric a bs.length then (.done, targetPiece c poison d a bs)
  else
    let parts := (Memory.linesOf a bs.length).map (linePart a bs)
    (.bad 3, (parts.filter (fun p => d.spanMapped .fabric p.1 p.2.length)).foldl (fun x p => targetPiece c poison x p.1 p.2)
      (raise c d Fs.addrDecode (dropInfo a fabPort true)))

def doWrite (c : Ctl) (f : Frame) (d : Dev) : Perf × Dev :=
  let a := f.addr.toNat
  let n := f.payload.length
  if n = 0 then (.done, d)
  else match spanCheck c d (fun r => r.fabWr) 2 a n with
    | some st => (.bad st, d)
    | none =>
      if f.tag && !f.poison && decide (crc32c f.payload ≠ f.aux.toNat) then (.bad 4, dowelFault c 3 0 a d)
      else if f.tag && d.spanMapped .fabric a n then (.done, if f.poison then poisonSpan a n d else (d.poke a f.payload).setTag a f.aux.toNat)
      else targetWrite c a f.payload f.poison d

/-- One READ_RESP: data, or poison where the span is unmapped by now. -/
def readPiece (c : Ctl) (tag : Bool) (r : List Frame × Dev) (p : Nat × Nat) : List Frame × Dev :=
  let d := r.2
  if !d.spanMapped .fabric p.1 p.2 then
    (r.1 ++ [{ opc := Opc.readResp, addr := BitVec.ofNat 64 p.1, payload := Dev.undefBytes d.free p.2, poison := true, tag := tag }],
     raise c { d with free := d.free + 1 } Fs.addrDecode (dropInfo p.1 fabPort false))
  else
    let q := readSpan c d p.1 p.2
    (r.1 ++ [{ opc := Opc.readResp, addr := BitVec.ofNat 64 p.1, payload := q.1, poison := q.2.1 || (tag && tagPoisoned d p.1), tag := tag,
               aux := if tag then BitVec.ofNat 32 (q.2.2.tagOf p.1) else 0 }], if tag then readTag c q.2.2 p.1 else q.2.2)

/-- Answer a read with READ_RESP frames. -/
def answerRead (c : Ctl) (f : Nat) (id : BitVec 16) (a n : Nat) (tag : Bool) (d : Dev) : Dev :=
  let r := (cut4k a n).foldl (readPiece c tag) ([], d)
  respond c f id r.1 r.2

def doRead (c : Ctl) (fl : Nat) (f : Frame) (d : Dev) : Perf × Dev :=
  let a := f.addr.toNat
  let n := f.attr.toNat
  if n = 0 then (.done, d)
  else match spanCheck c d (fun r => r.fabRd) 1 a n with
    | some st => (.bad st, d)
    | none => (.done, answerRead c fl f.msgId a n f.tag d)

/-- An atomic at its target: the old bytes, whether they were poisoned, and what it leaves. It is performed at the home of its
line, which it allocates in the bay cache (R178). -/
def doAtomic (c : Ctl) (fl : Nat) (f : Frame) (op : AtomOp) (align : Nat) (answer : Bool) (d : Dev) : Perf × Dev :=
  let a := f.addr.toNat
  let n := atomLen op f.payload
  if n = 0 then (.done, d)
  else match spanCheck c d (fun r => r.fabAtom) 3 a n with
    | some st => (.bad st, d)
    | none =>
      if a % align ≠ 0 then (.bad 5, d)
      else
        let q := readSpanBy true c d a n
        let bad := q.2.1 || f.poison
        let w := targetWrite c a (atomApply op q.1 f.payload) bad q.2.2
        if w.1 ≠ .done ∨ !answer then w
        else (.done, respond c fl f.msgId [{ opc := Opc.atomicResp, addr := f.addr, attr := f.attr, aux := f.aux, payload := q.1, poison := bad }] w.2)

/-! ## Signals, contributions, mirror frames (R327 to R329) -/

/-- A SIGNAL by its epoch (R238). -/
def doSignal (f : Frame) (d : Dev) : Perf × Dev :=
  let j := bits f.addr.toNat 12 3
  let ctr := bits f.addr.toNat 0 12
  let delta := (f.epoch - d.life.epoch).toNat
  if 4 < j ∨ bits f.addr.toNat 15 49 ≠ 0 ∨ (j < 4 ∧ 1024 ≤ ctr) then (.bad 1, d)
  else if delta = 0 then (.done, d.signal j ctr f.aux.toNat)
  else if 32768 ≤ delta then (.done, d.modJig j (fun g => { g with staleSigCnt := cntInc g.staleSigCnt }))
  else if 64 ≤ (d.jig j).early.length then (.rnr, d)
  else (.done, d.modJig j (fun g => { g with early := g.early ++ [{ ctr := ctr, add := f.aux.toNat, epoch := f.epoch }], earlySigCnt := cntInc g.earlySigCnt }))

/-- What a contribution or a half-chunk makes of its frame (R313, R323). -/
def perfOf (r : Contributed × Dev) : Perf × Dev := (match r.1 with | .applied => .done | .late => .done | .held => .rnr | .denied => .bad 1, r.2)

def doPanelAdd (c : Ctl) (fl : Nat) (f : Frame) (d : Dev) : Perf × Dev :=
  let off := bits f.addr.toNat 0 28
  let fmt := bits f.attr.toNat 0 4
  match ownerPanel d (bits f.addr.toNat 28 20) with
  | none => (.bad 1, d)
  | some p =>
    if f.ordered ≠ d.opt.ordered then (.bad 1, d)
    else if p.nparam < off + f.payload.length / atomSrc fmt then (.bad 2, d)
    else if f.payload.isEmpty then (.done, d)
    else
      perfOf (contribute c p (nearestStep d f.aux.toNat) off fmt (bits f.attr.toNat 16 16) fl f.payload f.ordered f.poison d f.psn.toNat)

def orDenied (d : Dev) (r : Option Dev) : Perf × Dev :=
  match r with
  | some x => (.done, x)
  | none => (.bad 1, d)

/-! ## Responses at their requester (R314, R317, R330) -/

/-- The address that a message's answers count from: of a pull from another member's scratch, whose place the member knows, that of its first
answer (R361; log 64). -/
def respBase (m : OpenMsg) (f : Frame) : Nat := if bitAt m.addr 63 then f.addr.toNat else m.addr

/-- READ_RESP: the data goes to whoever asked. -/
def takeResp (c : Ctl) (fl : Nat) (f : Frame) (d : Dev) : Dev :=
  match (d.flow fl).msgs.find? (fun m => m.msgId == f.msgId && m.respDue != 0) with
  | none => d
  | some m =>
    let n := f.payload.length
    let base := respBase m f
    let off := f.addr.toNat - base
    let d1 := d.modFlow fl (fun x => { x with msgs := x.msgs.map (fun y => if y = m then { m with respDue := m.respDue - n, addr := base } else y) })
    let d2 := match m.issuer with
      | .window port => d1.emit (.bytes port (m.dest % 2 ^ 48 + off) f.payload f.poison)
      | .bench b => d1.modBench b (fun y => { y with dma := { y.dma with slots := modAt (fun t =>
          if f.poison then { t with res := if t.res = 0 then 4 else t.res } else { t with buf := cellsPut t.buf (m.dest + off) f.payload }) y.dma.slots 0 } })
      | .fill b => fetchedInto b f.payload f.aux.toNat (if f.poison then 16 else 0) d1
      | .repair page target seg block => fetchTakes page target seg block off f.payload f.aux.toNat f.poison d1
      | .copy => copyTakes off f.payload f.poison d1
      | .coll seq => pullBlock c seq (m.dest + off) f.payload f.aux.toNat f.poison d1
      | _ => d1
    drainFlow fl (reapMsgs c fl d2)

/-- ATOMIC_RESP: the old value goes to the core that asked. -/
def takeAtomResp (c : Ctl) (fl : Nat) (f : Frame) (d : Dev) : Dev :=
  match (d.flow fl).msgs.find? (fun m => m.msgId == f.msgId && m.respDue != 0) with
  | none => d
  | some m =>
    let d1 := d.modFlow fl (fun x => { x with msgs := x.msgs.map (fun y => if y = m then { m with respDue := 0 } else y) })
    let d2 := match m.issuer with
      | .window port => if f.poison then d1.emit (.bytes port (m.dest % 2 ^ 48) f.payload true) else d1.emit (.value port (m.dest % 2 ^ 48) (leNat f.payload))
      | _ => d1
    drainFlow fl (reapMsgs c fl d2)

/-! ## DOVE_PULL (R348, R361) -/

/-- The source of a pull: bit 63 of ADDR marks an offset in the scratch of the dovetail that runs here (log entry 64). -/
def pullSource (d : Dev) (a : Nat) : Nat :=
  if bitAt a 63 then
    (match d.coll.ops.find? (fun o => o.started && (collDescOf o.words).op == 8) with
    | some o => (doveAt d (collDescOf o.words).aux).scratch + a % 2 ^ 48
    | none => a % 2 ^ 48)
  else a % 2 ^ 48

/-- A read by a peer: the range must be one of R68, open to the FABRIC table and registered, else DENIED (R323, R436). -/
def doPull (c : Ctl) (fl : Nat) (f : Frame) (d : Dev) : Perf × Dev :=
  let a := pullSource d f.addr.toNat
  let n := f.attr.toNat * 4096
  if n = 0 then (.done, d)
  else match spanCheck c d (fun r => r.fabRd) 1 a n with
    | some _ => (.bad 1, d)
    | none => (.done, answerRead c fl f.msgId a n true d)

/-! ## Performing a frame -/

def performFrame (c : Ctl) (fl : Nat) (f : Frame) (d : Dev) : Perf × Dev :=
  let group := bits f.attr.toNat 0 16
  let hi := bits f.attr.toNat 16 16
  let ok := fun (x : Dev) => (Perf.done, x)
  if !attrOk d f then (.bad 5, d) else
  match f.opc with
  | 0x01 => doWrite c f d
  | 0x02 => doRead c fl f d
  | 0x03 => ok (takeResp c fl f d)
  | 0x04 => doAtomic c fl f (.add f.attr.toNat) (atomDst f.attr.toNat) false d
  | 0x05 => doAtomic c fl f .fetchAdd 8 true d
  | 0x06 => doAtomic c fl f .cmpSwap 8 true d
  | 0x07 => ok (takeAtomResp c fl f d)
  | 0x08 => doSignal f d
  | 0x09 => doPanelAdd c fl f d
  | 0x0A => perfOf (mirrorArrive c f.addr.toNat (nearestStep d f.aux.toNat) (bits f.attr.toNat 0 17) (bits f.attr.toNat 17 1) f.srcNode fl f.payload f.poison d)
  | 0x0B => if 8 ≤ f.addr.toNat then (.bad 1, d) else ok (creditArrive c f.addr.toNat f.attr.toNat f.srcNode d)
  | 0x0C => orDenied d (twinDoneArrive c f.addr.toNat f.aux.toNat d)
  | 0x11 => ok (statusArrive c fl f.msgId (bits f.attr.toNat 0 4) d)
  | 0x20 => ok (collDataArrive c group hi f.aux.toNat f.addr.toNat f.payload f.poison d)
  | 0x21 => ok (partArrive c group hi (recOfBytes f.payload) d)
  | 0x22 => ok (resultArrive c group f.srcNode (recOfBytes f.payload) d)
  | 0x23 => ok (ackArrive c f.srcNode f.aux.toNat d)
  | 0x24 => ok (queryArrive c group f.srcNode f.aux.toNat d)
  | 0x25 => ok (noneArrive c f.srcNode d)
  | 0x26 => ok (barrierUpArrive c group hi f.aux.toNat (bitAt (leNat f.payload) 0) d)
  | 0x27 => ok (barrierDownArrive c group f.aux.toNat (bitAt (leNat f.payload) 0) d)
  | 0x28 => doPull c fl f d
  | _ => (.bad 5, d)

/-! ## Sequence numbers and fences (R310, R313, R315) -/

/-- RX_CUM passes every PSN received. -/
def passCum : Nat → Flow → Flow
  | 0, x => x
  | n + 1, x => if x.received.contains x.rxCum.toNat then passCum n { x with rxCum := x.rxCum + 1, received := x.received.filter (fun p => p != x.rxCum.toNat) } else x

def markReceived (psn : W32) (x : Flow) : Flow := passCum 1025 { x with received := psn.toNat :: x.received }

/-- SIGNAL and TWIN_DONE behave as though FENCE were set. -/
def fenced (f : Frame) : Bool := f.fence || f.opc == Opc.signal || f.opc == Opc.twinDone

/-- The rotating pointer over context indices of the home that a frame is performed at, after the choice of its flow (R315). One command brings one
frame, so no other flow's frame is ready in its cycle. -/
def ptrAfter (fl : Nat) (f : Frame) (t : Tab Nat) : Tab Nat :=
  if (f.opc = 0x01 ∨ f.opc = 0x02 ∨ (4 ≤ f.opc ∧ f.opc ≤ 6)) ∧ f.addr.toNat < 0x8000000000 then tabSet 0 t (homeOf f.addr.toNat) ((fl + 1) % 65536) else t

/-- An accepted frame is performed; RNR leaves it unreceived, a failed check is answered with STATUS. -/
def acceptFrame (c : Ctl) (fl : Nat) (f : Frame) (d : Dev) : Dev :=
  let p := performFrame c fl f d
  match p.1 with
  | .rnr => (sendUnseq c fl { opc := Opc.rnr, addr := BitVec.ofNat 64 f.psn.toNat } p.2).modAux (fun x => { x with rnrCnt := cntInc x.rnrCnt })
  | _ =>
    let d1 := match p.1 with | .bad st => sendStatus c fl f.msgId st p.2 | _ => p.2
    let d2 := (d1.modFlow fl (markReceived f.psn)).modAux (fun x => { x with rxFrameCnt := cntInc x.rxFrameCnt, homePtr := ptrAfter fl f x.homePtr })
    noteAck c fl f (f.ce || decide (((d2.flow fl).rxCum - f.psn).toNat = 0) || decide (2 ^ 31 ≤ ((d2.flow fl).rxCum - f.psn).toNat)) d2

/-- Frames held by a fence are performed once every lower PSN has been. -/
def releaseFenced (c : Ctl) (fl : Nat) : Nat → Dev → Dev
  | 0, d => d
  | n + 1, d =>
    match (d.flow fl).fenced.find? (fun f => f.psn == (d.flow fl).rxCum) with
    | some f => releaseFenced c fl n (acceptFrame c fl f (d.modFlow fl (fun x => { x with fenced := x.fenced.erase f })))
    | none => d

/-- A sequenced frame for a live context. One held by a fence is accepted with a gap below it, so an ACK goes out at once, and again for each
duplicate of it (R310, R311; log 62). -/
def recvSeq (c : Ctl) (fl : Nat) (f : Frame) (d0 : Dev) : Dev :=
  let d := (d0.modFlow fl (fun x => { x with rxCnt := x.rxCnt + 1, ceCnt := x.ceCnt + b2n f.ce })).modAux (fun x => { x with ceCnt := cntIf f.ce x.ceCnt })
  let delta := (f.psn - (d.flow fl).rxCum).toNat
  let held := (d.flow fl).fenced.any (fun x => x.psn == f.psn)
  if 2 ^ 31 ≤ delta ∨ (d.flow fl).received.contains f.psn.toNat then
    noteAck c fl f f.ce (d.modAux (fun x => { x with dupCnt := cntInc x.dupCnt }))
  else if 1024 ≤ delta then d.modAux (fun x => { x with windowDropCnt := cntInc x.windowDropCnt })
  else if held then sendAck c fl (d.modAux (fun x => { x with dupCnt := cntInc x.dupCnt }))
  else if fenced f ∧ delta ≠ 0 then sendAck c fl (d.modFlow fl (fun x => { x with fenced := x.fenced ++ [f] }))
  else releaseFenced c fl ((d.flow fl).fenced.length + 1) (acceptFrame c fl f d)

/-! ## Checks on receipt (R306) -/

def knownOpc (o : Nat) : Bool := (1 ≤ o && o ≤ 0x0C) || (0x10 ≤ o && o ≤ 0x14) || (0x20 ≤ o && o ≤ 0x28)

/-- Is a node live: of the node table, not lost, or the part itself? -/
def nodeLive (d : Dev) (n : Nat) : Bool := n == d.fab.node.toNat || ((d.node n).live && !(d.node n).lost)

/-- Check 5: the context, its state, generation and peer. -/
def contextOk (d : Dev) (f : Frame) : Bool :=
  let fl := d.flow f.dstFlow
  (fl.state == .opn || fl.state == .draining) && fl.gen == f.gen && fl.peerNode == f.srcNode

/-- A frame is dropped at check 1 or 2, or finds no room (R293, R295, R297, R306). -/
def dropRx (d : Dev) : Dev := d.modAux (fun x => { x with rxDropCnt := cntInc x.rxDropCnt })

/-- An unsequenced frame. -/
def recvUnseq (c : Ctl) (f : Frame) (d0 : Dev) : Dev :=
  let d := d0.modAux (fun x => { x with rxFrameCnt := cntInc x.rxFrameCnt })
  match f.opc with
  | 0x10 => ackArrive2 c f.dstFlow f d
  | 0x12 => rnrArrive f.dstFlow (BitVec.ofNat 32 f.addr.toNat) d
  | _ => d

/-- A frame received on a port, which drops it while the part has no address on it: checked in order, then handled by its opcode. -/
def receive (port opc : Nat) (f0 : Frame) (c : Ctl) (d : Dev) : Dev :=
  let f := { f0 with opc := opc }
  if !(d.eth port).up && !(d.fab.joined && f.srcNode == d.fab.node.toNat) then d
  else match bufferFrame port f.prio f.queued d with
  | none => dropRx d
  | some d =>
  if !d.fab.joined || !f.sound || f.ver != 1 || f.resv != 0 || !knownOpc opc || f.len != f.payload.length || decide (4096 < f.len) then dropRx d
  else if f.icrc ≠ frameIcrc f then d.modAux (fun x => { x with icrcErrCnt := cntInc x.icrcErrCnt })
  else if !nodeLive d f.srcNode then d.modAux (fun x => { x with staleDropCnt := cntInc x.staleDropCnt })
  else
    let d1 := if (d.node f.srcNode).live then d.modNode f.srcNode (fun x => { x with lastSeen := c.now }) else d
    if opc = Opc.heartbeat then recvUnseq c f d1
    else if opc = Opc.flowOpen then openArrive c f d1
    else if !contextOk d1 f then d1.modAux (fun x => { x with staleDropCnt := cntInc x.staleDropCnt })
    else if opc = Opc.ack ∨ opc = Opc.rnr then recvUnseq c f d1
    else recvSeq c f.dstFlow f d1

/-! ## Rows -/

def execWrite (port : Fin 64) (frame : Frame) (s : State) : Host.Outcome State Fault Refusal := onWork (receive port.val Opc.write frame) s
def execReadReq (port : Fin 64) (frame : Frame) (s : State) : Host.Outcome State Fault Refusal := onWork (receive port.val Opc.readReq frame) s
def execReadResp (port : Fin 64) (frame : Frame) (s : State) : Host.Outcome State Fault Refusal := onWork (receive port.val Opc.readResp frame) s
def execAtomicAdd (port : Fin 64) (frame : Frame) (s : State) : Host.Outcome State Fault Refusal := onWork (receive port.val Opc.atomicAdd frame) s
def execFetchAdd (port : Fin 64) (frame : Frame) (s : State) : Host.Outcome State Fault Refusal := onWork (receive port.val Opc.fetchAdd frame) s
def execCmpSwap (port : Fin 64) (frame : Frame) (s : State) : Host.Outcome State Fault Refusal := onWork (receive port.val Opc.cmpSwap frame) s
def execAtomicResp (port : Fin 64) (frame : Frame) (s : State) : Host.Outcome State Fault Refusal := onWork (receive port.val Opc.atomicResp frame) s
def execSignal (port : Fin 64) (frame : Frame) (s : State) : Host.Outcome State Fault Refusal := onWork (receive port.val Opc.signal frame) s
def execPanelAdd (port : Fin 64) (frame : Frame) (s : State) : Host.Outcome State Fault Refusal := onWork (receive port.val Opc.panelAdd frame) s
def execMirror (port : Fin 64) (frame : Frame) (s : State) : Host.Outcome State Fault Refusal := onWork (receive port.val Opc.mirror frame) s
def execMirrorCredit (port : Fin 64) (frame : Frame) (s : State) : Host.Outcome State Fault Refusal := onWork (receive port.val Opc.mirrorCredit frame) s
def execTwinDone (port : Fin 64) (frame : Frame) (s : State) : Host.Outcome State Fault Refusal := onWork (receive port.val Opc.twinDone frame) s
def execAck (port : Fin 64) (frame : Frame) (s : State) : Host.Outcome State Fault Refusal := onWork (receive port.val Opc.ack frame) s
def execStatus (port : Fin 64) (frame : Frame) (s : State) : Host.Outcome State Fault Refusal := onWork (receive port.val Opc.status frame) s
def execRnr (port : Fin 64) (frame : Frame) (s : State) : Host.Outcome State Fault Refusal := onWork (receive port.val Opc.rnr frame) s
def execHeartbeat (port : Fin 64) (frame : Frame) (s : State) : Host.Outcome State Fault Refusal := onWork (receive port.val Opc.heartbeat frame) s
def execFlowOpen (port : Fin 64) (frame : Frame) (s : State) : Host.Outcome State Fault Refusal := onWork (receive port.val Opc.flowOpen frame) s
def execCollData (port : Fin 64) (frame : Frame) (s : State) : Host.Outcome State Fault Refusal := onWork (receive port.val Opc.collData frame) s
def execBarrierUp (port : Fin 64) (frame : Frame) (s : State) : Host.Outcome State Fault Refusal := onWork (receive port.val Opc.barrierUp frame) s
def execBarrierDown (port : Fin 64) (frame : Frame) (s : State) : Host.Outcome State Fault Refusal := onWork (receive port.val Opc.barrierDown frame) s
def execDovePull (port : Fin 64) (frame : Frame) (s : State) : Host.Outcome State Fault Refusal := onWork (receive port.val Opc.dovePull frame) s
def execClampPart (port : Fin 64) (frame : Frame) (s : State) : Host.Outcome State Fault Refusal := onWork (receive port.val Opc.clampPart frame) s
def execClampResult (port : Fin 64) (frame : Frame) (s : State) : Host.Outcome State Fault Refusal := onWork (receive port.val Opc.clampResult frame) s
def execClampAck (port : Fin 64) (frame : Frame) (s : State) : Host.Outcome State Fault Refusal := onWork (receive port.val Opc.clampAck frame) s
def execClampQuery (port : Fin 64) (frame : Frame) (s : State) : Host.Outcome State Fault Refusal := onWork (receive port.val Opc.clampQuery frame) s
def execClampNone (port : Fin 64) (frame : Frame) (s : State) : Host.Outcome State Fault Refusal := onWork (receive port.val Opc.clampNone frame) s

end Sys2Proof.Machine
end

