-- ==== Sys2Proof/Machine/Links.lean ====
section
/-! DEFINITION. Ethernet ports (R292 to R297), raw rings (R425) and window accesses (R61, R320 to R322). -/

namespace Sys2Proof.Machine

open Sys2Proof

/-! ## Ports and lanes (R294, R430, R506) -/

/-- Configured lanes of a port. -/
def cfgWidthOf (d : Dev) : Nat := max 1 d.fab.cfgWidth.toNat

/-- The half of a port's lanes that holds no failed lane. -/
def goodHalf (d : Dev) (q : EthPort) : List Nat :=
  let l := setBitsOf q.lanes.toNat 64
  let ok := fun (h : List Nat) => !h.isEmpty && h.all (fun x => !bitAt d.fab.laneFail.toNat x)
  if l.length < 2 then []
  else if ok (l.take (l.length / 2)) then l.take (l.length / 2)
  else if ok (l.drop (l.length / 2)) then l.drop (l.length / 2)
  else []

/-- A lane fails: its port goes down, to retrain on the good half of its lanes or to stay down (R294). -/
def failLane (lane : Nat) (c : Ctl) (d : Dev) : Dev :=
  let p := lane / cfgWidthOf d
  let q := d.eth p
  if bitAt d.fab.laneFail.toNat lane then d else
  let d1 := d.modFab (fun g => { g with laneFail := BitVec.ofNat 64 (setBit g.laneFail.toNat lane true) })
  if !bitAt q.lanes.toNat lane || q.dead then raise c d1 (Fs.ethLaneFail lane) (portInfo p q.width)
  else
    let half := goodHalf d1 q
    let d2 := capRates (d1.modEth p (fun x => { x with up := false, buf := [], xoff := 0, txHeld := [], lanes := BitVec.ofNat 64 (maskOf half), retraining := !half.isEmpty && x.width != 0, dead := half.isEmpty, width := if half.isEmpty then 0 else x.width }))
    raiseAll c d2 ([(Fs.ethLaneFail lane, 0, portInfo p half.length)] ++ (if half.isEmpty then [(Fs.ethPortDown, 0, portInfo p 0)] else []))

def execEthLaneFail (lane : Fin 64) (s : State) : Host.Outcome State Fault Refusal := onWork (failLane lane.val) s

/-- A retraining ends: the port is up at its lanes, narrower if it has lost some, or stays down. -/
def devPortRetrained (p : Nat) (ok : Bool) (c : Ctl) (d : Dev) : Dev :=
  let q := d.eth p
  if !q.retraining || q.dead then d
  else if !ok then
    raise c (capRates (d.modEth p (fun x => { x with retraining := false, dead := true, up := false, width := 0 }))) Fs.ethPortDown (portInfo p 0)
  else
    let w := popcount q.lanes.toNat 64
    let d1 := capRates (d.modEth p (fun x => { x with retraining := false, up := true, width := w }))
    if w < q.width then raise c d1 Fs.ethPortNarrowed (portInfo p w) else d1

def execEthPortRetrainDone (port : Fin 64) (ok : Bool) (s : State) : Host.Outcome State Fault Refusal := onWork (devPortRetrained port.val ok) s

/-- A port comes up when its link partner trains. -/
def devLinkUp (p : Nat) (c : Ctl) (d : Dev) : Dev :=
  let q := d.eth p
  if c.boot.ready && !q.up && !q.dead && !q.retraining && q.lanes != 0 && c.clk.ethRefclkOk then
    d.modEth p (fun x => { x with up := true, width := popcount q.lanes.toNat 64 })
  else d

def execEthPortLinkUp (port : Fin 64) (s : State) : Host.Outcome State Fault Refusal := onWork (devLinkUp port.val) s

/-- A received PFC frame pauses or resumes a priority (R295). -/
def execPfcFrameReceive (port : Fin 64) (prio : Fin 8) (pause : Bool) (s : State) : Host.Outcome State Fault Refusal :=
  onWork (fun _ d => if (d.eth port.val).up then pfcReceive port.val prio.val pause d else d) s

/-! ## Raw rings (R297, R425) -/

/-- A big-endian 16-bit field of a raw frame. -/
def rawWord (bs : List Byte) (i : Nat) : Nat := beNat ((bs.drop i).take 2)

/-- EtherTypes of an 802.1Q tag. -/
def isTag (ty : Nat) : Bool := ty == 0x8100 || ty == 0x88A8

/-- Offset of the EtherType behind at most one tag. -/
def rawType (bs : List Byte) : Nat := if isTag (rawWord bs 12) then 16 else 12

/-- Priority of a raw frame: the PCP of its tag. -/
def rawPrio (bs : List Byte) : Nat := if isTag (rawWord bs 12) then rawWord bs 14 / 2 ^ 13 else 0

/-- Next-header values of IPv6 extension headers. PRESUMED (log 143). -/
def extHeaders : List Nat := [0, 43, 44, 50, 51, 60, 135, 139, 140]

/-- Does the UDP checksum of a raw frame hold: checked for IPv6, and for IPv4 when it is not 0 (R293)? -/
def udpSumOk (v6 : Bool) (ip : List Byte) : Bool :=
  let n := if v6 then 40 else 20
  let u := ip.drop n
  let len := rawWord u 4
  let addrs := if v6 then (ip.drop 8).take 32 else (ip.drop 12).take 8
  (!v6 && rawWord u 6 == 0) || inetSum (addrs ++ beNum 2 17 ++ beNum 2 len ++ u.take len) == 0

/-- Does a raw frame use only what the MACs support (R293): size, at most one tag, no Global PAUSE, no IPv4 options or fragments, no IPv6 extension
headers, no transport of IP but UDP, with a good checksum? -/
def rawSupported (bs : List Byte) : Bool :=
  let t := rawType bs
  let ty := rawWord bs t
  let ip := bs.drop (t + 2)
  let b := fun (i : Nat) => (ip.getD i 0).toNat
  decide (60 ≤ bs.length) && decide (bs.length ≤ 9212) && !isTag ty && !(ty == 0x8808 && rawWord ip 0 == 1) &&
    (if ty = 0x0800 then b 0 % 16 == 5 && rawWord ip 6 % 2 ^ 14 == 0 && b 9 == 17 && udpSumOk false ip
     else if ty = 0x86DD then !extHeaders.contains (b 6) && b 6 == 17 && udpSumOk true ip
     else true)

/-- A frame that is not Rhavemo's goes to the raw receive ring; with no ring or a full one, or a feature that the MACs refuse, it is dropped. -/
def devRawReceive (p : Nat) (data : List Byte) (queued : Nat) (_ : Ctl) (d : Dev) : Dev :=
  let ring := d.aux.rawRx
  if !(d.eth p).up then d
  else match bufferFrame p (rawPrio data) queued d with
  | none => dropRx d
  | some d =>
  if !d.fab.joined || ring == 0 || !rawSupported data then dropRx d
  else
    let slots := d.peek32 ring
    let head := d.peek32 (ring + 8)
    let tail := d.peek32 (ring + 16)
    if slots = 0 ∨ (head + 1) % slots = tail then dropRx d
    else
      let a := ring + 64 + head * 10240
      (d.poke a (natLE 2 data.length ++ [BitVec.ofNat 8 p] ++ List.replicate 5 0 ++ data)).poke32 (ring + 8) ((head + 1) % slots)

def execRawFrameReceive (port : Fin 64) (data : List Byte) (s : State) (queued : Nat := 0) : Host.Outcome State Fault Refusal := onWork (devRawReceive port.val data queued) s

/-- Is a raw frame UDP to the port of Rhavemo? -/
def isRhavemo (udp : Nat) (bs : List Byte) : Bool :=
  let at2 := fun (i : Nat) => beNat ((bs.drop i).take 2)
  let ip := if at2 12 = 0x8100 then 18 else 14
  let ty := at2 (ip - 2)
  let b := fun (i : Nat) => (bs.getD i 0).toNat
  if ty = 0x86DD then b (ip + 6) == 17 && at2 (ip + 42) == udp
  else if ty = 0x0800 then b (ip + 9) == 17 && at2 (ip + b ip % 16 * 4 + 2) == udp
  else false

/-- Send slot `tail` of the transmit ring, and the next ones up to HEAD. -/
def sendRaw (ring slots head : Nat) : Nat → Nat → Dev → Dev
  | 0, _, d => d
  | n + 1, tail, d =>
    if tail = head then d
    else
      let a := ring + 64 + tail * 10240
      let len := leNat (d.peekBytes a 2)
      let p := (d.peek (a + 2)).toNat
      let bs := d.peekBytes (a + 8) (min len 9212)
      let d1 := if isRhavemo d.fab.udpPort.toNat bs then dropRx d else if (d.eth p).up && !d.fc.entering then portOut p (rawPrio bs) none (withFcs bs) d else d
      sendRaw ring slots head n ((tail + 1) % slots) (d1.poke32 (ring + 16) ((tail + 1) % slots))

/-- The engine reads HEAD of the transmit ring and sends the new slots. -/
def devRawPoll (_ : Ctl) (d : Dev) : Dev :=
  let ring := d.aux.rawTx
  if !d.fab.joined || ring == 0 then d
  else
    let slots := d.peek32 ring
    if slots = 0 then d else sendRaw ring slots (d.peek32 (ring + 8) % slots) slots (d.peek32 (ring + 16) % slots) d

def execRawTxPoll (s : State) : Host.Outcome State Fault Refusal := onWork devRawPoll s

/-! ## The window (R61, R320 to R322) -/

/-- Access type at the window and the tables: read, write, atomic. -/
def windowType (kind : Nat) : Nat := if kind = 0 then 1 else if kind = 1 then 2 else 3

/-- An access refused at translation (R57, R317). -/
def windowRefused (c : Ctl) (port kind a n : Nat) (d : Dev) : Dev :=
  let d1 := if kind = 1 then d else { d.emit (.bytes port a (Dev.undefBytes d.free n) true) with free := d.free + 1 }
  let e := tabGet (0, 0) d.fab.win (bits a 32 12)
  fabError c 1 (bits e.1.toNat 16 16) (bits e.1.toNat 32 16) (raise c d1 Fs.addrDecode (dropInfo a port (kind != 0)))

/-- A core's access to the window: 0 load, 1 store, 2 fetch and add, 3 compare and swap. Other atomics are refused (R322). -/
def devWindow (port kind a : Nat) (data : List Byte) (len : Nat) (c : Ctl) (d : Dev) : Dev :=
  let n := if kind = 0 then len else if kind = 1 then data.length else 8
  if rangeOf a ≠ .fabric ∨ n = 0 ∨ !arrives d port then d
  else if !(d.mapped (portAsker port) a && ptPermits c (portAsker port) (windowType kind) a n) then
    raise c (if kind = 1 then d else { d.emit (.bytes port a (Dev.undefBytes d.free n) true) with free := d.free + 1 }) Fs.addrDecode (dropInfo a port (kind != 0))
  else match translate d (windowType kind) a n with
    | none => windowRefused c port kind a n d
    | some t =>
      match kind with
      | 0 => startMsg c t.flow (.window port) (readFrames t.addr n false) n t.addr a d
      | 1 => startMsg c t.flow (.window port) (writeFrames t.addr data false) 0 t.addr (a + 2 ^ 61) d
      | k =>
        if (k = 2 ∧ data.length ≠ 8) ∨ (k = 3 ∧ data.length ≠ 16) then windowRefused c port kind a n d
        else startMsg c t.flow (.window port) [{ opc := if k = 2 then Opc.fetchAdd else Opc.cmpSwap, addr := BitVec.ofNat 64 t.addr, payload := data }] 8 t.addr a d

def execFabricWindowAccess (port : Fin 16) (kind : Fin 4) (addr : BitVec 48) (data : List Byte) (len : Nat) (s : State) : Host.Outcome State Fault Refusal :=
  onWork (devWindow port.val kind.val addr.toNat data len) s

end Sys2Proof.Machine
end

