-- ==== Sys2Proof/Machine/Dma.lean ====
section
/-! DEFINITION. The bench DMA (R120 to R126): descriptor checks, loads and stores between a scratchpad or stat store and memory,
host memory, the fabric window or another bench's scratchpad. -/

namespace Sys2Proof.Machine

open Sys2Proof

/-! ## Checks (R124, R125) -/

/-- Check 1: reserved fields and codes. -/
def dmaCodesOk (x : DmaDesc) : Bool :=
  x.resvOk && decide (x.kind < 4) && x.elemW != 3 && decide (x.sigTgt < 5) && (x.fmtSrc == 0 || (fmtMx x.fmtSrc && x.transpose && x.elemW == 0)) &&
    (x.kind == 0 || (!x.transpose && !x.dowelChk)) && (x.kind == 1 || !x.dowelGen) &&
    (decide (x.kind < 2) || (x.w == 0 && x.memPitch == 0 && decide (x.spadOff < 8192))) &&
    (!x.sigEn || decide (x.sigCtr < if x.sigTgt = 4 then 4096 else 1024))

/-- R124: whole blocks of the near tier, contiguous. -/
def dowelOk (d : Dev) (x : DmaDesc) : Bool :=
  let span := x.h * x.memPitch
  d.isNear x.memAddr (if d.far.unified then max 1 span else 1) && x.memAddr % 4096 == 0 && x.memPitch == x.w * 2 ^ x.elemW && span % 4096 == 0

/-- Check 4: the span in the bench, and the span in memory. -/
def dmaSpansOk (d : Dev) (x : DmaDesc) : Bool :=
  (if x.kind < 2 then spanFits (dmaSpadSpan x) else decide (x.spadOff + x.h ≤ 8192)) && d.engineSpan x.memAddr (dmaMemLen x)

/-- The status with which a descriptor ends before it moves any byte, if it does. -/
def dmaCheck (d : Dev) (x : DmaDesc) : Option Nat :=
  if !dmaCodesOk x then some resBadOpcode
  else if (x.dowelChk || x.dowelGen) && !dowelOk d x then some resBadOpcode
  else if x.kind < 2 ∧ x.spadOff % 64 ≠ 0 then some resBadOpcode
  else if x.h = 0 ∨ (x.kind < 2 ∧ x.w = 0) then some resOk
  else if !dmaSpansOk d x then some resLenRange
  else none

/-! ## What moves where (R88, R93, R94, R121) -/

/-- Rows in memory: address, length, and the place of the row among all bytes moved. Scale rows of an MX source follow. -/
def dmaRows (x : DmaDesc) : List (Nat × Nat × Nat) :=
  if 2 ≤ x.kind then [(x.memAddr, 8 * x.h, 0)]
  else
    let rl := dmaRowLen x
    let rows := (List.range x.h).map (fun r => (x.memAddr + r * x.memPitch, rl, r * rl))
    let scales := (List.range x.h).map (fun r => (x.memAddr + x.h * x.memPitch + r * dmaScalePitch x, dmaScaleLen x, x.h * rl + r * dmaScaleLen x))
    if x.fmtSrc = 0 then rows else rows ++ scales

/-- The rows cut at 4 KiB, the unit of the address map and of the protection tables. -/
def dmaPieces (x : DmaDesc) : List (Nat × Nat × Nat) :=
  (dmaRows x).flatMap (fun r => (cut4k r.1 r.2.1).map (fun p => (p.1, p.2, r.2.2 + (p.1 - r.1))))

/-- Bytes of an element as a LOAD writes them: as read, or an MX element widened to BF16 (R93, R94). -/
def dmaElem (x : DmaDesc) (src : Nat → Byte) (r c : Nat) : List Byte :=
  let rl := dmaRowLen x
  if x.fmtSrc = 0 then (List.range (2 ^ x.elemW)).map (fun k => src (r * rl + c * 2 ^ x.elemW + k))
  else
    let e := if x.fmtSrc = 7 then (src (r * rl + c / 2)).toNat / (if c % 2 = 0 then 1 else 16) % 16 else (src (r * rl + c)).toNat
    natLE 2 (encodeFl bf16 none (mxValue x.fmtSrc e (src (x.h * rl + r * dmaScaleLen x + c / 32)).toNat))

/-- Rows in the scratchpad of a LOAD: offset and bytes. -/
def dmaSpadRows (x : DmaDesc) (src : Nat → Byte) : List (Nat × List Byte) :=
  if x.transpose then
    let p := roundUp (x.h * (if x.fmtSrc = 0 then 2 ^ x.elemW else 2)) 64
    (List.range x.w).map (fun c => (x.spadOff + c * p, (List.range x.h).flatMap (fun r => dmaElem x src r c)))
  else
    let p := roundUp (dmaRowLen x) 64
    (List.range x.h).map (fun r => (x.spadOff + r * p, (List.range (dmaRowLen x)).map (fun k => src (r * dmaRowLen x + k))))

/-- The bytes moved are written to the scratchpad or the stat store. -/
def dmaLand (x : DmaDesc) (src : Nat → Byte) (b : Bench) : Bench :=
  if x.kind = 0 then
    (dmaSpadRows x src).foldl (fun y r => { y with spad := spadWrite y.spad r.1 r.2, dbl := clearDbl y.dbl r.1 r.2.length }) b
  else
    let rec_ := fun (k : Nat) => leNat ((List.range 8).map (fun j => src (8 * k + j)))
    { b with stat := foldRange x.h b.stat (fun k m => tabSet 0 m (x.spadOff + k) (rec_ k)),
             statDbl := b.statDbl.filter (fun p => !(decide (x.spadOff ≤ p.1) && decide (p.1 < x.spadOff + x.h))) }

/-- Byte `k` of what a STORE or STAT_SAVE moves. -/
def dmaSrcByte (x : DmaDesc) (b : Bench) (k : Nat) : Byte :=
  if x.kind = 1 then spadRd b.spad (x.spadOff + k / dmaRowLen x * roundUp (dmaRowLen x) 64 + k % dmaRowLen x)
  else ((natLE 8 (tabGet 0 b.stat (x.spadOff + k / 8))).getD (k % 8) 0)

/-- Lines of memory in which an uncorrectable word of the source falls, and its offset or record (R126). -/
def dmaBadLines (x : DmaDesc) (b : Bench) : List (Nat × Nat) :=
  if x.kind = 1 then
    let rl := dmaRowLen x
    (List.range x.h).flatMap (fun r =>
      let so := x.spadOff + r * roundUp rl 64
      (b.dbl.filter (fun p => overlaps (p.1 * 8) 8 so rl)).flatMap (fun p =>
        let lo := max (p.1 * 8) so
        (Memory.linesOf (x.memAddr + r * x.memPitch + (lo - so)) (min (p.1 * 8 + 8) (so + rl) - lo)).map (fun l => (l, p.1 * 8))))
  else (b.statDbl.filter (fun p => decide (x.spadOff ≤ p.1) && decide (p.1 < x.spadOff + x.h))).flatMap (fun p =>
    (Memory.linesOf (x.memAddr + 8 * (p.1 - x.spadOff)) 8).map (fun l => (l, p.1)))

/-- What the descriptor's task must wait for: the stat store, or the bank of an offset (R114, R135). -/
def dmaMissing (b : Bench) (x : DmaDesc) : Option (Bool × Nat) :=
  if x.kind < 2 then (missingAt b 0 [dmaSpadSpan x]).map (fun o => (false, o)) else if statReady b 0 then none else some (true, x.spadOff)

/-! ## Accesses of the running task -/

/-- The requester port of a bench (R368). -/
def dmaPort (i : Nat) : Nat := 9 + i / 33

/-- The running task has one more access open. -/
def dmaOpens (i : Nat) (d : Dev) : Dev := modSlot d i 0 0 (fun t => { t with hostWrites := t.hostWrites + 1 })

/-- The running task is to end with a status, unless it has one. -/
def dmaStatus (i st : Nat) (d : Dev) : Dev := modSlot d i 0 0 (fun t => { t with res := if t.res = 0 then st else t.res })

/-- An access that the tables or the address map refuse (R57, R126); in CSR space it is recorded as R19 says. -/
def dmaRefused (i a : Nat) (write : Bool) (c : Ctl) (d : Dev) : Dev :=
  raise c (dmaStatus i resPoisoned d) (if rangeOf a == .csr then Fs.csrDrop else Fs.addrDecode) (dropInfo a (dmaPort i) write)

/-- An access to the fabric window that translation refuses (R317, R320). -/
def dmaUntranslated (i a : Nat) (write : Bool) (c : Ctl) (d : Dev) : Dev :=
  let e := (tabGet (0, 0) d.fab.win (bits a 32 12)).1.toNat
  fabError c 1 (bits e 16 16) (bits e 32 16) (dmaRefused i a write c d)

/-- Bytes that a read has found go to the task's buffer. -/
def dmaGot (i place : Nat) (bs : List Byte) (d : Dev) : Dev := modSlot d i 0 0 (fun t => { t with buf := cellsPut t.buf place bs })

/-- An access of at most 128 bytes to another bench's scratchpad, as its master EXT (R64, R113). DEDUCED: a bench not in use
answers as a register block does: the write is dropped, the read gives zeros. -/
def dmaExt (i a n place : Nat) (bs : Option (List Byte)) (bad : Bool) (c : Ctl) (d : Dev) : Dev :=
  let k := (a - 0x3F8000000000) / 0x200000
  let off := a % 0x200000
  let w : WaitAcc := { master := 4, write := bs.isSome, off := off, len := n, data := bs.getD [], port := dmaPort i, ecc := if bad then 2 else 0, dma := some (i, place) }
  if a < 0x3F8000000000 ∨ 132 ≤ k ∨ !d.benchActive k then
    raise c (if bs.isSome then d else dmaGot i place (List.replicate n 0) d) Fs.csrDrop (dropInfo a (dmaPort i) bs.isSome)
  else
    let d1 := dmaOpens i d
    if goesNow (d.bench k) 4 off then performWait k w c d1 else joinWaits k w c d1

/-- A span cut into the units of a scratchpad window. -/
def cut128 (a n : Nat) : List (Nat × Nat) :=
  if n = 0 then [] else
  (List.range ((a + n - 1) / 128 - a / 128 + 1)).map (fun k =>
    let lo := max a ((a / 128 + k) * 128)
    (lo, min (a + n) ((a / 128 + k + 1) * 128) - lo))

/-- Host physical address of an address of the external host range (R63). -/
def hostPhys (d : Dev) (a : Nat) : Nat := d.host.base.toNat * 2 ^ 30 + (a - 0x3E0000000000)

/-! ## LOAD and STAT_LOAD -/

/-- One piece of a load. -/
def loadPiece (i : Nat) (c : Ctl) (d : Dev) (p : Nat × Nat × Nat) : Dev :=
  let a := p.1
  let n := p.2.1
  if !(d.spanMapped .bench a n && ptPermits c .bench 1 a n) then dmaRefused i a false c d
  else match rangeOf a with
    | .host =>
      if !hostUp d then dmaStatus i resPoisoned d
      else
        let x : HostAcc := { write := false, addr := hostPhys d a, len := n, data := [], port := dmaPort i, bench := some i, dest := p.2.2 }
        (dmaOpens i (d.modHost (fun h => { h with flight := h.flight ++ [x] }))).emit (.hostRead x.addr n)
    | .fabric =>
      match translate d 1 a n with
      | none => dmaUntranslated i a false c d
      | some t => startMsg c t.flow (.bench i) (readFrames t.addr n false) n t.addr p.2.2 (dmaOpens i d)
    | .csr => (cut128 a n).foldl (fun y q => dmaExt i q.1 q.2 (p.2.2 + (q.1 - a)) none false c y) d
    | _ =>
      let r := readSpan c (if d.peekPoison a n then dmaStatus i resPoisoned d else d) a n
      if r.2.1 then r.2.2 else dmaGot i p.2.2 r.1 r.2.2

/-- The 4 KiB blocks that a LOAD reads: of its rows, and of the scale array of an MX source (R94, R124). -/
def dmaBlocks (x : DmaDesc) : List Nat := ((dmaPieces x).map (fun p => p.1 / 4096 * 4096)).eraseDups

/-- Tags of a LOAD with DOWEL_CHK: every block read is checked whole (R120, R124, R159). -/
def loadTags (i : Nat) (x : DmaDesc) (c : Ctl) (d : Dev) : Dev :=
  match (d.bench i).dma.slots with
  | t :: _ =>
    if !x.dowelChk || t.res != 0 then d
    else
      let sick := (dmaBlocks x).any (tagPoisoned d)
      let d1 := (dmaBlocks x).foldl (readTag c) (if sick then dmaStatus i resPoisoned d else d)
      if sick then d1
      else match (dmaBlocks x).find? (fun a => (d.badTag a (d.peekBytes a 4096)).isSome) with
        | some a => dowelFault c 0 i a (dmaStatus i resCheckFail d1)
        | none => d1
  | [] => d

/-- A load whose bytes are all in writes them; one that failed leaves its span undefined (R126). -/
def loadLands (i : Nat) (x : DmaDesc) (d : Dev) : Dev :=
  match (d.bench i).dma.slots with
  | t :: _ =>
    if t.hostWrites ≠ 0 then d
    else if t.res = 0 then
      (if t.buf.isEmpty then d else (d.modBench i (dmaLand x (tabGet 0 t.buf))).modBench i (fun b => { b with dma := { b.dma with slots := modAt (fun y => { y with buf := [] }) b.dma.slots 0 } }))
    else { (d.modBench i (Dev.undefTask d.free 0 t)) with free := d.free + 1 }
  | [] => d

/-! ## STORE and STAT_SAVE -/

/-- Runs of a piece that are written alike: the piece, or its lines where one of them is to be poisoned. -/
def storeRuns (bad : List Nat) (a n : Nat) : List (Nat × Nat × Bool) :=
  if (Memory.linesOf a n).any bad.contains then
    (Memory.linesOf a n).map (fun l => (max a (l * 64), min (a + n) (l * 64 + 64) - max a (l * 64), bad.contains l))
  else [(a, n, false)]

/-- One piece of a store to host memory (R387, R393). -/
def storeHost (i : Nat) (d : Dev) (a : Nat) (bs : List Byte) (poison : Bool) : Dev :=
  if !hostUp d then dmaStatus i resHostLost d
  else
    let x : HostAcc := { write := true, addr := hostPhys d a, len := bs.length, data := bs, port := dmaPort i, bench := some i }
    (dmaOpens i (d.modHost (fun h => { h with flight := h.flight ++ [x] }))).emit (.hostWrite x.addr bs poison)

/-- One piece of a store through the fabric window. -/
def storeFabric (i : Nat) (runs : List (Nat × Nat × Bool)) (a : Nat) (bs : List Byte) (c : Ctl) (d : Dev) : Dev :=
  match translate d 2 a bs.length with
  | none => dmaUntranslated i a true c d
  | some t =>
    let frs := runs.flatMap (fun r => writeFrames (t.addr + (r.1 - a)) ((bs.drop (r.1 - a)).take r.2.1) r.2.2)
    startMsg c t.flow (.bench i) frs 0 t.addr 0 (dmaOpens i d)

/-- What memory held is kept, so that an abandoned store can leave lines old (R126). -/
def dmaKeeps (i a : Nat) (bs : List Byte) (d : Dev) : Dev := modSlot d i 0 0 (fun t => { t with old := t.old ++ [(a, bs)] })

/-- One piece of a store to another bench: a poisoned line of the store arrives as words that hold an uncorrectable error (R126). -/
def storeExt (i : Nat) (runs : List (Nat × Nat × Bool)) (a : Nat) (bs : List Byte) (c : Ctl) (d : Dev) : Dev :=
  let k := (a - 0x3F8000000000) / 0x200000
  let d0 := if 0x3F8000000000 ≤ a ∧ k < 132 then dmaKeeps i a (spadRead (d.bench k).spad (a % 0x200000) bs.length) d else d
  runs.foldl (fun y r => (cut128 r.1 r.2.1).foldl (fun z q => dmaExt i q.1 q.2 0 (some ((bs.drop (q.1 - a)).take q.2)) r.2.2 c z) y) d0

/-- One piece of a store. The far-tier view takes no write of a bench (R193). -/
def storePiece (i : Nat) (bad : List Nat) (src : Nat → Byte) (c : Ctl) (d : Dev) (p : Nat × Nat × Nat) : Dev :=
  let a := p.1
  let bs := (List.range p.2.1).map (fun k => src (p.2.2 + k))
  let runs := storeRuns bad a p.2.1
  if !(d.spanMapped .bench a p.2.1 && ptPermits c .bench 2 a p.2.1) then dmaRefused i a true c d
  else match rangeOf a with
    | .host => runs.foldl (fun y r => storeHost i y r.1 ((bs.drop (r.1 - a)).take r.2.1) r.2.2) d
    | .fabric => storeFabric i runs a bs c d
    | .csr => storeExt i runs a bs c d
    | .farPlaced n => raise c d (Fs.farWriteRefused n) a
    | _ => runs.foldl (fun y r => if r.2.2 then (Memory.linesOf r.1 r.2.1).foldl Dev.pokePoison y else y) ((dmaKeeps i a (d.peekBytes a p.2.1) d).poke a bs)

/-- The tags of the blocks a STORE with DOWEL_GEN writes, over the data written, kept until that data is acknowledged (R158). -/
def dmaTags (x : DmaDesc) (b : Bench) : List Byte :=
  if !x.dowelGen then [] else
  let bs := (List.range (x.h * x.memPitch)).map (dmaSrcByte x b)
  (chunksOf 4096 (bs.length + 1) bs).flatMap (fun k => natLE 4 (crc32c k))

/-- The data movement of a STORE or STAT_SAVE. -/
def dmaStore (i : Nat) (x : DmaDesc) (c : Ctl) (d : Dev) : Dev :=
  let b := d.bench i
  let bad := dmaBadLines x b
  let d1 := if bad.isEmpty then d else modSlot d i 0 0 (fun t => { t with badSrc := true })
  let d2 := dmaGot i 0 (dmaTags x b) ((dmaPieces x).foldl (storePiece i (bad.map Prod.fst) (dmaSrcByte x b) c) d1)
  let failed := match (d2.bench i).dma.slots with | t :: _ => t.res != 0 | [] => false
  match bad with
  | [] => d2
  | p :: _ => benchErr c (if failed then modSlot d2 i 0 0 (fun t => { t with badSrc := false }) else d2) i (if x.kind = 1 then 0 else 1) p.2 0

/-- The data movement of a LOAD or STAT_LOAD. -/
def dmaLoad (i : Nat) (x : DmaDesc) (c : Ctl) (d : Dev) : Dev :=
  loadLands i x (loadTags i x c ((dmaPieces x).foldl (loadPiece i c) d))

/-- Accesses that a descriptor started before containment ended it find nobody waiting. -/
def dmaStopped (i : Nat) (d : Dev) : Dev := if (d.bench i).dma.slots.isEmpty then d.orphanAccs i else d

/-! ## The rows -/

/-- Must the descriptor's accesses wait for a block that is held for a row repair (R165)? -/
def dmaHeld (d : Dev) (x : DmaDesc) : Bool := (dmaPieces x).any (fun p => spanHeld d p.1 p.2.1)

/-- Is a write of the descriptor still to land, behind a line's chain or for the promotion of its page (R123, R219, R387)? -/
def dmaLanding (d : Dev) (x : DmaDesc) : Bool := (x.kind == 1 || x.kind == 2) && (dmaPieces x).any (fun p => d.landing p.1 p.2.1)

/-- The row of a kind: the head task, if it is of that kind and its checks pass, moves its data. `e` is the error that the code finds in a
record that a STAT_SAVE reads (R112). -/
def devDma (kind i : Nat) (e : Option (Fin 8192 × Bool)) (c : Ctl) (d : Dev) : Dev :=
  match (d.bench i).dma.slots with
  | [] => d
  | t :: _ =>
    if t.ran then d else
    match fetchDesc (d.bench i) 0 t.off with
    | .waits o => awaitAt i 0 false o c d
    | .bad _ => d
    | .words ws =>
      let x := dmaDescOf ws
      if x.kind ≠ kind ∨ (dmaCheck d x).isSome ∨ dmaHeld d x then d
      else match dmaMissing (d.bench i) x with
        | some p => awaitAt i 0 p.1 p.2 c d
        | none =>
          let d0 := if kind = 2 then statEcc i (ownEcc x.spadOff x.h e) c d else d
          let d1 := modSlot d0 i 0 0 (fun y => { y with issued := true, ran := true, words := ws })
          dmaStopped i (if kind = 0 ∨ kind = 3 then dmaLoad i x c d1 else dmaStore i x c d1)

def execLoad (bench : Fin 132) (s : State) : Host.Outcome State Fault Refusal := onEngine bench.val (devDma 0 bench.val none) s
def execStore (bench : Fin 132) (s : State) : Host.Outcome State Fault Refusal := onEngine bench.val (devDma 1 bench.val none) s
def execStatSave (bench : Fin 132) (s : State) (ecc : Option (Fin 8192 × Bool) := none) : Host.Outcome State Fault Refusal :=
  onEngine bench.val (devDma 2 bench.val ecc) s
def execStatLoad (bench : Fin 132) (s : State) : Host.Outcome State Fault Refusal := onEngine bench.val (devDma 3 bench.val none) s

/-- The descriptor's signal, once, with status OK only (R123). -/
def dmaSignal (x : DmaDesc) (st : Nat) (d : Dev) : Dev := if st = resOk ∧ x.sigEn then d.signal x.sigTgt x.sigCtr 1 else d

/-- What a task that has moved its data still does when its last access is acknowledged. -/
def dmaFinish (i : Nat) (t : Task) (x : DmaDesc) (d : Dev) : Dev :=
  if x.kind = 0 ∨ x.kind = 3 then loadLands i x d
  else
    let d1 := if x.dowelGen ∧ (t.res = 0 ∨ t.badSrc) then Dev.storeTags t x d else d
    if t.res ≠ 0 then { t.old.foldl Dev.unlandLines d1 with free := d1.free + 1 } else d1

/-- The status a task ends with. -/
def dmaEnds (t : Task) : Nat := if t.res = 0 ∧ t.badSrc then resPoisoned else t.res

/-- The head descriptor completes: every write acknowledged (R123), or ended by its checks (R125). -/
def devDmaComplete (i : Nat) (c : Ctl) (d : Dev) : Dev :=
  match (d.bench i).dma.slots with
  | [] => d
  | t :: _ =>
    if t.ran then
      let x := dmaDescOf t.words
      if t.hostWrites ≠ 0 ∨ dmaLanding d x then d
      else match dmaMissing (d.bench i) x with
        | some p => if x.kind = 1 ∨ x.kind = 2 ∨ t.buf.isEmpty then dmaSignal x (dmaEnds t) (endTask i 0 (dmaEnds t) (dmaFinish i t x d)) else awaitAt i 0 p.1 p.2 c d
        | none => dmaSignal x (dmaEnds t) (endTask i 0 (dmaEnds t) (dmaFinish i t x d))
    else match fetchDesc (d.bench i) 0 t.off with
      | .waits o => awaitAt i 0 false o c d
      | .bad o => endBad i 0 o c d
      | .words ws =>
        match dmaCheck d (dmaDescOf ws) with
        | some st => dmaSignal (dmaDescOf ws) st (endTask i 0 st d)
        | none => d

def execDmaDescComplete (bench : Fin 132) (s : State) : Host.Outcome State Fault Refusal := onEngine bench.val (devDmaComplete bench.val) s

end Sys2Proof.Machine
end

