-- ==== Sys2Proof/Machine/NdSetup.lean ====
section
/-! DEFINITION. The Ndeler commands of identity, tiers, buffers, regions, faults, repair, power, firmware and telemetry (11, R417
to R419, R429, R439): what each does once its header has passed, and the status and reply it ends with. -/

namespace Sys2Proof.Machine

open Sys2Proof

/-! ## How a command ends -/

/-- How a command leaves Silkai: ended with a status and a reply payload, or waiting on an outside event (R411). -/
inductive CmdEnd where
  | done (status : Nat) (reply : List Byte)
  | waits (w : Waiting)
  deriving DecidableEq, Repr

/-- A command's end and the device after it. -/
abbrev CmdRun := CmdEnd × Dev

/-- A command that ends with a failing status and leaves the device as it was (R409). -/
def fails (st : Nat) (d : Dev) : CmdRun := (.done st [], d)

/-- A command that takes effect. -/
def okay (reply : List Byte) (d : Dev) : CmdRun := (.done 0 reply, d)

/-- A payload of `n` bytes with fields at byte offsets: offset, length, value; the rest zero. -/
def payloadOf (n : Nat) (fs : List (Nat × Nat × Nat)) : List Byte :=
  fs.foldl (fun bs f => (bs.take f.1 ++ natLE f.2.1 f.2.2 ++ bs.drop (f.1 + f.2.1)).take n) (List.replicate n 0)

/-- The first of several checks that fails, with its status (R408, R409). -/
def firstFail (cs : List (Bool × Nat)) : Option Nat := (cs.find? (fun c => !c.1)).map Prod.snd

/-- Run the effect when every check passes. -/
def checked (cs : List (Bool × Nat)) (d : Dev) (f : Dev → CmdRun) : CmdRun :=
  match firstFail cs with
  | some st => fails st d
  | none => f d

/-- The same for a command that reads spans of memory: stack errors that end it with POISONED are recorded (R153). -/
def checkedRead (c : Ctl) (spans : List (Nat × Nat)) (cs : List (Bool × Nat)) (d : Dev) (f : Dev → CmdRun) : CmdRun :=
  match firstFail cs with
  | some st => fails st (if st = 0xA then (match spans.find? (fun s => d.peekPoison s.1 s.2) with | some s => notePoison c s.1 s.2 d | none => d) else d)
  | none => f d

/-! ## Identity and capability (R417) -/

/-- Benches active in a bay. -/
def bayCount (d : Dev) (b : Nat) : Nat := (d.activeOf b).length

/-- Ports of the configured width. -/
def ethPorts (d : Dev) : Nat := 64 / cfgWidthOf d

/-- A root port that its bring-up left off, or whose link is down. -/
def rootDown (p : CxlPort) : Bool := p.role == 0 && !p.up

/-- Ethernet ports that are down, and those whose width is below the configured one. -/
def ethDown (d : Dev) : List Nat := (List.range (ethPorts d)).filter (fun p => !(d.eth p).up)
def ethNarrow (d : Dev) : List Nat := (List.range (ethPorts d)).filter (fun p => decide (0 < (d.eth p).width) && decide ((d.eth p).width < cfgWidthOf d))

/-- The DEGRADED word of the summary. -/
def degradedWord (c : Ctl) (d : Dev) : Nat :=
  maskOf ((List.range 8).filter (fun i => match i with
    | 0 => (List.range 4).any (fun b => bitAt (d.active.getD b 0).toNat (c.fuses.spare.getD b 32))
    | 1 => (List.range 4).any (fun b => decide (bayCount d b < 32))
    | 2 => !d.near.retired.isEmpty || d.near.pcs.any (fun p => pcStaged p.2)
    | 3 => d.near.pcs.any (fun p => p.2.st == .degraded && !mayRetire d p.1)
    | 4 => (List.range 4).any (fun n => rootDown (d.cxl n))
    | 5 => !(ethDown d).isEmpty || !(ethNarrow d).isEmpty
    | 6 => d.fc.gddrUe
    | _ => c.boot.cfgDefaulted))

/-- ND_QUERY ends with DEGRADED when any of bits 1 to 6 is set. -/
def queryStatus (c : Ctl) (d : Dev) : Nat := if bits (degradedWord c d) 1 6 = 0 then 0 else 0xB

/-- Capacity of a root port in service or in being, in bytes; 0 where it is off. -/
def rootCap (p : CxlPort) : Nat := if p.role = 0 ∧ !p.failed then p.cap else 0

/-- Segments of a port in a given state, among the usable ones (R192). -/
def segsIn (p : CxlPort) (st : Nat) : Nat := (p.segs.filter (fun s => s.2.state == st && decide ((usable p).1 ≤ s.1) && decide (s.1 < (usable p).2))).length
def usableSegs (p : CxlPort) : Nat := if p.role = 0 ∧ !p.failed then (usable p).2 - (usable p).1 else 0
def freeSegs (p : CxlPort) : Nat := usableSegs p - (p.segs.filter (fun s => s.2.state != 0 && decide ((usable p).1 ≤ s.1) && decide (s.1 < (usable p).2))).length

/-- FREE segments of every port in service. -/
def freeSegsAll (d : Dev) : Nat := ((List.range 4).map (fun n => if (d.cxl n).up then freeSegs (d.cxl n) else 0)).sum

/-- Does an allocation overlap the sacrificed range of retirement `k` (R172)? In unified mode, by a page whose frame lies in it. -/
def inSk (d : Dev) (k : Nat) (a : Alloc) : Bool :=
  if d.far.unified then
    (List.range (ceilDiv a.extent 0x200000)).any (fun i => match tabFind d.far.pages (pageOf a.addr + i) with
      | some p => decide (p.res ≠ .far) && inSacrificed k (p.frame * 0x200000)
      | none => false)
  else overlaps a.addr a.nearLen (sacrificedBase k) 0x40000000

/-- Handles of the allocations overlapping a range being sacrificed. -/
def overlapHandles (d : Dev) : List Nat :=
  match d.near.retiring with
  | some (_, k) => ((d.silkai.allocs.filter (fun a => inSk d k a.2)).map Prod.fst).take 1000
  | none => []

/-- The staged pseudo-channel, 0xFFFF for none. -/
def stagedPc (d : Dev) : Nat := ((d.near.pcs.find? (fun p => pcStaged p.2)).map Prod.fst).getD 0xFFFF

def querySummary (c : Ctl) (d : Dev) : List Byte :=
  payloadOf 48 ((List.range 4).map (fun b => (b, 1, bayCount d b)) ++
    [(4, 4, 523776 - 1024 * d.near.retired.length), (8, 1, d.near.retired.length), (10, 2, stagedPc d)] ++
    (List.range 4).map (fun n => (12 + 2 * n, 2, rootCap (d.cxl n) / 2 ^ 30)) ++
    [(20, 1, maskOf ((List.range 4).filter (fun n => (d.cxl n).role == 0 && (d.cxl n).up))), (21, 1, cfgWidthOf d), (24, 8, maskOf (ethDown d)),
     (32, 8, maskOf (ethNarrow d)), (40, 4, degradedWord c d)])

def queryBenches (c : Ctl) (d : Dev) : List Byte :=
  payloadOf 32 ((List.range 4).flatMap (fun b => [(8 * b, 5, (d.active.getD b 0).toNat), (8 * b + 5, 1, c.fuses.spare.getD b 32)]))

def queryNear (d : Dev) : List Byte :=
  let hs := overlapHandles d
  payloadOf (72 + 4 * hs.length) ([(0, 64, maskOf d.near.retired), (64, 4, hs.length)] ++ hs.zipIdx.map (fun h => (72 + 4 * h.2, 4, h.1)))

def queryFar (d : Dev) : List Byte :=
  payloadOf 128 ((List.range 4).flatMap (fun n =>
    let p := d.cxl n
    let up := if p.role = 1 then d.host.st == .up else p.role == 0 && p.up
    [(32 * n, 1, p.role), (32 * n + 1, 1, b2n (!p.speed64)), (32 * n + 2, 1, b2n up), (32 * n + 8, 8, rootCap p), (32 * n + 16, 4, usableSegs p),
     (32 * n + 20, 4, freeSegs p), (32 * n + 24, 4, segsIn p 3)]))

def queryEth (d : Dev) : List Byte :=
  payloadOf 128 ((List.range 64).flatMap (fun p => if p < ethPorts d then [(2 * p, 1, (d.eth p).width), (2 * p + 1, 1, b2n (d.eth p).up)] else []))

/-- ND_HELLO always returns its full reply. -/
def ndHello (k : Nat) (bs : List Byte) (c : Ctl) (d : Dev) : CmdRun :=
  let ok := leAt bs 0 1 = 3 ∧ leAt bs 1 1 ≤ 2
  (.done (if ok then 0 else 6) (payloadOf 32 [(0, 2, 0xC096), (2, 1, 0x10), (4, 1, 3), (5, 1, 2), (8, 4, c.boot.fwVersion.toNat), (12, 1, c.boot.fwSlot.toNat),
    (16, 8, c.fuses.serial.toNat), (24, 1, k)]), d)

def ndQuery (bs : List Byte) (c : Ctl) (d : Dev) : CmdRun :=
  match leAt bs 0 1 with
  | 0 => (.done (queryStatus c d) (querySummary c d), d)
  | 1 => (.done (queryStatus c d) (queryBenches c d), d)
  | 2 => (.done (queryStatus c d) (queryNear d), d)
  | 3 => (.done (queryStatus c d) (queryFar d), d)
  | 4 => (.done (queryStatus c d) (queryEth d), d)
  | _ => fails 2 d

/-! ## Tiers, buffers and regions (R215 to R217, R418) -/

/-- Is a program running (R50, R215, R415)? It runs until it stops or a step aborts. -/
def progRunning (d : Dev) : Bool :=
  d.life.loaded && ((d.life.state != .idle && d.life.state != .aborted) || d.life.update || d.life.starting)

def ndTierMode (bs : List Byte) (_ : Ctl) (d : Dev) : CmdRun :=
  checked [(d.silkai.allocs.isEmpty && !progRunning d, 1), (decide (leAt bs 0 1 < 2), 2), (decide (leAt bs 1 1 ≤ 3), 4)] d (fun d =>
    okay [] (d.modFar (fun f => { f with unified := leAt bs 0 1 == 1, peers := (List.range (leAt bs 1 1)).map (fun i => leAt bs (4 + 2 * i) 2) })))

/-- Spans that a new allocation may not overlap: base and length. -/
def nearTaken (d : Dev) : List (Nat × Nat) :=
  d.silkai.allocs.map (fun a => (a.2.addr, a.2.nearLen)) ++ (List.range d.near.retired.length).map (fun i => (sacrificedBase (i + 1), 0x40000000)) ++
    (match d.near.retiring with | some (_, k) => [(sacrificedBase k, 0x40000000)] | none => [])
def gddrTaken (d : Dev) : List (Nat × Nat) := (d.silkai.allocs.filter (fun a => a.2.tier == 2)).map (fun a => (a.2.addr, a.2.extent))
def unifiedTaken (d : Dev) : List (Nat × Nat) := d.silkai.allocs.map (fun a => (a.2.addr, roundUp a.2.extent 0x200000))

/-- A place of `n` bytes in a range, aligned, clear of what is taken. The firmware chooses it (R418): the free choice is tried
first, then the lowest that fits. -/
def findPlace (free lo hi align n : Nat) (taken : List (Nat × Nat)) : Option Nat :=
  let fits := fun (a : Nat) => decide (lo ≤ a) && decide (a + n ≤ hi) && a % align == 0 && taken.all (fun t => !overlaps a n t.1 t.2)
  let ends := (taken.map (fun t => roundUp (t.1 + t.2) align)) ++ [roundUp lo align]
  let any := roundUp lo align + align * (Config.choice free ((hi - lo) / align + 1) % ((hi - lo) / align + 1))
  if fits any then some any else minBy id (ends.filter fits)

/-- A free number below `n`, from the free choice on (R418). -/
def findFree (free lo n : Nat) (used : Nat → Bool) : Option Nat :=
  let at0 := Config.choice free n % n
  ((List.range n).map (fun i => lo + (at0 + i) % n)).find? (fun h => !used h)

/-- A free handle. -/
def freeHandle (d : Dev) : Option Nat := findFree (d.free + 1) 1 65535 (fun h => (tabFind d.silkai.allocs h).isSome)

/-- Segments reserved by placed FAR allocations and not yet filled (R216). -/
def reservedSegs (d : Dev) : Nat := (d.silkai.allocs.map (fun a => if a.2.tier = 1 ∧ a.2.nearLen ≠ 0 then a.2.reserved - d.mapEntries a.2.addr else 0)).sum

/-- The reply of ND_ALLOC. -/
def allocReply (h a ext segs : Nat) : List Byte := payloadOf 32 [(0, 4, h), (8, 8, a), (16, 8, ext), (24, 4, segs)]

/-- Record an allocation and answer it. -/
def allocDone (h : Nat) (a : Alloc) (d : Dev) : CmdRun :=
  okay (allocReply h a.addr a.extent a.reserved) ({ d with free := d.free + 2 }.modSilkai (fun m => { m with allocs := tabPut m.allocs h a }))

/-- A placed NEAR or BOARD_GDDR allocation. -/
def allocPlaced (tier ext align : Nat) (zero : Bool) (h : Nat) (d : Dev) : CmdRun :=
  let place := if tier = 0 then findPlace d.free 0 0x7FE0000000 align ext (nearTaken d) else findPlace d.free 0x80040000000 0x80100000000 align ext (gddrTaken d)
  match place with
  | none => fails 5 d
  | some a => allocDone h { tier := tier, addr := a, size := ext, extent := ext } (if zero then d.poke a (List.replicate ext 0) else d)

/-- The header of a new image map: no entry, the image's blocks (R207). -/
def newMap (a blocks : Nat) (d : Dev) : Dev := d.poke a (natLE 8 0 ++ natLE 8 blocks ++ List.replicate 48 0)

/-- A placed FAR allocation: a map in the near tier and a reservation of segments (R216). -/
def allocImage (c : Ctl) (size ext align : Nat) (zero : Bool) (h : Nat) (d : Dev) : CmdRun :=
  let blocks := ext / 4096
  let n := ceilDiv blocks 510
  let a0 : Alloc := { tier := 1, addr := 0, size := size, extent := ext, reserved := n }
  match findPlace d.free 0 0x7FE0000000 align a0.nearLen (nearTaken d) with
  | none => fails 5 d
  | some a =>
    if freeSegsAll d < reservedSegs d + n then fails 5 d else
    let d1 := newMap a blocks d
    let d2 := if zero then (putImage c.now 0 1 a (List.replicate ext 0) d1).getD d1 else d1
    allocDone h { a0 with addr := a } d2

/-- The tier manager makes a near frame free at once: a clean page is dropped, another is demoted (R218). -/
def evictPage (c : Ctl) (n : Nat) (d : Dev) : Dev := devDemoteDone n c (demote n d)

/-- Demote pages until a near frame is free. -/
def makeRoom (c : Ctl) (d : Dev) : Dev :=
  if 0 < freeFrames d then d else
  match d.far.pages.find? (fun p => sweepable p.2) with
  | some p => evictPage c p.1 d
  | none => d

/-- Fill a frame with zeros or leave what it holds. -/
def fillFrame (f : Nat) (zero : Bool) (d : Dev) : Dev := if zero then Dev.nearWrite (f * 0x200000) (List.replicate 0x200000 0) d else d

/-- A new unified page with a near frame. -/
def pageNear (n : Nat) (pinned zero : Bool) (d : Dev) : Dev :=
  match lowestFrame d with
  | some f => fillFrame f zero (d.modPage n { frame := f, pinned := pinned })
  | none => d

/-- A new unified page in a fresh segment: zeros, or undefined bytes. -/
def pageFar (c : Ctl) (n : Nat) (zero : Bool) (d : Dev) : Dev :=
  match pickSegment d 0xF (d.stager (pageStager n)).lastPort with
  | some id =>
    let blocks := (List.range 512).map (fun j => if zero then List.replicate 4096 (0 : Byte) else (List.range 4096).map (fun i => Config.undefByte d.free (4096 * j + i)))
    let d1 := sealSegment c.now id (fillSegment { d with free := d.free + 1 } id (0x200000000000 + n * 0x200000) ((packPage 1 0 blocks).headD {}))
    (d1.modPage n { res := .far, seg := id, gen := (d1.seg id).gen.toNat }).modStager (pageStager n) (fun g => { g with lastPort := Dev.segPort id })
  | none => d

/-- Back one page of a unified allocation. -/
def backPage (c : Ctl) (pinned zero : Bool) (d : Dev) (n : Nat) : Dev :=
  if pinned then pageNear n true zero (makeRoom c d)
  else if 0 < freeFrames d then pageNear n false zero d else pageFar c n zero d

/-- Can the pages of a unified allocation be backed (R217)? -/
def backable (d : Dev) (pinned : Bool) (n : Nat) : Bool :=
  let room := d.far.pages.filter (fun p => sweepable p.2)
  let clean := (room.filter (fun p => p.2.res == .nearClean)).length
  if pinned then decide (n ≤ freeFrames d + room.length) && decide (n - freeFrames d - clean ≤ freeSegsAll d) else decide (n ≤ freeFrames d + freeSegsAll d)

/-- A unified allocation: whole pages, pinned for NEAR (R217). -/
def allocUnified (c : Ctl) (pinned : Bool) (size ext align : Nat) (zero : Bool) (h : Nat) (d : Dev) : CmdRun :=
  let n := ceilDiv ext 0x200000
  match findPlace d.free 0x200000000000 0x300000000000 (max align 0x200000) (n * 0x200000) (unifiedTaken d) with
  | none => fails 5 d
  | some a =>
    if !backable d pinned n then fails 5 d else
    let d1 := ((List.range n).map (fun i => pageOf a + i)).foldl (backPage c pinned zero) d
    allocDone h { tier := if pinned then 0 else 1, addr := a, size := size, extent := ext, pinned := pinned } d1

def ndAlloc (bs : List Byte) (c : Ctl) (d : Dev) : CmdRun :=
  let size := leAt bs 0 8
  let tier := leAt bs 8 1
  let zero := leAt bs 9 1 == 1
  let align := 2 ^ max 12 (leAt bs 10 1)
  let ext := roundUp size 4096
  checked [(decide (tier ≤ 2) && decide (leAt bs 9 1 ≤ 1) && decide (leAt bs 10 1 ≤ 30), 2), (!(d.far.unified && tier == 2), 6)] d (fun d =>
    if size = 0 then okay (allocReply 0 0 0 0) d else
    match freeHandle d with
    | none => fails 5 d
    | some h =>
      if d.far.unified then allocUnified c (tier == 0) size ext align zero h d
      else if tier = 1 then allocImage c size ext align zero h d
      else allocPlaced tier ext align zero h d)

/-- The bytes an allocation occupies in the address map. -/
def allocSpan (a : Alloc) : Nat × Nat := (a.addr, if a.tier = 1 ∧ a.nearLen ≠ 0 then a.nearLen else a.extent)

/-- A page of a freed unified allocation goes, with its far copy. -/
def dropPage (d : Dev) (n : Nat) : Dev :=
  match tabFind d.far.pages n with
  | some p =>
    let d1 := if p.res = .far ∨ p.res = .nearClean ∨ p.res = .promoting then d.releaseSeg p.seg else d
    d1.modFar (fun f => { f with pages := tabDel f.pages n })
  | none => d

/-- ND_FREE: the allocation goes; an image's segments become FREE (R216). A map that reads poisoned ends the command. -/
def ndFree (bs : List Byte) (c : Ctl) (d : Dev) : CmdRun :=
  let h := leAt bs 0 4
  match tabFind d.silkai.allocs h with
  | none => fails 6 d
  | some a =>
    let sp := allocSpan a
    let image := a.tier == 1 && a.nearLen != 0
    checkedRead c [(a.addr, 64), (a.addr + 64, 8 * d.mapEntries a.addr)] [(!d.silkai.regions.any (fun r => overlaps sp.1 sp.2 r.2.base r.2.len), 1),
             (!(image && (d.peekPoison a.addr 64 || d.peekPoison (a.addr + 64) (8 * d.mapEntries a.addr))), 0xA)] d (fun d =>
      let d1 := if image then releaseImage a.addr d
        else if a.addr < 0x200000000000 then d
        else ((List.range (ceilDiv a.extent 0x200000)).map (fun i => pageOf a.addr + i)).foldl dropPage d
      okay [] (d1.modSilkai (fun m => { m with allocs := tabDel m.allocs h })))

/-- May a span be registered (R418)? -/
def registrable (d : Dev) (a n : Nat) : Bool :=
  decide (a + n ≤ 2 ^ 48) && rangeOf a == rangeOf (a + n - 1) &&
  match rangeOf a with
  | .near => decide (a + n ≤ 0x7FE0000000) && (List.range ((a + n - 1) / 0x40000000 - a / 0x40000000 + 1)).all (fun i => !d.sacrificed (max a ((a / 0x40000000 + i) * 0x40000000)))
  | .farPlaced p => (d.cxl p).role == 0 && (d.cxl p).up && decide ((a + n - 1) % 0x10000000000 < (d.cxl p).cap)
  | .gddr => decide (0x80040000000 ≤ a) && decide (a + n ≤ 0x80100000000)
  | .fabric => true
  | .unified => d.far.unified
  | .host => (d.cxl 0).role == 1
  | .csr => true
  | .reserved => false

def ndRegister (bs : List Byte) (_ : Ctl) (d : Dev) : CmdRun :=
  let base := leAt bs 8 8
  let len := leAt bs 16 8
  let fl := leAt bs 1 1
  checked [(decide (fl < 16), 2)] d (fun d =>
    if len = 0 then okay (payloadOf 8 []) d else
    checked [(registrable d base len, 6)] d (fun d =>
      match findFree d.free 0 4096 (fun i => (tabFind d.silkai.regions i).isSome) with
      | none => fails 5 d
      | some i =>
        let r : Region := { base := base, len := len, engine := bitAt fl 0, fabRd := bitAt fl 1, fabWr := bitAt fl 2, fabAtom := bitAt fl 3 }
        okay (payloadOf 8 [(0, 4, i)]) ({ d with free := d.free + 1 }.modSilkai (fun m => { m with regions := tabPut m.regions i r }))))

def ndUnregister (bs : List Byte) (_ : Ctl) (d : Dev) : CmdRun :=
  let i := leAt bs 4 4
  checked [(decide (leAt bs 1 1 < 16), 2), ((tabFind d.silkai.regions i).isSome, 6)] d (fun d =>
    okay (payloadOf 8 []) (d.modSilkai (fun m => { m with regions := tabDel m.regions i })))

def ndRegion (bs : List Byte) (c : Ctl) (d : Dev) : CmdRun :=
  match leAt bs 0 1 with
  | 0 => ndRegister bs c d
  | 1 => ndUnregister bs c d
  | _ => fails 2 d

/-! ## Faults (R429, R450, R451, R453, R457, R458) -/

/-- Action bits that R445 permits at a severity: NO_LOG and NOTIFY at 0, NO_NOTIFY at 1. -/
def actionsAt (sev : Nat) : Nat := if sev = 0 then 3 else if sev = 1 then 4 else 0

def ndCfgSource (bs : List Byte) (c : Ctl) (d : Dev) : CmdRun :=
  let n := leAt bs 2 2
  let sev := leAt bs 4 1
  let act := leAt bs 5 1
  checked [(decide (n < 480) && decide (sev ≤ 3) && !(sevFixed n && decide (sev < 3)) && decide (act < 8) && (act &&& actionsAt sev) == act, 6),
           (!(d.fc.src n).lock && !c.cfg.faultCfgLock, 7)] d (fun d =>
    okay [] (d.modFc (writeSeverity false n (sev + act * 16 + 256))))

def ndCfgPin (bs : List Byte) (c : Ctl) (d : Dev) : CmdRun :=
  let mode := leAt bs 4 1
  let us := leAt bs 8 4
  checked [(decide (mode < 2) && decide (leAt bs 5 1 ≤ 3) && decide (20 ≤ us) && decide (us ≤ 10000), 6), (!c.cfg.faultCfgLock, 7),
           (mode == 1 || !d.fc.fallback || d.fc.fresh, 6)] d (fun d =>
    okay [] (d.modFc (fun f => setPinMode (mode == 0) { f with threshold := BitVec.ofNat 2 (leAt bs 5 1), pulseMinUs := BitVec.ofNat 14 us })))

def ndFaultCfg (bs : List Byte) (c : Ctl) (d : Dev) : CmdRun :=
  match leAt bs 0 1 with
  | 0 => ndCfgSource bs c d
  | 1 => ndCfgPin bs c d
  | _ => fails 2 d

/-- A fault-log entry as its 32 bytes (R451). -/
def logBytes (e : LogEntry) : List Byte :=
  natLE 8 e.time.toNat ++ natLE 4 (e.src.toNat + e.sev.toNat * 2 ^ 9 + b2n e.floor * 2 ^ 11 + b2n e.rep * 2 ^ 12 + e.epoch.toNat * 2 ^ 16) ++ natLE 4 e.step.toNat ++
    natLE 8 e.info.toNat ++ natLE 8 e.seq.toNat

/-- Insertion by entry number. -/
def insertLog (e : LogEntry) : List LogEntry → List LogEntry
  | [] => [e]
  | x :: l => if e.seq.toNat ≤ x.seq.toNat then e :: x :: l else x :: insertLog e l

/-- The fault log in SEQ order. -/
def logInOrder (f : Collector) : List LogEntry := f.log.foldr (fun p l => insertLog p.2 l) []

/-- An orphan as COH_ORPHAN[i] shows it (R453). -/
def orphanBytes (o : Orphan) : List Byte := natLE 8 (o.line * 64 % 2 ^ 52 + o.cluster % 16 * 2 ^ 52) ++ natLE 8 o.time

/-- The reply that returns entries of a log, by index from the oldest: TOTAL, RETURNED, ENTRY_SIZE, then the entries. -/
def entriesReply (size first count total : Nat) (es : List (List Byte)) : List Byte :=
  let got := (es.drop first).take count
  payloadOf 16 [(0, 4, total), (4, 4, got.length), (8, 2, size)] ++ got.flatten

/-- Entries of a log of ND_FAULT_LOG and their size. -/
def logEntries (log : Nat) (d : Dev) : Nat × List (List Byte) :=
  match log with
  | 0 => (32, (logInOrder d.fc).map logBytes)
  | 1 => (16, d.host.orphans.map orphanBytes)
  | _ => (32, d.flash.log.map (fun e => e.flatMap (natLE 8)))

/-- CLEAR of logs 0 and 1. -/
def clearLog (log : Nat) (d : Dev) : Dev := if log = 0 then d.modFc (fun f => { f with log := [] }) else d.modHost (fun h => { h with orphans := [] })

def ndFaultLog (bs : List Byte) (_ : Ctl) (d : Dev) : CmdRun :=
  let log := leAt bs 0 1
  let clear := leAt bs 12 1
  let es := logEntries log d
  checked [(decide (log ≤ 2) && decide (clear ≤ 1), 2), (!(log == 2 && clear == 1), 6), (decide (leAt bs 8 4 ≤ 4064 / es.1), 4)] d (fun d =>
    okay (entriesReply es.1 (leAt bs 4 4) (leAt bs 8 4) es.2.length es.2) (if clear = 1 then clearLog log d else d))

/-! ## Repair and retirement (R429, R476) -/

/-- Benches of the flash log: spare brought into use (KIND 2) or retired without one (KIND 3). -/
def retiredBenches (d : Dev) : List (Nat × Nat) := (d.flash.log.filterMap logUnit).filterMap (fun x => if x.1 = 2 ∨ x.1 = 3 then some (x.1, x.2.1) else none)

/-- Has a bench been retired? -/
def benchRetired (d : Dev) (u : Nat) : Bool := (retiredBenches d).any (fun x => x.2 == u)

/-- Is the spare of a bay unused? -/
def spareUnused (c : Ctl) (d : Dev) (b : Nat) : Bool :=
  !bitAt (d.active.getD b 0).toNat (c.fuses.spare.getD b 32) && !(retiredBenches d).any (fun x => x.1 == 2 && x.2 / 33 == b) &&
    !benchRetired d (b * 33 + c.fuses.spare.getD b 32)

def retireBench (u : Nat) (c : Ctl) (d : Dev) : CmdRun :=
  let b := u / 33
  let spare := c.fuses.spare.getD b 32
  let m := (d.active.getD b 0).toNat
  let real := decide (u < 132) && !benchRetired d u && (bitAt m (u % 33) || (u % 33 == spare && spareUnused c d b))
  checked [(!d.life.loaded, 1), (real, 6)] d (fun d =>
    let swap := spareUnused c d b && u % 33 != spare
    let m1 := setBit (setBit m (u % 33) false) spare (swap || (bitAt m spare && u % 33 != spare))
    let d1 : Dev := { d with active := setAt d.active b (BitVec.ofNat 33 m1), benches := tabDel (if swap then tabDel d.benches (b * 33 + spare) else d.benches) u }
    let d2 := flashLog c (if swap then 2 else 3) u 0 0 d1
    (.done (if bayCount d2 b < 32 then 0xB else 0) [], d2))

def retrainPc (n : Nat) (_ : Ctl) (d : Dev) : CmdRun :=
  checked [(decide (n < 512) && (d.pc n).st != .retired, 6), (!d.near.pcs.any (fun p => pcStaged p.2), 1), ((d.pc n).st == .active, 6)] d (fun d => okay [] (wantRetrain n d))

def retirePc (n : Nat) (_ : Ctl) (d : Dev) : CmdRun :=
  checked [(decide (n < 512) && (d.pc n).st != .retired, 6), (!d.near.pcs.any (fun p => pcStaged p.2), 1)] d (fun d => okay [] (degrade n d))

def retireLane (l : Nat) (c : Ctl) (d : Dev) : CmdRun :=
  checked [(decide (l < 64) && !bitAt d.fab.laneFail.toNat l, 6)] d (fun d => okay [] (flashLog c 4 l 0 0 (failLane l c d)))

def ndRetire (bs : List Byte) (c : Ctl) (d : Dev) : CmdRun :=
  match leAt bs 0 1 with
  | 0 => retireBench (leAt bs 4 4) c d
  | 1 => retrainPc (leAt bs 4 4) c d
  | 2 => retirePc (leAt bs 4 4) c d
  | 3 => retireLane (leAt bs 4 4) c d
  | _ => fails 2 d

/-! ## Power (R510, R512) -/

def ndPowerLimit (bs : List Byte) (_ : Ctl) (d : Dev) : CmdRun :=
  let w := if leAt bs 0 4 = 0 then 1600 else leAt bs 0 4
  let slew := leAt bs 4 4
  checked [(decide (400 ≤ w) && decide (w ≤ 1600) && decide (slew < 2 ^ 24), 6)] d (fun d =>
    okay [] (d.modPwr (fun p => { p with limit := BitVec.ofNat 11 w, budget := if slew = 0 then p.budget else BitVec.ofNat 24 slew })))

/-! ## Firmware update (R439) -/

/-- The boot-record copies after an update: the older copy, or one whose CRC fails, is rewritten with SEQ one above the newer. -/
def nextRecords (slot : Nat) (rs : List (Nat × Nat × Bool)) : List (Nat × Nat × Bool) :=
  let a := rs.getD 0 (0, 0, false)
  let b := rs.getD 1 (0, 0, false)
  let older0 := !a.2.2 || (b.2.2 && decide (a.2.1 < b.2.1))
  let newSeq := ((if older0 then (if b.2.2 then b.2.1 else 0) else a.2.1) + 1) % 2 ^ 32
  if older0 then [(slot, newSeq, true), b] else [a, (slot, newSeq, true)]

/-- Contents of the slot that is not active, or of the config image. -/
def putFlash (c : Ctl) (cfg : Bool) (img : List Byte) (f : Flash) : Flash :=
  if cfg then { f with config := img } else if c.boot.fwSlot = 0 then { f with slotB := img } else { f with slotA := img }

/-- The update is written and read back: a config image over the existing one, whose CRC is the reply; firmware in the slot that is not active, then
the boot record. -/
def flashDone (c : Ctl) (cfg : Bool) (img : List Byte) (d : Dev) : List Byte × Dev :=
  if cfg then (payloadOf 4 [(0, 4, crc32c img)], { d with flash := putFlash c cfg img d.flash })
  else ([], { d with flash := { putFlash c cfg img d.flash with records := nextRecords (1 - c.boot.fwSlot.toNat) d.flash.records } })

/-- A failed write or read-back: the bytes of the image are not known, the boot record is as before, FW_UPDATE_FAIL is recorded. -/
def flashFailed (c : Ctl) (cfg : Bool) (n : Nat) (d : Dev) : Dev :=
  raise c { d with flash := putFlash c cfg (Dev.undefBytes d.free n) d.flash, free := d.free + 1 } Fs.fwUpdateFail 0

/-- The flash while an update is written: bytes not known, of a config image that fails its check; the boot record as before. -/
def flashWriting (c : Ctl) (cfg : Bool) (n : Nat) (d : Dev) : Dev :=
  let bs := Dev.undefBytes d.free n
  { d with flash := putFlash c cfg (if cfg then natLE 4 0 ++ bs.drop 4 else bs) d.flash, free := d.free + 1 }

/-- Does an update run? -/
def updateRuns (d : Dev) : Bool :=
  d.silkai.mbx.any (fun p => match p.2.waiting with
    | some (.fwUpdate _ _) => true
    | _ => false)

/-- ND_FW_UPDATE, its write to the flash with the outcome `fl` (R439). -/
def ndFwUpdate (fl : FlashRun) (bs : List Byte) (c : Ctl) (d : Dev) : CmdRun :=
  let cfg := leAt bs 0 1 == 1
  let a := leAt bs 8 8
  let n := leAt bs 16 4
  let img := d.peekBytes a n
  checked [(decide (leAt bs 0 1 < 2), 2), (!c.cfg.fwUpdateLock, 7), (!updateRuns d, 1), (decide (n ≤ (if cfg then 65536 else 0x800000)) && d.engineSpan a n, 4)] d (fun d =>
    if n = 0 then okay (if cfg then payloadOf 4 [] else []) d else
    checkedRead c [(a, n)] [(!d.peekPoison a n, 0xA), (if cfg then cfgValid img else imageSigned c.fuses img, 0xD), (cfg || svnOk c.fuses img, 6)] d (fun d =>
      match fl with
      | .done => okay (flashDone c cfg img d).1 (flashDone c cfg img d).2
      | .fails => (.done 0xD [], flashFailed c cfg n d)
      | .runs => (.waits (.fwUpdate cfg img), flashWriting c cfg n d)))

/-! ## Telemetry (R404, R429) -/

/-- The telemetry area rewritten: SEQ moves on by two, every field is fresh (R404). With no kerf record since the previous
rewrite KERF_MIN is a value the spec does not state: a free value. -/
def rewriteTelemetry (c : Ctl) (d : Dev) : Dev :=
  let t := d.silkai.tel
  let u := fun (i : Nat) => d.pwr.temps.getD i 0
  let m := d.stream
  let t1 : Telemetry :=
    { t with seq := t.seq + 2, time := c.clk.timebase, periodUs := d.silkai.period, step := d.life.step, powerMw := d.pwr.inputMw, tempCarc := u 0,
             tempBay := (List.range 4).map (fun b => u (1 + b)), tempHbm := (List.range 8).map (fun h => u (5 + h)), kerfLast := m.kerfLast,
             kerfMin := m.kerfMin.getD (BitVec.ofNat 32 (Config.choice d.free (2 ^ 32))), stalls := m.stallCnt - t.stallsAt,
             benchDiv := BitVec.ofNat 32 (((List.range 4).map (fun b => (d.bay b).div * 256 ^ b)).sum), stallsAt := m.stallCnt, kerfAt := m.kerfWr }
  ({ d with free := d.free + 1 }.modSilkai (fun x => { x with tel := t1 })).modStream (fun x => { x with kerfMin := none })

/-- The telemetry area as bytes: its 80 bytes of fields (R404). -/
def telemetryBytes (t : Telemetry) : List Byte :=
  payloadOf 80 ([(0, 4, t.seq.toNat), (8, 8, t.time.toNat), (16, 4, t.periodUs.toNat), (24, 8, t.step.toNat), (32, 4, t.powerMw.toNat), (36, 2, t.tempCarc.toNat)] ++
    (t.tempBay.take 4).zipIdx.map (fun x => (38 + 2 * x.2, 2, x.1.toNat)) ++ (t.tempHbm.take 8).zipIdx.map (fun x => (46 + 2 * x.2, 2, x.1.toNat)) ++
    [(64, 4, t.kerfLast.toNat), (68, 4, t.kerfMin.toNat), (72, 4, t.stalls.toNat), (76, 4, t.benchDiv.toNat)])

/-- Kerf records by index since load; the ring must still hold them (R249, R429). -/
def telKerf (bs : List Byte) (c : Ctl) (d : Dev) : CmdRun :=
  let first := leAt bs 4 4
  let n := leAt bs 8 4
  let wr := d.stream.kerfWr.toNat
  let len := d.stream.kerfLen.toNat
  let at_ := fun (i : Nat) => d.stream.kerfBase.toNat + (first + i) % max 1 len * 32
  checkedRead c ((List.range n).map (fun i => (at_ i, 32))) [(decide (n ≤ 127) && (n == 0 || (decide (first + n ≤ wr) && decide (wr ≤ first + len))), 4),
           ((List.range n).all (fun i => !d.peekPoison (at_ i) 32), 0xA)] d (fun d =>
    okay (entriesReply 32 0 n wr ((List.range n).map (fun i => d.peekBytes (at_ i) 32))) d)

def telPeriod (bs : List Byte) (_ : Ctl) (d : Dev) : CmdRun :=
  let us := leAt bs 4 4
  checked [(decide (100 ≤ us) && decide (us ≤ 1000000), 4)] d (fun d => okay [] (d.modSilkai (fun m => { m with period := BitVec.ofNat 32 us })))

def ndTelemetry (bs : List Byte) (c : Ctl) (d : Dev) : CmdRun :=
  match leAt bs 0 1 with
  | 0 => telKerf bs c d
  | 1 => telPeriod bs c d
  | 2 => okay [] (rewriteTelemetry c d)
  | _ => fails 2 d

end Sys2Proof.Machine
end

