-- ==== Sys2Proof/Machine/NdJob.lean ====
section
/-! DEFINITION. The Ndeler commands of the schedule, of the parameters, and of fabric and groups (11, R420 to R426; R259, R278). -/

namespace Sys2Proof.Machine

open Sys2Proof

/-! ## ND_JIG_LOAD (R420) -/

/-- A failing check of the load: status, item (byte 0 of the reply), its number, its index. -/
abbrev LoadFail := Nat × Nat × Nat × Nat

/-- A queue entry of the load block. -/
structure LoadQueue where
  jig : Nat
  queue : Nat
  records : Nat
  base : Nat
  resv : Bool
  deriving DecidableEq, Repr

def loadQueueOf (bs : List Byte) (q : Nat) : LoadQueue :=
  let w0 := leAt bs (1152 + 16 * q) 8
  let w1 := leAt bs (1160 + 16 * q) 8
  { jig := bits w0 0 3, queue := bits w0 8 8, records := bits w0 16 32, base := bits w1 0 48, resv := bits w0 3 5 != 0 || bits w0 48 16 != 0 || bits w1 48 16 != 0 }

/-- The fields of the load block. -/
structure LoadBlock where
  nq : Nat
  look : Nat
  slot : Nat
  win : List Nat
  strm : List Nat
  entries : Nat
  kerfLen : Nat
  kerfBase : Nat
  restoreG : Nat
  restoreB : List Nat
  queues : List LoadQueue
  deriving DecidableEq, Repr

def loadBlockOf (bs : List Byte) : LoadBlock :=
  { nq := leAt bs 0 2, look := leAt bs 2 1, slot := leAt bs 4 4, win := (List.range 4).map (fun i => leAt bs (8 + 8 * i) 8),
    strm := (List.range 4).map (fun i => leAt bs (40 + 8 * i) 8), entries := leAt bs 72 4, kerfLen := leAt bs 76 4, kerfBase := leAt bs 80 8,
    restoreG := leAt bs 128 512, restoreB := (List.range 4).map (fun b => leAt bs (640 + 128 * b) 128), queues := (List.range (leAt bs 0 2)).map (loadQueueOf bs) }

/-- A failure of the load block at a byte offset. -/
def blockFail (st off q : Nat) : LoadFail := (st, 0xFE, q, off)

/-- Check 2: field ranges, queue entries (R227, R420, R243, R244, R249). -/
def loadFields (addr : Nat) (bs : List Byte) (x : LoadBlock) : Option LoadFail :=
  let at48 := fun (a m : Nat) => a % m == 0 && decide (a < 2 ^ 48)
  let fields : List (Nat × Bool) :=
    [(0, addr % 64 == 0), (0, decide (1 ≤ x.nq) && decide (x.nq ≤ 512)), (2, decide (1 ≤ x.look) && decide (x.look ≤ 8)), (4, decide (1 ≤ x.slot) && decide (x.slot ≤ 2 ^ 20))] ++
    x.win.zipIdx.map (fun p => (8 + 8 * p.2, at48 p.1 4096)) ++ x.strm.zipIdx.map (fun p => (40 + 8 * p.2, at48 p.1 64)) ++
    [(72, decide (1 ≤ x.entries) && decide (x.entries ≤ 65536)), (76, decide (1 ≤ x.kerfLen) && decide (x.kerfLen ≤ 2 ^ 20)), (80, at48 x.kerfBase 32)] ++
    ([3] ++ (List.range 40).map (fun i => 88 + i)).map (fun o => (o, leAt bs o 1 == 0))
  match fields.find? (fun f => !f.2) with
  | some f => some (blockFail 2 f.1 0xFFFF)
  | none =>
    x.queues.zipIdx.findSome? (fun p =>
      let q := p.1
      let at_ := 1152 + 16 * p.2
      let dup := (x.queues.take p.2).any (fun y => y.jig == q.jig && y.queue == q.queue)
      if q.resv then some (blockFail 2 at_ p.2)
      else if dup || decide (4 < q.jig) || decide ((if q.jig = 4 then 256 else 64) ≤ q.queue) then some (blockFail 2 at_ p.2)
      else if q.base % 64 ≠ 0 then some (blockFail 2 (at_ + 8) p.2)
      else none)

/-- The spans of checks 3 and 4, with the item each names. -/
def loadSpans (x : LoadBlock) : List ((Nat × Nat × Nat) × Nat × Nat) :=
  x.queues.map (fun q => ((q.jig, q.queue, 0xFFFFFFFF), q.base, 64 * q.records)) ++ x.strm.zipIdx.map (fun p => ((0xFF, p.2, 0xFFFFFFFF), p.1, 64 * x.entries)) ++
    [((0xFE, 0xFFFF, 80), x.kerfBase, 32 * x.kerfLen)] ++ x.win.zipIdx.map (fun p => ((0xFE, 0xFFFF, 8 + 8 * p.2), p.1, (x.look + 1) * x.slot * 4096))

/-- Checks 3 and 4: registered with ENGINE, in the near tier. -/
def loadPlaces (d : Dev) (x : LoadBlock) : Option LoadFail :=
  match (loadSpans x).find? (fun s => !d.engineSpan s.2.1 s.2.2) with
  | some s => some (4, s.1)
  | none => ((loadSpans x).find? (fun s => !d.isNear s.2.1 (max 1 s.2.2))).map (fun s => (6, s.1))

/-- The eight words of a record or a stream entry in memory. -/
def words64 (d : Dev) (a : Nat) : List Nat := wordsOf (d.peekBytes a 64)

/-- Bits of ADDR that a kind uses (R525). -/
def addrBits (kind : Nat) : Nat := match kind with | 1 => 21 | 2 => 21 | 3 => 21 | 4 => 21 | 5 => 32 | 6 => 48 | 7 => 16 | 8 => 1 | 9 => 16 | 10 => 48 | 11 => 48 | _ => 0

/-- Is a kind permitted in a jig (R231)? -/
def kindPermitted (jig kind : Nat) : Bool := if jig = 4 then [0, 6, 8, 9, 10, 11, 12].contains kind else decide (kind ≤ 12) && kind != 11

/-- Reserved fields and codes of a record, fields its kind does not use, LOOP targets (R230 to R232, R525). -/
def badRecord64 (jig idx : Nat) (ws : List Nat) : Bool :=
  let w := wordAt ws
  let r := jigRecOf ws
  let k := r.kind
  !kindPermitted jig k || bits (w 0) 8 8 != 0 || bits (w 0) 50 14 != 0 || bits (w 1) 48 16 != 0 || bits (w 2) 32 32 != 0 || bits (w 3) 12 20 != 0 ||
  bits (w 5) 15 17 != 0 || bitAt (w 6) 19 || bits (w 6) 22 10 != 0 || w 7 != 0 || decide (5 < r.sigTgt) || decide (4 < r.sigRjig) ||
  (r.mask != 0 && !(1 ≤ k && k ≤ 5)) || (r.stride != 0 && !usesStride k) || (r.hoist && k != 4) || (r.stager != 0 && !(k == 6 && jig == 4)) ||
  (r.jumps != 0 && k != 9) || (!r.waitEn && (bits (w 3) 0 12 != 0 || bits (w 3) 32 32 != 0 || w 4 != 0 || r.waitPeer)) ||
  (!r.sigEn && (r.sigTgt != 0 || r.sigCtr != 0 || r.sigAdd != 0)) || (!(r.sigEn && r.sigTgt == 5) && (r.sigNode != 0 || r.sigRjig != 0)) ||
  decide (2 ^ addrBits k ≤ r.addr) || (k == 9 && decide (idx ≤ r.addr))

/-- Bit 0 of each PHASE record. -/
def phaseBits (recs : List (List Nat)) : List Nat := ((recs.map jigRecOf).filter (fun r => r.kind == 8)).map (fun r => r.addr % 2)

/-- Check 5 on one queue: each record readable and sound, END last, the PHASE records as in the first queue. -/
def loadQueueCheck (d : Dev) (first : List Nat) (q : LoadQueue) : Option LoadFail :=
  let recs := (List.range q.records).map (fun i => words64 d (q.base + 64 * i))
  let bad := (List.range q.records).findSome? (fun i =>
    if d.peekPoison (q.base + 64 * i) 64 then some (0xA, q.jig, q.queue, i)
    else if badRecord64 q.jig i (words64 d (q.base + 64 * i)) then some (2, q.jig, q.queue, i) else none)
  match bad with
  | some f => some f
  | none =>
    if (recs.getLast?.map (fun ws => (jigRecOf ws).kind)) ≠ some 12 then some (2, q.jig, q.queue, if q.records = 0 then 0xFFFFFFFF else q.records - 1)
    else if phaseBits recs ≠ first then some (2, q.jig, q.queue, 0xFFFFFFFF) else none

/-- Checks 6 and 7 on one record: counters, GATE entries; active benches. -/
def badCounter64 (jig entries : Nat) (ws : List Nat) : Bool :=
  let r := jigRecOf ws
  (r.kind == 7 && decide (entries ≤ r.addr)) || (r.waitEn && decide (ctrCount jig ≤ bits (wordAt ws 3) 0 12)) ||
    (r.sigEn && decide (ctrCount (if r.sigTgt = 5 then r.sigRjig else r.sigTgt) ≤ r.sigCtr))
def badMask64 (d : Dev) (jig : Nat) (ws : List Nat) : Bool := decide (jig < 4) && decide (2 ^ bayCount d jig ≤ (jigRecOf ws).mask)

/-- A check of every record of every queue, in order. -/
def eachRecord (d : Dev) (x : LoadBlock) (st : Nat) (bad : Nat → List Nat → Bool) : Option LoadFail :=
  x.queues.findSome? (fun q => (List.range q.records).findSome? (fun i => if bad q.jig (words64 d (q.base + 64 * i)) then some (st, q.jig, q.queue, i) else none))

/-- A check of every stream entry: poison first, then `bad`. -/
def eachEntry (d : Dev) (x : LoadBlock) (st : Nat) (bad : List Nat → Bool) : Option LoadFail :=
  x.strm.zipIdx.findSome? (fun p => (List.range x.entries).findSome? (fun i =>
    if d.peekPoison (p.1 + 64 * i) 64 then some (0xA, 0xFF, p.2, i) else if bad (words64 d (p.1 + 64 * i)) then some (st, 0xFF, p.2, i) else none))

/-- Reserved fields of a stream entry, and FILL_WAIT_EN (R243). -/
def badEntry (ws : List Nat) : Bool :=
  let w := wordAt ws
  !bitAt (w 0) 18 || bits (w 0) 19 45 != 0 || bits (w 3) 12 20 != 0 || bits (w 4) 32 32 != 0 || w 5 != 0 || w 6 != 0 || w 7 != 0

/-- Checks 5 to 9. -/
def loadProgram (d : Dev) (x : LoadBlock) : Option LoadFail :=
  let q0 := x.queues.headD { jig := 0, queue := 0, records := 0, base := 0, resv := false }
  let first := phaseBits ((List.range q0.records).map (fun i => words64 d (q0.base + 64 * i)))
  match x.queues.findSome? (loadQueueCheck d first) with
  | some f => some f
  | none => match eachRecord d x 4 (fun j ws => badCounter64 j x.entries ws) with
    | some f => some f
    | none => match eachRecord d x 0xB (badMask64 d) with
      | some f => some f
      | none => match eachEntry d x 2 badEntry with
        | some f => some f
        | none => eachEntry d x 4 (fun ws => decide (x.slot < bits (wordAt ws 2) 32 32))

/-- The first poisoned line of a span, as an offset into it. -/
def poisonAt (d : Dev) (a n : Nat) : Option Nat := ((Memory.linesOf a n).find? (fun l => (d.current l).poison)).map (fun l => l * 64 - a)

/-- All checks of the load, in their order: the load block lies at `addr`. -/
def loadCheck (d : Dev) (addr len : Nat) : Option LoadFail :=
  if !d.engineSpan addr len then some (blockFail 4 0 0xFFFF)
  else if d.peekPoison addr 2 then some (blockFail 0xA 0 0xFFFF)
  else if len ≠ 1152 + 16 * leNat (d.peekBytes addr 2) then some (blockFail 3 0 0xFFFF)
  else match poisonAt d addr len with
    | some o => some (blockFail 0xA o (if o < 1152 then 0xFFFF else (o - 1152) / 16))
    | none =>
      let bs := d.peekBytes addr len
      let x := loadBlockOf bs
      match loadFields addr bs x with
      | some f => some f
      | none => match loadPlaces d x with
        | some f => some f
        | none => loadProgram d x

/-- A bitmap as 32-bit words by number. -/
def bitmapWords (v n : Nat) : Tab W32 := foldRange n [] (fun i t => tabSet 0 t i (BitVec.ofNat 32 (bits v (32 * i) 32)))

/-- What a restored load sets besides (R489): counters by jig, epoch, base step, step. -/
structure RestoredLoad where
  ctrs : List (Tab W32)
  epoch : Nat
  start : Nat
  step : Nat
  deriving DecidableEq, Repr

/-- Counters read from memory, 4 bytes each. -/
def readCtrs (d : Dev) (a n : Nat) : Tab W32 :=
  (chunksOf 4 (4 * n + 1) (d.peekBytes a (4 * n))).zipIdx.foldl (fun t p => tabSet 0 t p.2 (BitVec.ofNat 32 (leNat p.1))) []

/-- Is a load the restored one (R489): the load block of the manifest's jig section, with queues and stream tables equal to
the section's (R485)? -/
def restoredLoad (d : Dev) (addr len : Nat) (x : LoadBlock) : Option RestoredLoad :=
  match d.silkai.restored with
  | none => none
  | some (m, _) =>
    let recs := x.queues.flatMap (fun q => d.peekBytes q.base (64 * q.records))
    let tabs := x.strm.flatMap (fun a => d.peekBytes a (64 * x.entries))
    let a1 := addr + roundUp len 64
    let a2 := a1 + recs.length
    let a3 := a2 + tabs.length
    if addr ≠ m + d.peek32 (m + 208) then none
    else if d.peekPoison a1 (recs.length + tabs.length + 32768) || d.peekPoison m 256 then none
    else if d.peekBytes a1 recs.length ≠ recs ∨ d.peekBytes a2 tabs.length ≠ tabs then none
    else some { ctrs := (List.range 4).map (fun b => readCtrs d (a3 + 16384 + 4096 * b) 1024) ++ [readCtrs d a3 4096], epoch := leNat (d.peekBytes (m + 56) 2),
                start := d.peek64 (m + 24), step := d.peek64 (m + 16) }

/-- The queues of one jig as a load leaves them: their records read now (R229). -/
def loadQueues (d : Dev) (x : LoadBlock) (j : Nat) : Tab Queue :=
  (x.queues.filter (fun q => q.jig == j)).foldl (fun t q => tabPut t q.queue { base := q.base, recs := (List.range q.records).map (fun i => words64 d (q.base + 64 * i)) }) []

/-- One jig loaded: counters, snapshots and loop registers 0, or the recorded counters. -/
def loadJig (d : Dev) (x : LoadBlock) (r : Option RestoredLoad) (j : Nat) (y : Dev) : Dev :=
  let restore := if j = 4 then bitmapWords x.restoreG 128 else bitmapWords (x.restoreB.getD j 0) 32
  y.modJig j (fun g => { g with queues := loadQueues d x j, ctr := (r.map (fun r => r.ctrs.getD j [])).getD [], snap := [], restore := restore })

/-- One stager loaded. -/
def loadStager (d : Dev) (x : LoadBlock) (b : Nat) (y : Dev) : Dev :=
  y.modStager b (fun g =>
    { g with winBase := BitVec.ofNat 48 (x.win.getD b 0), slotSize := BitVec.ofNat 21 x.slot, streamBase := BitVec.ofNat 48 (x.strm.getD b 0),
             entries := BitVec.ofNat 17 x.entries, lookahead := BitVec.ofNat 4 x.look,
             table := (List.range x.entries).map (fun i => words64 d (x.strm.getD b 0 + 64 * i)), slots := [] })

/-- A load that passed its checks takes effect; early signals of the epoch that it sets are applied (R238, R420, R489). -/
def doLoad (addr len : Nat) (d : Dev) : Dev :=
  let bs := d.peekBytes addr len
  let x := loadBlockOf bs
  let r := restoredLoad d addr len x
  let d1 := foldRange 5 d (loadJig d x r)
  let d2 := foldRange 4 d1 (loadStager d x)
  let d3 := d2.modStream (fun m => { m with cur := 0, gates := [], kerfBase := BitVec.ofNat 48 x.kerfBase, kerfLen := BitVec.ofNat 21 x.kerfLen, kerfWr := 0 })
  let d4 := d3.modColl (fun m => { m with valid := false, lastRes := {}, named := [], ring := none })
  Dev.applyEarly (d4.modLife (fun l =>
    { l with loaded := true, reload := false, epoch := BitVec.ofNat 16 ((r.map (fun r => r.epoch)).getD 0), phaseK := 0, startStep := (r.map (fun r => r.start)).getD l.startStep,
             nextStep := r.map (fun r => r.step), interrupted := none, wasAborted := false, stopPending := none, putSegs := [], putMaps := [], loadBlock := bs, restoredLoad := r.isSome }))

/-- What a load reads, in order: the load block, the records of each queue, the stream tables. -/
def loadReads (d : Dev) (addr len : Nat) : List (Nat × Nat) :=
  let x := loadBlockOf (d.peekBytes addr len)
  (addr, len) :: (x.queues.map (fun q => (q.base, 64 * q.records)) ++ x.strm.map (fun a => (a, 64 * x.entries)))

def ndJigLoad (bs : List Byte) (c : Ctl) (d : Dev) : CmdRun :=
  let addr := leAt bs 0 8
  let len := leAt bs 8 4
  if len = 0 then okay (payloadOf 16 []) d else
  match loadCheck d addr len with
  | some (st, item, num, idx) => (.done st (payloadOf 16 [(0, 1, item), (2, 2, num), (4, 4, idx)]),
      if st = 0xA then (match (loadReads d addr len).find? (fun s => d.peekPoison s.1 s.2) with | some s => notePoison c s.1 s.2 d | none => d) else d)
  | none => okay (payloadOf 16 []) (doLoad addr len d)

/-! ## Start and stop (R421, R422) -/

def ndJigStart (bs : List Byte) (c : Ctl) (d : Dev) : CmdRun :=
  let r := startProgram c (leAt bs 0 8) d
  (.done r.1 [], r.2)

/-- A stop that takes effect at once (R242, R422): nothing runs but updates, which stop (R284). -/
def stopNow (unload : Bool) (d : Dev) : Dev :=
  let d1 := d.stopsPlanes.modLife (fun l => { l with update := false })
  Dev.stopDone (d1.modLife (fun l => { l with starting := false, stopPending := some unload }))

def ndJigStop (bs : List Byte) (_ : Ctl) (d : Dev) : CmdRun :=
  let unload := bitAt (leAt bs 0 4) 0
  checked [(decide (leAt bs 0 4 < 2), 2)] d (fun d =>
    if !d.life.loaded then okay [] d
    else if d.life.state = .idle ∨ d.life.state = .aborted then okay [] (stopNow unload d)
    else (.waits (.jigStop unload), d.modLife (fun l => { l with stopPending := some (l.stopPending.getD false || unload) })))

/-! ## ND_PANEL_DEFINE (R259 to R264, R423) -/

/-- No slot holds frames of the seal ring any more: they are zeroed and free (R272, R273). -/
def freeRing (d : Dev) : Dev :=
  ((tabKeys d.opt.ringUsed).foldl (fun x f => x.poke (d.opt.ringBase.toNat + f * 0x200000) (List.replicate 0x200000 0)) d).modOpt (fun o => { o with ringUsed := [], ringHead := 0 })

/-- Every update cut short and every panel definition goes (R48, R423). -/
def discardPanels (d : Dev) : Dev :=
  let drop := fun (p : Plane) => { p with state := .idle, cur := none, stopped := [], rerun := [], owed := [], due := [], inbox := [], transfer := none, asks := [], parked := [], outq := [] }
  let d1 : Dev := { d with planes := tabMap {} d.planes drop }
  let d2 := (freeRing d1).modOpt (fun o => { o with panels := [], panelIndex := [] })
  ((d2.aux.ors.foldl (fun x o => dropOrs o x) d2).modAux (fun x => { x with runs := [], openers := [] })).modLife (fun l => { l with update := false })

/-- The staging areas that a panel table names, 64 MiB each (R282), in regions registered with ENGINE (R416). DESIGN CHOICE (log 84): 0 is none. -/
def stageAreas (d : Dev) (bs : List Byte) : Bool :=
  (List.range 8).all (fun h => leAt bs (24 + 8 * h) 8 == 0 || d.engineSpan (leAt bs (24 + 8 * h) 8) 0x4000000)

def panelTable (bs : List Byte) (_ : Ctl) (d : Dev) : CmdRun :=
  let base := leAt bs 8 8
  let cap := leAt bs 16 4
  checked [(base % 256 == 0 && decide (1 ≤ cap) && decide (cap ≤ 65536), 2), (d.engineSpan base (256 * cap) && stageAreas d bs, 4), (d.isNear base (256 * cap), 6)] d (fun d =>
    let d1 := foldRange 8 (discardPanels d) (fun h x => x.modPlane h (fun p =>
      { p with panelBase := BitVec.ofNat 48 base, panelCount := BitVec.ofNat 17 cap, stageBase := BitVec.ofNat 48 (leAt bs (24 + 8 * h) 8) }))
    okay [] (d1.modSilkai (fun m => { m with panelTable := true })))

/-- An array of a near panel: 4 KiB-aligned, in the near tier. -/
def nearArray (d : Dev) (a n : Nat) : Bool := a % 4096 == 0 && d.isNear a (max 1 n)

/-- A map of a far panel: 64-byte aligned, in the near tier (R207, R261). -/
def farMap (d : Dev) (a : Nat) : Bool := a % 64 == 0 && d.isNear a 64

/-- Reserved fields and codes of a header (R260, R264). -/
def headerResv (ws : List Nat) : Bool :=
  let w := wordAt ws
  bits (w 0) 2 6 != 0 || bits (w 1) 53 11 != 0 || bits (w 1) 36 2 == 3 || bits (w 2) 48 16 != 0 || bits (w 3) 44 20 != 0 || bits (w 5) 48 16 != 0 ||
  bits (w 7) 48 16 != 0 || (List.range 5).any (fun i => bits (w (8 + i)) 48 16 != 0 || bits (w (16 + i)) 48 16 != 0) ||
  (List.range 3).any (fun i => w (13 + i) != 0) || (List.range 11).any (fun i => w (21 + i) != 0)

/-- Does a header meet R260, R261 and R264 (check 4)? The V rule is checked against the newest entry of the set, if it has one. -/
def headerOk (d : Dev) (ws : List Nat) : Bool :=
  let p := panelOfWords 0 ws
  let adam := (tabGet [] d.opt.sets p.optSet).getLast?.map (fun e => e.alg == 0)
  let arrays := fun (v : List Nat) => (v.zip p.widths).zipIdx.all (fun a =>
    if (a.2 = 2 ∨ a.2 = 3) ∧ a.1.1 = 0 then true else if p.far then farMap d a.1.1 else nearArray d a.1.1 (a.1.2 * p.nparam))
  !headerResv ws && decide (p.lag ≤ 4) && (p.far || p.lag == 0) && (!p.sealOn || (p.far && p.role == 0)) &&
  [p.ver0, p.ver1].all (fun v => (v.getD 3 0 != 0) == p.emaEn && (match adam with | some b => (v.getD 2 0 != 0) == b | none => true) && arrays v) &&
  (if p.far then farMap d p.pub else nearArray d p.pub (2 * p.nparam)) &&
  (p.role != 0 || nearArray d p.ledger (4096 + (if p.sealOn then 0 else 4 * p.nparam * p.slots)))

/-- Every slot of a panel's ledger FREE, its data +0, cursors and run records zero; SEAL_MAP, which the runtime supplies, stays (R267, R333,
R346). -/
def freshSlots (p : Panel) (d : Dev) : Dev :=
  foldRange p.slots d (fun j x =>
    let y := putRuns p j (x.poke (slotAddr p j) (List.replicate 32 0))
    if p.sealOn then y else writeSlot p j 0 (List.replicate (p.nparam * 4) 0) y)

/-- The frames of the seal ring are free, and so all +0 (R267, R272, R273). -/
def freshRing (ring frames : Nat) (d : Dev) : Dev := foldRange frames d (fun f x => x.poke (ring + f * 0x200000) (List.replicate 0x200000 0))

/-- The runs of owner panels behind a new one take their new places (R333). -/
def replaceRuns (idx : Nat) (d : Dev) : Dev :=
  ((ownerPanels d).filter (fun p => decide (idx < p.idx))).foldl (fun x p => foldRange p.slots x (fun j y => putRuns p j y)) d

/-- A header written at an index with a commit word, known to the panel index; an owner's slots are FREE and its run records
zero (R266, R328, R333, R346). -/
def definePanel (idx commit : Nat) (bs : List Byte) (d : Dev) : Dev :=
  let a := panelAddr d idx
  let d1 := d.poke a (natLE 8 commit ++ bs.drop 8)
  let p := panelAt d1 idx
  let d2 := d1.modOpt (fun o => { o with panels := tabPut o.panels idx true, panelIndex := tabPut o.panelIndex p.id idx })
  let d3 := d2.modAux (fun x => { x with runs := x.runs.filter (fun r => r.1 / 2 ^ 40 != idx) })
  if p.role = 0 then replaceRuns idx (freshSlots p d3) else d3

def panelDefine (bs : List Byte) (c : Ctl) (d : Dev) : CmdRun :=
  let n := leAt bs 4 4
  let src := leAt bs 8 8
  let idx := leAt bs 16 4
  let raw := fun (i : Nat) => d.peekBytes (src + 256 * i) 256
  let hs := (List.range n).map (fun i => wordsOf (raw i))
  let ps := hs.map (panelOfWords 0)
  let live := (ps.zipIdx.filter (fun p => p.1.nparam != 0))
  let ids := live.map (fun p => p.1.id)
  let old := panels d
  checked [(d.silkai.panelTable, 6), (decide (idx + n ≤ (d.plane 0).panelCount.toNat), 4), (n == 0 || (d.engineSpan src (256 * n)), 4), (n == 0 || d.isNear src (256 * n), 6)] d (fun d =>
    checkedRead c [(src, 256 * n)] [(!d.peekPoison src (256 * n), 0xA), (hs.all (headerOk d), 2), (ps.all (fun p => p.nparam % 2048 == 0 && decide (p.nparam ≤ 2 ^ 28)), 4),
             (decide (ids.eraseDups.length = ids.length) && !old.any (fun p => ids.contains p.id) && !live.any (fun p => (tabFind d.opt.panels (idx + p.2)).isSome), 6),
             (decide ((old.map areaOf).sum + (live.map (fun p => areaOf p.1)).sum ≤ d.aux.oraLen - 0x8000000), 5)] d (fun d =>
      okay [] (live.foldl (fun x p => definePanel (idx + p.2) 0 (raw p.2) x) d)))

def ndPanelDefine (bs : List Byte) (c : Ctl) (d : Dev) : CmdRun :=
  match leAt bs 0 1 with
  | 0 => panelTable bs c d
  | 1 => panelDefine bs c d
  | _ => fails 2 d

/-! ## ND_OPT_CONFIG (R278, R423) -/

/-- A signed byte. -/
def signedByte (v : Nat) : Int := signed 8 v

/-- Every micro-batch below `n` appears in some member's mask (R339). -/
def masksCover (masks : List Nat) (n : Nat) : Bool := (List.range n).all (fun m => masks.any (fun x => bitAt x m))

def optJob (bs : List Byte) (_ : Ctl) (d : Dev) : CmdRun :=
  let fl := leAt bs 1 1
  let mb := leAt bs 2 2
  let mbMin := leAt bs 4 2
  let ini := signedByte (leAt bs 6 1)
  let lo := signedByte (leAt bs 7 1)
  let hi := signedByte (leAt bs 8 1)
  let clip := leAt bs 16 8
  let ring := leAt bs 32 8
  let frames := leAt bs 40 4
  let sealing := bitAt fl 1
  let clipOk := bits clip 52 11 != 0x7FF && (!bitAt clip 63 || clip == 2 ^ 63)
  if fl < 8 ∧ (mb = 0 ∨ (sealing ∧ frames = 0)) then okay [] d else
  checked [(decide (fl < 8) && decide (lo ≤ ini) && decide (ini ≤ hi) && decide (mbMin ≤ mb) && decide (mb ≤ 8192) && clipOk, 2),
           (!sealing || (ring % 0x200000 == 0 && d.isNear ring (frames * 0x200000)), 6), (!sealing || d.engineSpan ring (frames * 0x200000), 4),
           ((match clampGroup d with | some g => masksCover g.2.mbMask mb | none => true), 3)] d (fun d =>
    let d1 := d.modOpt (fun o =>
      { o with ordered := bitAt fl 0, sealing := sealing, lsDynamic := bitAt fl 2, lsInit := ini, lsMin := lo, lsMax := hi, lsInterval := BitVec.ofNat 32 (leAt bs 12 4),
               mbCount := mb, mbMin := mbMin, clipNorm := BitVec.ofNat 64 clip, seed := BitVec.ofNat 64 (leAt bs 24 8), ringBase := BitVec.ofNat 48 ring,
               ringFrames := BitVec.ofNat 18 (if sealing then frames else 0), ringHead := 0, ringUsed := [], lossScale := BitVec.ofNat 32 (to32 (.fin false 1 ini)), goodSteps := 0, configured := true })
    okay [] ((if sealing then freshRing ring frames d1 else d1).modSilkai (fun m => { m with jobPayload := bs })))

/-- Steps that updates of a set's panels need now (R278): due or in hand. -/
def stepsNeeded (d : Dev) (set : Nat) : List Nat :=
  (d.planes.flatMap (fun p => p.2.due ++ p.2.stopped ++ (p.2.cur.toList.map (fun u => (u.idx, u.step))))).filterMap (fun x => if (panelAt d x.1).optSet = set then some x.2 else none)

/-- An entry as the payload of ENTRY gives it, from its byte 0. -/
def optEntryOf (bs : List Byte) : OptEntry :=
  { alg := leAt bs 2 1, nesterov := leAt bs 3 1 == 1, applyStep := leAt bs 8 8, eta := leAt bs 16 4, lam := leAt bs 20 4, beta1 := leAt bs 24 4, beta2 := leAt bs 28 4,
    eps := leAt bs 32 4, mu := leAt bs 36 4, gamma := leAt bs 40 4 }

def optEntry (bs : List Byte) (_ : Ctl) (d : Dev) : CmdRun :=
  let set := leAt bs 1 1
  let e := optEntryOf bs
  let es := tabGet [] d.opt.sets set
  let cur : Int := if d.life.started then (d.life.step.toNat : Int) else -1
  let full := decide (8 ≤ es.length)
  checked [(decide (set < 16) && decide (e.alg < 3) && decide (leAt bs 3 1 < 2) && !(e.nesterov && e.alg != 2), 2),
           (!(full && decide (cur - 4 < ((es.getD 1 {}).applyStep : Int))), 1),
           (decide (cur < (e.applyStep : Int)) && es.all (fun x => decide (x.applyStep < e.applyStep)) && (stepsNeeded d set).all (fun n => es.any (fun x => decide (x.applyStep ≤ n))), 6)] d (fun d =>
    okay [] (d.modOpt (fun o => { o with sets := tabPut o.sets set ((if full then es.drop 1 else es) ++ [e]) })))

def ndOptConfig (bs : List Byte) (c : Ctl) (d : Dev) : CmdRun :=
  match leAt bs 0 1 with
  | 0 => optJob bs c d
  | 1 => optEntry bs c d
  | _ => fails 2 d

/-! ## Joining the fabric (R298, R334, R424, R426) -/

/-- Reserved bytes of a join block: bytes 3, 644 to 647, and bits above the fields of DSCP and NEXT_HOP. -/
def joinResv (bs : List Byte) : Bool :=
  leAt bs 3 1 != 0 || leAt bs 644 4 != 0 || leAt bs 56 8 != 0 || (List.range 8).any (fun i => decide (64 ≤ leAt bs (48 + i) 1)) ||
    (List.range 64).any (fun p => leAt bs (64 + 8 * p + 6) 2 != 0) || decide (1 < leAt bs 2 1)

/-- The IP address of a node-table entry, as a number whose low bits are the address's last. -/
def nodeIp (bs : List Byte) (v6 : Bool) : Nat := if v6 then beNat bs else beNat (bs.drop 12)

/-- Nodes become watched, the part itself apart, up to 1,024 in all (R334). -/
def watchNodes (now : Nat) (ms : List Nat) (d : Dev) : Dev :=
  ms.foldl (fun x m =>
    if m = x.fab.node.toNat ∨ (x.node m).watched ∨ 1024 ≤ (x.fab.nodes.filter (fun n => n.2.watched)).length then x
    else x.modNode m (fun n => { n with watched := true, lastSeen := now })) d

/-- Members of the groups that watch theirs. -/
def groupWatched (d : Dev) : List Nat := (d.coll.groups.filter (fun p => p.2.watch)).flatMap (fun p => p.2.members)

/-- The node table of a join. -/
def joinNodes (now : Nat) (v6 : Bool) (tab : List Byte) (watch : List Nat) (n : Nat) : Tab Node :=
  let listed := (chunksOf 16 (n + 1) tab).zipIdx.foldl (fun t p =>
    tabPut t p.2 { ip := BitVec.ofNat 128 (nodeIp p.1 v6), live := true, watched := watch.contains p.2, byJoin := watch.contains p.2, lastSeen := now }) ([] : Tab Node)
  (watch.filter (fun w => decide (n ≤ w))).foldl (fun t w => tabPut t w { watched := true, byJoin := true, lastSeen := now }) listed

/-- Does a raw ring lie in a region registered with ENGINE, header and slots (R416, R425)? 0 is no ring. -/
def ringSpan (d : Dev) (ring : Nat) : Bool := ring == 0 || (d.engineSpan ring 64 && d.engineSpan ring (64 + 10240 * d.peek32 ring))

/-- Do the areas that a join block names lie in regions registered with ENGINE (R416)? -/
def joinAreas (d : Dev) (blk : List Byte) : Bool :=
  d.engineSpan (leAt blk 16 8) (leAt blk 24 8) && ringSpan d (leAt blk 32 8) && ringSpan d (leAt blk 40 8)

def ndFabJoin (bs : List Byte) (c : Ctl) (d : Dev) : CmdRun :=
  let a := leAt bs 0 8
  let len := leAt bs 8 4
  let blk := d.peekBytes a 648
  let nw := leAt blk 640 4
  let nodes := leAt blk 4 4
  let tabA := leAt blk 8 8
  let n := min nodes 65536
  let v6 := leAt blk 2 1 == 1
  if len = 0 then okay [] d else
  checkedRead c [(a + 640, 4)] [(d.engineSpan a len, 4), (!(decide (648 ≤ len) && d.peekPoison (a + 640) 4), 0xA), (decide (len = 648 + 2 * nw), 3)] d (fun d =>
    let tab := d.peekBytes tabA (16 * n)
    checkedRead c [(a, 648), (tabA, 16 * n), (a + 648, 2 * nw)] [(!d.peekPoison a 648, 0xA), (!joinResv blk, 2), (d.engineSpan tabA (16 * n), 4), (!d.peekPoison tabA (16 * n), 0xA),
             ((List.range n).all (fun i => leAt tab (16 * i + 15) 1 % 64 == 0), 2), (decide (leAt blk 0 2 < nodes) && decide (nodes ≤ 65536) && decide (nw ≤ 1024) && joinAreas d blk, 4),
             (decide (0x8000000 ≤ leAt blk 24 8), 5), (!d.peekPoison (a + 648) (2 * nw), 0xA)] d (fun d =>
      let ws := d.peekBytes (a + 648) (2 * nw)
      let watch := (List.range nw).map (fun i => leAt ws (2 * i) 2)
      let d1 := d.modFab (fun f =>
        { f with node := BitVec.ofNat 16 (leAt blk 0 2), joined := true, leaving := false, ipv6 := v6, nodes := joinNodes c.now v6 tab watch n,
                 dscp := foldRange 8 [] (fun i t => tabSet 0 t i (leAt blk (48 + i) 1)), mac := foldRange 64 [] (fun p t => tabSet 0 t p (leAt blk (64 + 8 * p) 6)),
                 ports := foldRange 64 f.ports (fun p t => tabMod {} t p (fun q => { q with pfcEn := BitVec.ofNat 8 (leAt blk (576 + p) 1) })) })
      okay [] (watchNodes c.now (groupWatched d) (d1.modAux (fun x => { x with oraBase := leAt blk 16 8, oraLen := leAt blk 24 8, rawRx := leAt blk 32 8, rawTx := leAt blk 40 8 })))))

/-- Is every context CLOSED? -/
def allClosed (d : Dev) : Bool := d.fab.flows.all (fun f => f.2.state == .closed)

/-- Heartbeats stop, JOINED clears. -/
def leaveDone (d : Dev) : Dev := d.modFab (fun f => { f with joined := false, leaving := false })

/-- An OPEN context starts to drain; with nothing in flight it is CLOSED at once (R308). -/
def closeFlow (f : Nat) (d : Dev) : Dev :=
  match (d.flow f).state with
  | .opn => drainFlow f (d.modFlow f (fun x => { x with state := .draining }))
  | .failed => d.modFlow f (fun x => { x with state := .closed })
  | .opening => d.modFlow f (fun x => { x with state := .closed })
  | _ => d

def ndFabLeave (_ : List Byte) (_ : Ctl) (d : Dev) : CmdRun :=
  let opn := (d.fab.flows.filter (fun f => f.2.state == .opn)).map Prod.fst
  let d1 := opn.foldl (fun x f => closeFlow f x) (d.modFab (fun f => { f with leaving := true }))
  if allClosed d1 then okay [] (leaveDone d1) else (.waits .fabLeave, d1)

/-! ## Flows (R307, R308, R426) -/

/-- The reply of ND_FLOW_OPEN. -/
def flowReply (f : Flow) : List Byte := payloadOf 8 [(0, 1, f.gen.toNat), (1, 1, f.peerGen.toNat)]

def ndFlowOpen (bs : List Byte) (c : Ctl) (d : Dev) : CmdRun :=
  let f := leAt bs 0 2
  let peer := leAt bs 2 2
  let nd := d.node peer
  checked [(decide (leAt bs 6 1 ≤ 15) && decide (leAt bs 7 1 ≤ 7), 2), (nd.live && !nd.lost, 6), ((d.flow f).state == .closed, 1)] d (fun d =>
    let x : Flow := { state := .opening, gen := (d.flow f).gen + 1, paths := BitVec.ofNat 4 (leAt bs 6 1), tc := BitVec.ofNat 3 (leAt bs 7 1), peerNode := peer,
                      peerFlow := leAt bs 4 2, portMask := BitVec.ofNat 64 (leAt bs 8 8),
                      rxOrs := BitVec.ofNat 32 (d.aux.ors.filter (fun o => o.flow == f)).length }
    (.waits (.flowOpen f x.gen.toNat), sendOpen c f false (d.modFlow f (fun _ => x))))

def ndFlowClose (bs : List Byte) (_ : Ctl) (d : Dev) : CmdRun :=
  let f := leAt bs 0 2
  let d1 := closeFlow f d
  if (d1.flow f).state = .closed then okay [] d1 else (.waits (.flowClose f), d1)

/-! ## Groups (R337 to R339, R426) -/


def groupDefine (bs : List Byte) (c : Ctl) (d : Dev) : CmdRun :=
  let id := leAt bs 2 2
  let n := leAt bs 4 4
  let fan := leAt bs 8 1
  let fl := leAt bs 9 1
  let list := leAt bs 16 8
  let mask := leAt bs 24 8
  let clamp := bitAt fl 0
  checked [(decide (id ≠ 0) && (fan == 0 || (decide (2 ≤ fan) && decide (fan ≤ 16))) && decide (fl < 4) && decide (n ≤ 65536), 2)] d (fun d =>
    if n = 0 then okay [] d else
    let raw := d.peekBytes list (4 * n)
    let members := (List.range n).map (fun i => leAt raw (4 * i) 2)
    let flows := (List.range n).map (fun i => leAt raw (4 * i + 2) 2)
    checkedRead c [(list, 4 * n), (mask, 1024 * n)] [(!clamp || d.engineSpan mask (1024 * n), 4), (d.engineSpan list (4 * n), 4), (!d.peekPoison list (4 * n), 0xA), (decide (members.eraseDups.length = n), 2),
             ((tabFind d.coll.groups id).isNone && !(clamp && (clampGroup d).isSome), 1), (decide (d.coll.groups.length < 256), 5), (members.contains d.fab.node.toNat, 6),
             (!(clamp && d.peekPoison mask (1024 * n)), 0xA)] d (fun d =>
      let masks := if clamp then (List.range n).map (fun i => leNat (d.peekBytes (mask + 1024 * i) 1024)) else []
      checked [(!clamp || !d.opt.configured || masksCover masks d.opt.mbCount, 3)] d (fun d =>
        let g : Group := { members := members, flows := flows, fanout := if fan = 0 then 8 else fan, clamp := clamp, watch := bitAt fl 1, mbMask := masks }
        let d1 := d.modColl (fun m => { m with groups := tabPut m.groups id g })
        okay [] (if g.watch then watchNodes c.now (members.filter (fun m => m != d.fab.node.toNat)) d1 else d1))))

/-- Does a loaded program name a group (R426)? -/
def groupNamed (d : Dev) (id : Nat) (g : Group) : Bool :=
  d.life.loaded && (g.clamp || d.coll.named.contains id || (panels d).any (fun p => p.sigGroup == id || p.replGroup == id))

/-- Nodes that nothing watches any more, neither the join nor a group that stays. -/
def unwatch (kept : List Nat) (d : Dev) : Dev :=
  d.modFab (fun f => { f with nodes := f.nodes.foldl (fun t n => tabMod {} t n.1 (fun x => { x with watched := x.watched && (x.byJoin || kept.contains n.1) })) f.nodes })

def groupDelete (bs : List Byte) (c : Ctl) (d : Dev) : CmdRun :=
  let id := leAt bs 2 2
  if 4 ≤ leAt bs 9 1 then fails 2 d else
  match tabFind d.coll.groups id with
  | none => fails 6 d
  | some g =>
    checked [(!groupNamed d id g, 1)] d (fun d =>
      let d1 := d.modColl (fun m => { m with groups := tabDel m.groups id })
      okay [] (watchNodes c.now (groupWatched d1) (unwatch (groupWatched d1) d1)))

def ndCollGroup (bs : List Byte) (c : Ctl) (d : Dev) : CmdRun :=
  match leAt bs 0 1 with
  | 0 => groupDefine bs c d
  | 1 => groupDelete bs c d
  | _ => fails 2 d

end Sys2Proof.Machine
end

