-- ==== Sys2Proof/Machine/NdReshard.lean ====
section
/-! DEFINITION. ND_RESHARD (13, R427, R469 to R474): the checks of a plan, the dovetail built from it, the actions, and the order in which a
member runs them. -/

namespace Sys2Proof.Machine

open Sys2Proof

/-! ## Checks of a plan (R469, R474) -/

/-- CHECK: the CRC-32C of the plan with that field zero. -/
def planCheckOk (bs : List Byte) : Bool := crc32c (bs.take 20 ++ List.replicate 4 0 ++ bs.drop 24) == leAt bs 20 4

/-- Two moves write overlapping ranges of one member. -/
def writesMeet (a b : DoveMove) : Bool := a.dst == b.dst && overlaps a.dstAddr (a.blocks * 4096) b.dstAddr (b.blocks * 4096)

/-- A move reads and writes overlapping ranges of one member. -/
def meetsSelf (m : DoveMove) : Bool := m.src == m.dst && overlaps m.srcAddr (m.blocks * 4096) m.dstAddr (m.blocks * 4096)

/-- Fields and codes of a plan that must be zero, and the overlaps it may not have (R469, R474). -/
def planBad (p : Plan) : Bool :=
  p.resv || p.acts.any (fun a => a.resv || decide (4 < a.act)) || p.moves.any (fun m => m.resv || m.wave != 0 || m.srcScr || m.dstScr || meetsSelf m) ||
    !pairwiseOk writesMeet p.moves

/-! ## The build (R472) -/

/-- A move of the build: its wave, 0 for none, and the cut it is a half of. -/
structure BuildMove where
  m : DoveMove
  cut : Option Nat := none
  second : Bool := false
  deriving DecidableEq, Repr

/-- Does A precede B: A reads what B writes, or A and B are the halves of one cut in order? -/
def precedes (a b : BuildMove) : Bool :=
  if a.cut.isSome ∧ a.cut = b.cut then !a.second && b.second
  else a.m.src == b.m.dst && a.m.srcScr == b.m.dstScr && overlaps a.m.srcAddr (a.m.blocks * 4096) b.m.dstAddr (b.m.blocks * 4096)

/-- Moves without a wave all of whose predecessors have one. -/
def readyMoves (ms : List BuildMove) : List BuildMove :=
  let wait := ms.filter (fun x => x.m.wave == 0)
  wait.filter (fun b => wait.all (fun a => a == b || !precedes a b))

/-- The two halves of a move, through the scratch of its destination at a byte offset. -/
def cutMove (cut off : Nat) (x : BuildMove) : List BuildMove :=
  [{ m := { x.m with dstScr := true, dstAddr := off }, cut := some cut }, { m := { x.m with src := x.m.dst, srcScr := true, srcAddr := off }, cut := some cut, second := true }]

/-- The build: by wave, with the scratch blocks each member has used; `room` answers a member's SCRATCH_BLOCKS. The end is the
moves, or the status NO_SPACE or LEN_RANGE. -/
def buildWaves (room : Nat → Nat) : Nat → Nat → Nat → Tab Nat → List BuildMove → Nat ⊕ (Nat × List BuildMove)
  | 0, _, _, _, _ => .inl 4
  | fuel + 1, w, cuts, used, ms =>
    match ms.find? (fun x => x.m.wave == 0) with
    | none => .inr (w - 1, ms)
    | some x =>
      let r := readyMoves ms
      if r.isEmpty then
        let off := tabGet 0 used x.m.dst
        if room x.m.dst < off + x.m.blocks then .inl 5
        else buildWaves room fuel w (cuts + 1) (tabSet 0 used x.m.dst (off + x.m.blocks)) (ms.flatMap (fun y => if y = x then cutMove cuts (off * 4096) x else [y]))
      else if 255 < w then .inl 4
      else buildWaves room fuel (w + 1) cuts used (ms.map (fun y => if r.contains y then { y with m := { y.m with wave := w } } else y))

/-- SCRATCH_BLOCKS of a member, by the plan. -/
def scratchOf (g : Group) (p : Plan) (node : Nat) : Nat := match rankOf g node with | some r => p.scratch.getD r 0 | none => 0

/-- The dovetail of a plan: waves and moves. -/
def buildPlan (g : Group) (p : Plan) (max : Nat) : Nat ⊕ (Nat × List DoveMove) :=
  match buildWaves (scratchOf g p) (512 + p.moves.length + max + p.scratch.sum) 1 0 [] (p.moves.map (fun m => { m := m })) with
  | .inl st => .inl st
  | .inr (w, ms) => if max < ms.length then .inl 4 else .inr (w, ms.map (fun x => x.m))

/-- A move entry in memory (R360). -/
def doveMoveBytes (m : DoveMove) : List Byte :=
  natLE 8 (m.src + m.dst * 2 ^ 16 + m.wave * 2 ^ 32 + b2n m.tag * 2 ^ 40 + b2n m.srcScr * 2 ^ 41 + b2n m.dstScr * 2 ^ 42) ++ natLE 8 m.srcAddr ++ natLE 8 m.dstAddr ++ natLE 8 m.blocks

/-- A dovetail descriptor in memory (R360). -/
def doveBytes (group waves scratch blocks : Nat) (ms : List DoveMove) : List Byte :=
  natLE 8 (group + waves * 2 ^ 16 + ms.length * 2 ^ 32) ++ natLE 8 scratch ++ natLE 8 blocks ++ List.replicate 40 0 ++ ms.flatMap doveMoveBytes

/-! ## The actions (R470, R471) -/

/-- A status, 0 for OK, and the device after an action. -/
abbrev ActRun := Nat × Dev

/-- The header of a panel, by the panel index. -/
def headerOf (d : Dev) (id : Nat) : Option Panel :=
  match tabFind d.opt.panelIndex id with
  | some i => let p := panelAt d i; if p.id = id ∧ (tabFind d.opt.panels i).isSome then some p else none
  | none => none

/-- Word 1 of a header with ROLE and UNTWINNED for a twin. -/
def twinnedWord (d : Dev) (p : Panel) (owner : Bool) (twin : Nat) : Nat :=
  let w := d.peek64 (panelAddr d p.idx + 8)
  setBit (if owner then setBit (setBit w 36 false) 37 false else w) 52 (twin == 0)

/-- PROMOTE. An owner panel needs its cursors and run records placed (R333, R346). -/
def actPromote (a : PlanAct) (d : Dev) : ActRun :=
  match headerOf d a.panel with
  | none => (6, d)
  | some p =>
    if p.role = 0 then (if p.ledger = a.addr ∧ p.twinHdr = a.twin then (0, d) else (6, d))
    else if p.commit ≠ a.commit then (6, d)
    else if !(d.engineSpan a.addr (64 * p.slots) && d.isNear a.addr (64 * p.slots)) then (4, d)
    else if d.aux.oraLen - 0x8000000 < ((panels d).map areaOf).sum + areaOf { p with role := 0 } then (5, d)
    else
      let h := panelAddr d p.idx
      let d1 := (((d.poke64 (h + 8) (twinnedWord d p true a.twin)).poke64 (h + 24) a.fields).poke64 (h + 32) a.twin).poke64 (h + 40) a.addr
      let d2 := freshSlots { p with ledger := a.addr } (d1.poke64 (h + 48) a.expect)
      (0, (d2.modAux (fun x => { x with runs := x.runs.filter (fun r => r.1 / 2 ^ 40 != p.idx) })).modOpt (fun o => { o with panelIndex := tabPut o.panelIndex p.id p.idx }))

/-- SET_TWIN. -/
def actSetTwin (a : PlanAct) (d : Dev) : ActRun :=
  match headerOf d a.panel with
  | none => (6, d)
  | some p =>
    if p.role ≠ 0 then (6, d) else
    let h := panelAddr d p.idx
    (0, (d.poke64 (h + 8) (twinnedWord d p false a.twin)).poke64 (h + 32) a.twin)

/-- DROP: an absent header is one dropped already. Stored contributions and ring frames of its ledger slots go with it (R272, R332). -/
def actDrop (a : PlanAct) (d : Dev) : ActRun :=
  match headerOf d a.panel with
  | none => (0, d)
  | some p =>
    let maps := if p.far then ((p.ver0 ++ p.ver1).filter (fun m => m != 0)).eraseDups else []
    let d0 := maps.foldl (fun x m => releaseImage m x) d
    let open_ := (List.range p.slots).filter (fun j => p.role == 0 && p.sealOn && ((slotAt d p j).state == 1 || (slotAt d p j).state == 2))
    let d1 := (d.aux.ors.filter (fun o => o.panel == p.idx)).foldl (fun x o => dropOrs o x) (open_.foldl (fun x j => giveFrames p j x) d0)
    let d2 := d1.modOpt (fun o => { o with panels := tabDel o.panels p.idx, panelIndex := tabDel o.panelIndex p.id })
    (0, d2.modAux (fun x => { x with runs := x.runs.filter (fun r => r.1 / 2 ^ 40 != p.idx) }))

/-- ADOPT: the checks of ND_PANEL_DEFINE, with their statuses, then COMMIT. -/
def actAdopt (c : Ctl) (a : PlanAct) (d : Dev) : ActRun :=
  let idx := bits a.fields 0 17
  let bs := d.peekBytes a.addr 256
  let ws := wordsOf bs
  let p := panelOfWords idx ws
  let here := panelAt d idx
  if (tabFind d.opt.panels idx).isSome ∧ here.id = a.panel ∧ here.commit = a.commit then (0, d)
  else match firstFail [(d.silkai.panelTable, 6), (decide (idx < (d.plane 0).panelCount.toNat), 4), (d.engineSpan a.addr 256, 4), (d.isNear a.addr 256, 6), (!d.peekPoison a.addr 256, 0xA),
      (headerOk d ws, 2), (p.nparam % 2048 == 0 && decide (p.nparam ≤ 2 ^ 28), 4),
      (p.nparam != 0 && p.id == a.panel && p.commit == a.commit && (tabFind d.opt.panels idx).isNone && !(panels d).any (fun q => q.id == p.id), 6),
      (decide (((panels d).map areaOf).sum + areaOf p ≤ d.aux.oraLen - 0x8000000), 5)] with
    | some st => (st, if st = 0xA then notePoison c a.addr 256 d else d)
    | none => (0, definePanel idx a.commit bs d)

/-- One action. -/
def planAct (c : Ctl) (a : PlanAct) (d : Dev) : ActRun :=
  match a.act with
  | 0 => actPromote a d
  | 1 => actSetTwin a d
  | 2 => actDrop a d
  | _ => actAdopt c a d

/-- Actions other than FAR_COPY that name this member, in plan order, until one fails. -/
def runActs (c : Ctl) (p : Plan) (d : Dev) : ActRun :=
  (p.acts.filter (fun a => a.node == d.fab.node.toNat && a.act != 4)).foldl (fun r a => if r.1 ≠ 0 then r else planAct c a r.2) (0, d)

/-! ## Running (R473) -/

/-- The FAR_COPY actions, then the first barrier. -/
def startReshard (c : Ctl) (group plan desc first : Nat) (d : Dev) : Dev :=
  copyActs c (copiesOf d (planAt d plan) 0) (d.modColl (fun m => { m with reshard := some { group := group, plan := plan, desc := desc, first := first } }))

/-- The other actions, then the final barrier. -/
def finalPart (c : Ctl) (r : Reshard) (d : Dev) : Dev :=
  match tabFind d.coll.groups r.group with
  | none => modReshard (fun x => { x with phase := 3, status := 6 }) d
  | some _ =>
    let a := runActs c (planAt d r.plan) d
    addOwn 6 r.group 0 0 (a.1 != 0) (modReshard (fun x => { x with phase := 2, status := a.1 }) a.2)

/-- An operation of the ND_RESHARD is over with a status: the next part, or the end. A plan without moves has no wave to run. -/
def reshardNext (c : Ctl) (st : Nat) (d : Dev) : Dev :=
  match d.coll.reshard with
  | none => d
  | some r =>
    let endRun := fun (v : Nat) => modReshard (fun x => { x with phase := 3, status := if x.status ≠ 0 then x.status else v }) d
    if r.status ≠ 0 ∨ st ≠ 0 then endRun (stOfColl st)
    else match r.phase with
      | 0 =>
        let v := doveAt d r.desc
        if v.moves.isEmpty ∧ v.waves = 0 then finalPart c r d
        else addOwn 8 r.group r.desc (r.first - 1) false (modReshard (fun x => { x with phase := 1 }) d)
      | 1 => finalPart c r d
      | _ => endRun 0

/-- An operation completes with a status, unless containment of the poison that ended it has done so. -/
def completeUnlessGone (c : Ctl) (o : CollOp) (st : Nat) (d : Dev) : Dev := if (opAt d o.seq).isSome then completeOp c o st d else d

/-- COLL_OP_COMPLETE (R340, R344, R473). -/
def devCollComplete (seq : Nat) (c : Ctl) (d : Dev) : Dev :=
  match opAt d seq with
  | none => d
  | some o =>
    match completing d o with
    | none => d
    | some st => let d1 := completeUnlessGone c o st (noteEarly c o st d); if o.own then reshardNext c st d1 else d1

def execCollOpComplete (seq : Nat) (s : State) : Host.Outcome State Fault Refusal := onWork (devCollComplete seq) s

/-! ## ND_RESHARD -/

/-- Does an earlier ND_RESHARD still run? -/
def resharding (d : Dev) : Bool := match d.coll.reshard with | some r => r.phase != 3 | none => false

/-- The reply: ENTRIES, WAVES, LAST_WAVE. -/
def reshardReply (entries waves : Nat) (d : Dev) : List Byte := payloadOf 8 [(0, 4, entries), (4, 1, waves), (5, 1, d.coll.doveWave.toNat)]

/-- The parts after the checks of R474. -/
def reshardRun (bs : List Byte) (c : Ctl) (g : Group) (p : Plan) (d : Dev) : CmdRun :=
  let mode := leAt bs 0 1
  let desc := leAt bs 16 8
  let max := leAt bs 24 4
  if mode = 2 then
    let v := doveAt d desc
    checkedRead c [(desc, 64), (desc + 64, 32 * v.moves.length)] [(!d.peekPoison desc 64, 0xA), (decide (v.moves.length ≤ max), 4), (!d.peekPoison (desc + 64) (32 * v.moves.length), 0xA)] d (fun d =>
      (.waits (.reshard v.moves.length v.waves), startReshard c p.group (leAt bs 8 8) desc (leAt bs 4 1) d))
  else match buildPlan g p max with
    | .inl st => fails st d
    | .inr (w, ms) =>
      let d1 := d.poke desc (doveBytes p.group w (leAt bs 32 8) (leAt bs 28 4) ms)
      if mode = 0 then okay (reshardReply ms.length w d1) d1
      else (.waits (.reshard ms.length w), startReshard c p.group (leAt bs 8 8) desc (leAt bs 4 1) d1)

def ndReshard (bs : List Byte) (c : Ctl) (d : Dev) : CmdRun :=
  let group := leAt bs 2 2
  let a := leAt bs 8 8
  let desc := leAt bs 16 8
  let blocks := leAt bs 28 4
  let hd := d.peekBytes a 64
  let n := planLen hd
  checkedRead c [(a, 64), (a, n)] [(decide (leAt bs 0 1 ≤ 2) && a % 64 == 0 && desc % 64 == 0 && leAt bs 32 8 % 4096 == 0, 2), (d.engineSpan a 64, 4), (d.isNear a 64, 6), (!d.peekPoison a 64, 0xA),
           (leAt hd 0 4 == 0x4E525350, 0xD), (d.engineSpan a n, 4), (d.engineSpan desc (64 + 32 * leAt bs 24 4), 4), (d.isNear desc (64 + 32 * leAt bs 24 4), 6),
           (blocks == 0 || d.engineSpan (leAt bs 32 8) (blocks * 4096), 4), (!d.peekPoison a n, 0xA)] d (fun d =>
    let raw := d.peekBytes a n
    let p := planOf raw
    match tabFind d.coll.groups group with
    | none => fails (if planCheckOk raw then 6 else 0xD) d
    | some g =>
      let me := rankOf g d.fab.node.toNat
      checked [(planCheckOk raw, 0xD), (p.group == group && p.members == g.members.length && me.isSome, 6), (p.scratch.getD (me.getD 0) 0 == blocks, 6), (!planBad p, 2),
               (p.acts.isEmpty || !d.life.loaded, 1)] d (reshardRun bs c g p))

end Sys2Proof.Machine
end

