-- ==== Sys2Proof/Machine/NdSnapshot.lean ====
section
/-! DEFINITION. ND_SNAPSHOT, ND_RESTORE and ND_REPLAY_VERIFY (13, R428, R481 to R491). -/

namespace Sys2Proof.Machine

open Sys2Proof

/-! ## Acceptance (R481) -/

/-- Does any update wait, run, or await a re-run, or a mirror transfer? -/
def planesBusy (d : Dev) : Bool :=
  d.planes.any (fun p => p.2.active || !p.2.due.isEmpty || !p.2.stopped.isEmpty || !p.2.rerun.isEmpty || p.2.transfer.isSome || !p.2.asks.isEmpty || !p.2.inbox.isEmpty || !p.2.outq.isEmpty)

def snapBusy (d : Dev) : Bool := d.life.state != .idle || d.life.update || d.life.starting || planesBusy d

/-! ## Pinned segments (R482) -/

/-- Segments whose free a pin defers no more become FREE. -/
def freeUnpinned (d : Dev) : Dev :=
  let held := fun (id : Nat) => d.silkai.pins.any (fun l => l.contains id)
  let go := (d.silkai.deferred.filter (fun id => !held id)).eraseDups
  go.foldl Dev.freeSeg (d.modSilkai (fun m => { m with deferred := m.deferred.filter held }))

/-- A snapshot pins its segments; only the two most recent stay. The fresh ones belong to no live map. -/
def pinSnapshot (all fresh : List Nat) (d : Dev) : Dev :=
  freeUnpinned (d.modSilkai (fun m => { m with pins := (all :: m.pins).take 2, deferred := m.deferred ++ fresh }))

def unpinAll (d : Dev) : Dev := freeUnpinned (d.modSilkai (fun m => { m with pins := [] }))

/-! ## Taking a snapshot (R481, R484 to R486) -/

/-- A snapshot being written: fresh segments, referenced segments, the maps it names in order, and the failure met. -/
structure SnapRun where
  dev : Dev
  fresh : List Nat := []
  refs : List Nat := []
  maps : List (List Byte) := []
  status : Nat := 0
  /-- the span whose poison ended it -/
  bad : Nat × Nat := (0, 0)
  deriving DecidableEq, Repr

/-- A map as its bytes: segments with generation and first block. -/
def mapBytes (nblocks : Nat) (es : List (Nat × Nat × Nat)) : List Byte :=
  natLE 8 es.length ++ natLE 8 nblocks ++ List.replicate 48 0 ++ es.flatMap (fun e => natLE 8 (e.1 + e.2.1 % 2048 * 2 ^ 21 + e.2.2 * 2 ^ 32))

/-- Map entries of segments just sealed. -/
def entriesOf (d : Dev) (ids : List Nat) : List (Nat × Nat × Nat) := ids.map (fun id => (id, (d.seg id).gen.toNat, (d.seg id).firstBlock))

/-- PUT bytes into a fresh image through the ports of a mask: its segments, sealed; `none` without space. -/
def putFresh (now kind mask : Nat) (bs : List Byte) (d : Dev) : Dev × List Nat × Bool :=
  let blocks := (chunksOf 4096 (bs.length + 1) bs).map (fun b => b ++ List.replicate (4096 - b.length) 0)
  let r := takeSegments 0 mask (packBlocks kind 0 blocks) (d.stager 0).lastPort d []
  let d1 := r.2.1.foldl (fun x id => sealSegment now id x) r.1
  let wrote := (r.2.1.map (fun id => (d1.seg id).dataLen)).sum
  (d1.modStager 0 (fun g => { g with farWrBytes := cntAdd g.farWrBytes wrote, encodeInBytes := cntAdd g.encodeInBytes (blocks.length * 4096),
                                     lastPort := match r.2.1.getLast? with | some id => Dev.segPort id | none => g.lastPort }), r.2.1, r.2.2)

/-- Blocks of a map as the map image holds it: whole 4 KiB. -/
def mapBlocksLen (bs : List Byte) : Nat := ceilDiv bs.length 4096

/-- A reference to the next map of the snapshot (R486). -/
def mapRef (r : SnapRun) (bs : List Byte) : Nat := (r.maps.map mapBlocksLen).sum + mapBlocksLen bs * 2 ^ 32

/-- Capture bytes by PUT: the reference. -/
def capture (now kind mask : Nat) (bs : List Byte) (r : SnapRun) : Nat × SnapRun :=
  if r.status ≠ 0 then (0, r) else
  let p := putFresh now kind mask bs r.dev
  let m := mapBytes (ceilDiv bs.length 4096) (entriesOf p.1 p.2.1)
  (mapRef r m, { r with dev := p.1, fresh := r.fresh ++ p.2.1, maps := r.maps ++ [m], status := if p.2.2 then 5 else 0 })

/-- Reference an image that stays where it is, by its map. -/
def refer (a : Nat) (r : SnapRun) : Nat × SnapRun :=
  if r.status ≠ 0 then (0, r)
  else if r.dev.peekPoison a 64 || r.dev.peekPoison (a + 64) (8 * r.dev.mapEntries a) then (0, { r with status := 0xA, bad := (a, 64 + 8 * r.dev.mapEntries a) })
  else
    let m := r.dev.peekBytes a (64 + 8 * r.dev.mapEntries a)
    (mapRef r m, { r with refs := r.refs ++ r.dev.mapSegs a, maps := r.maps ++ [m] })

/-- Capture a near array; poison fails. -/
def captureNear (now kind mask a n : Nat) (r : SnapRun) : Nat × SnapRun :=
  if r.status = 0 ∧ r.dev.peekPoison a n then (0, { r with status := 0xA, bad := (a, n) }) else capture now kind mask (r.dev.peekBytes a n) r

/-- Items captured one after another: references and the run. -/
def captureEach {α : Type} (f : α → SnapRun → Nat × SnapRun) (l : List α) (r : SnapRun) : List Nat × SnapRun :=
  l.foldl (fun x a => let y := f a x.2; (x.1 ++ [y.1], y.2)) ([], r)

/-- One component of the authoritative version: address, if it has one, and width. -/
def captureComp (now mask : Nat) (p : Panel) (x : Option Nat × Nat) (r : SnapRun) : Nat × SnapRun :=
  match x.1 with
  | none => (0, r)
  | some a => if p.far then refer a r else captureNear now (if x.2 = 2 then 1 else 2) mask a (x.2 * p.nparam) r

/-- One ledger slot. -/
def captureSlot (now mask : Nat) (p : Panel) (j : Nat) (r : SnapRun) : Nat × SnapRun :=
  let s := slotAt r.dev p j
  if p.slots ≤ j ∨ p.role ≠ 0 ∨ s.state = 0 then (0, r)
  else if s.state = 3 then refer s.map r
  else if r.status = 0 ∧ (slotSpans r.dev p j 0 (4 * p.nparam)).any (fun x => r.dev.peekPoison x.1 x.2) then
    (0, { r with status := 0xA, bad := ((slotSpans r.dev p j 0 (4 * p.nparam)).find? (fun x => r.dev.peekPoison x.1 x.2)).getD (0, 0) })
  else capture now 2 mask (readSlot r.dev p j 0 (4 * p.nparam)) r

/-- The record of a panel (R486) and the run after it. -/
def capturePanel (now mask idx : Nat) (r : SnapRun) : List Byte × SnapRun :=
  let p := panelAt r.dev idx
  let v := captureEach (captureComp now mask p) ((arraysOf (p.version p.sel)).zip p.widths) r
  let s := captureEach (captureSlot now mask p) (List.range 5) v.2
  let steps := (List.range 5).map (fun j => if s.1.getD j 0 = 0 then 0 else (slotAt r.dev p j).step)
  (r.dev.peekBytes (panelAddr r.dev idx) 256 ++ (v.1 ++ s.1 ++ steps).flatMap (natLE 8) ++ List.replicate 8 0, s.2)

/-- Bytes padded to a 64-byte boundary. -/
def pad64 (bs : List Byte) : List Byte := bs ++ List.replicate (roundUp bs.length 64 - bs.length) 0

/-- An optimiser entry in the layout of ND_OPT_CONFIG ENTRY. -/
def optEntryBytes (set : Nat) (e : OptEntry) : List Byte :=
  payloadOf 48 [(0, 1, 1), (1, 1, set), (2, 1, e.alg), (3, 1, b2n e.nesterov), (8, 8, e.applyStep), (16, 4, e.eta), (20, 4, e.lam), (24, 4, e.beta1), (28, 4, e.beta2), (32, 4, e.eps),
    (36, 4, e.mu), (40, 4, e.gamma)]

/-- Counters of a jig, 4 bytes each. -/
def ctrBytes (d : Dev) (j : Nat) : List Byte := (List.range (ctrCount j)).flatMap (fun i => natLE 4 (tabGet 0 (d.jig j).ctr i).toNat)

/-- The jig section (R485): empty with no program loaded. -/
def jigSection (d : Dev) : List Byte :=
  if !d.life.loaded then [] else
  let x := loadBlockOf d.life.loadBlock
  let recs := x.queues.flatMap (fun q => (tabGet {} (d.jig q.jig).queues q.queue).recs.flatMap (fun ws => ws.flatMap (natLE 8)))
  let tabs := (List.range 4).flatMap (fun b => (d.stager b).table.flatMap (fun ws => ws.flatMap (natLE 8)))
  pad64 d.life.loadBlock ++ pad64 recs ++ pad64 tabs ++ [4, 0, 1, 2, 3].flatMap (ctrBytes d)

/-- The manifest with CHECK 0 (R484); bytes 64 to 127 are the runtime's. -/
def manifestBody (c : Ctl) (d : Dev) (runtime : List Byte) (panelRecs : List (List Byte)) (segs : List (Nat × Nat)) : List Byte :=
  let opts := d.opt.sets.flatMap (fun p => p.2.map (optEntryBytes p.1))
  let res := d.opt.results.reverse.map (fun h => recBytes h.res)
  let jig := jigSection d
  let parts := [opts.flatten, res.flatten, jig, panelRecs.flatten, segs.flatMap (fun s => natLE 8 (s.1 + s.2 % 2048 * 2 ^ 21))].map pad64
  let off := fun (i : Nat) => 256 + ((parts.take i).map List.length).sum
  let len := off 5
  let head := payloadOf 256 [(0, 4, 0x4E534E50), (4, 2, 1), (8, 4, len), (16, 8, d.life.step.toNat), (24, 8, d.life.startStep), (32, 8, c.fuses.serial.toNat), (40, 8, d.opt.seed.toNat),
    (48, 4, d.opt.lossScale.toNat), (52, 4, d.opt.goodSteps.toNat), (56, 2, d.life.epoch.toNat), (58, 2, d.fab.node.toNat), (64, 64, leNat runtime), (144, 48, leNat d.silkai.jobPayload),
    (192, 4, off 0), (196, 4, opts.length), (200, 4, off 1), (204, 4, res.length), (208, 4, off 2), (212, 4, jig.length), (216, 4, off 3), (220, 4, panelRecs.length), (224, 4, off 4), (228, 4, segs.length)]
  head ++ parts.flatten

/-- A manifest with its CHECK (R156). -/
def withCheck (bs : List Byte) : List Byte := bs.take 12 ++ natLE 4 (crc32c (bs.take 12 ++ List.replicate 4 0 ++ bs.drop 16)) ++ bs.drop 16

/-- Free the segments a failed snapshot took. -/
def dropFresh (ids : List Nat) (d : Dev) : Dev := ids.foldl Dev.freeSeg d

/-- Every panel captured, then the map image. -/
def captureAll (now mask : Nat) (d : Dev) : List (List Byte) × List Nat × SnapRun :=
  let r := (tabKeys d.opt.panels).foldl (fun x idx => let y := capturePanel now mask idx x.2; (x.1 ++ [y.1], y.2)) (([], { dev := d }) : List (List Byte) × SnapRun)
  let bs := r.2.maps.flatMap (fun m => m ++ List.replicate (mapBlocksLen m * 4096 - m.length) 0)
  if r.2.status ≠ 0 ∨ bs.isEmpty then (r.1, [], r.2) else
  let p := putFresh now 0 mask bs r.2.dev
  (r.1, p.2.1, { r.2 with dev := p.1, fresh := r.2.fresh ++ p.2.1, status := if p.2.2 then 5 else 0 })

def ndSnapshot (bs : List Byte) (c : Ctl) (d : Dev) : CmdRun :=
  let a := leAt bs 8 8
  let max := leAt bs 16 4
  let mask := leAt bs 20 1
  let reply := fun (len : Nat) => payloadOf 16 [(0, 4, len), (8, 8, d.life.step.toNat)]
  if 16 ≤ mask then fails 2 d
  else if mask = 0 then okay (reply 0) (unpinAll d)
  else checkedRead c [(a + 64, 64)] [(d.engineSpan a max, 4), (!d.peekPoison (a + 64) 64, 0xA)] d (fun d =>
    let r := captureAll c.now mask d
    let run := r.2.2
    if run.status ≠ 0 then (.done run.status [], notePoison c run.bad.1 run.bad.2 (dropFresh run.fresh run.dev)) else
    let m := manifestBody c run.dev (run.dev.peekBytes (a + 64) 64) r.1 (r.2.1.map (fun id => (id, (run.dev.seg id).gen.toNat)))
    if max < m.length then (.done 4 [], dropFresh run.fresh run.dev)
    else okay (reply m.length) (pinSnapshot (run.fresh ++ run.refs).eraseDups run.fresh (run.dev.poke a (withCheck m))))

/-! ## Restoring (R487 to R489) -/

/-- A segment that a manifest or one of its maps names: identifier and GEN[10:0]; SEALED with that GEN? -/
def segSound (d : Dev) (e : Nat × Nat) : Bool := (d.cxl (Dev.segPort e.1)).up && (d.seg e.1).state == 2 && (d.seg e.1).gen.toNat % 2048 == e.2

/-- The first bad block of segments, as a GET that decodes them in order meets it (R204). -/
def badBlock (d : Dev) (ids : List Nat) : Option (Nat × Nat) :=
  (ids.flatMap (fun id => (List.range (d.seg id).nblk).map (fun j => (id, j)))).find? (fun p => match d.readBlock p.1 p.2 with
    | .bad _ => true
    | _ => false)

/-- A GET of a restore meets a bad block. Images that a snapshot wrote name no repair sources, so it is lost: FAR_BLOCK_BAD (R220, R488). -/
def noteBadBlock (c : Ctl) (b : Option (Nat × Nat)) (d : Dev) : Dev :=
  match b with
  | some p => farBlockLost c p.1 p.2 d
  | none => d

/-- The decoded blocks of segments, in order; `none` where one is bad. -/
def segsData (d : Dev) (ids : List Nat) : Option (List Byte) :=
  (ids.flatMap (fun id => (List.range (d.seg id).nblk).map (fun j => d.readBlock id j))).foldr
    (fun x l => match x, l with | .good bs _ _, some t => some (bs ++ t) | _, _ => none) (some [])

/-- Segments an entry list of 8-byte words names. -/
def segWords (bs : List Byte) (n : Nat) : List (Nat × Nat) := (List.range n).map (fun i => (leAt bs (8 * i) 4 % 2 ^ 21, leAt bs (8 * i) 4 / 2 ^ 21))

/-- A map of the map image, by its reference. -/
def mapOfRef (image : List Byte) (ref : Nat) : List Byte := (image.drop (ref % 2 ^ 32 * 4096)).take (ref / 2 ^ 32 * 4096)
def refSegs (m : List Byte) : List (Nat × Nat) := segWords (m.drop 64) (leAt m 0 4)

/-- A manifest record of a panel: header bytes and the ten references and five steps. -/
structure PanelRec where
  raw : List Byte
  refs : List Nat
  slots : List Nat
  steps : List Nat
  deriving DecidableEq, Repr

def panelRecOf (bs : List Byte) : PanelRec :=
  let w := fun (lo n : Nat) => (List.range n).map (fun i => leAt bs (lo + 8 * i) 8)
  { raw := bs.take 256, refs := w 256 5, slots := w 296 5, steps := w 336 5 }

/-- A manifest as read. -/
structure Manifest where
  bytes : List Byte
  recs : List PanelRec
  segs : List (Nat × Nat)
  deriving DecidableEq, Repr

def manifestOf (bs : List Byte) : Manifest :=
  { bytes := bs, recs := (List.range (leAt bs 220 4)).map (fun i => panelRecOf ((bs.drop (leAt bs 216 4 + 384 * i)).take 384)),
    segs := segWords (bs.drop (leAt bs 224 4)) (leAt bs 228 4) }

/-- Check 1. -/
def manifestOk (bs : List Byte) (max : Nat) : Bool :=
  leAt bs 0 4 == 0x4E534E50 && leAt bs 4 2 == 1 && decide (256 ≤ leAt bs 8 4) && decide (leAt bs 8 4 ≤ max) && withCheck (bs.take (leAt bs 8 4)) == bs.take (leAt bs 8 4)

/-- The map image, if every segment the manifest and its maps name is there (check 5). -/
def soundImage (d : Dev) (m : Manifest) : Option (List Byte) :=
  if !m.segs.all (segSound d) then none else
  match segsData d (m.segs.map Prod.fst) with
  | none => none
  | some image => if m.recs.all (fun r => (r.refs ++ r.slots).all (fun x => (refSegs (mapOfRef image x)).all (segSound d))) then some image else none

/-- The load block of the jig section. -/
def sectionLoad (m : Manifest) : List Byte :=
  let jig := (m.bytes.drop (leAt m.bytes 208 4)).take (leAt m.bytes 212 4)
  jig.take (1152 + 16 * leAt jig 0 2)

/-- The 64-byte items of the jig section, records of the queues and then entries of the stream tables, as words (R485). -/
def sectionItems (m : Manifest) : List (List Nat) × List (List Nat) :=
  let bs := sectionLoad m
  let x := loadBlockOf bs
  let n := (x.queues.map (fun q => q.records)).sum
  let at_ := fun (i : Nat) => wordsOf ((m.bytes.drop (leAt m.bytes 208 4 + roundUp bs.length 64 + 64 * i)).take 64)
  ((List.range n).map at_, (List.range (4 * x.entries)).map (fun i => at_ (n + i)))

/-- The memory that a record names: the descriptor of a STAGER record, the map of a RELEASE record, the operation of a COLL record (R231). -/
def recordAddr (ws : List Nat) : Option Nat := if [6, 10, 11].contains (bits (wordAt ws 0) 0 4) then some (bits (wordAt ws 1) 0 48) else none

/-- The memory that a stream entry names: the map of a far-tier image, of which it streams blocks (R243). -/
def entryAddr (ws : List Nat) : Option Nat := if !bitAt (wordAt ws 0) 17 && bits (wordAt ws 2) 32 32 != 0 then some (wordAt ws 1) else none

/-- Check 6. -/
def addressesOk (d : Dev) (m : Manifest) : Bool :=
  let inR := fun (a n : Nat) => n == 0 || d.engineSpan a n
  let header := fun (r : PanelRec) =>
    let p := panelOfWords 0 (wordsOf r.raw)
    let arrays := fun (v : List Nat) => ((arraysOf v).zip p.widths).all (fun x => x.1.all (fun a => if p.far then inR a 64 else inR a (x.2 * p.nparam)))
    arrays p.ver0 && arrays p.ver1 && (if p.far then inR p.pub 64 else inR p.pub (2 * p.nparam)) && (p.role != 0 || inR p.ledger (64 * p.slots))
  let x := loadBlockOf (sectionLoad m)
  m.recs.all header && (leAt m.bytes 212 4 == 0 ||
    (x.win.all (fun a => inR a ((x.look + 1) * x.slot * 4096)) && x.strm.all (fun a => inR a (64 * x.entries)) && inR x.kerfBase (32 * x.kerfLen) && x.queues.all (fun q => inR q.base (64 * q.records)) &&
      ((sectionItems m).1.filterMap recordAddr ++ (sectionItems m).2.filterMap entryAddr).all (fun a => inR a 64)))

/-- A restore in progress: the device, or the status that ended it and the bad block that it met. -/
abbrev Part := (Nat × Option (Nat × Nat)) ⊕ Dev

def Part.next (p : Part) (f : Dev → Part) : Part :=
  match p with
  | .inl st => .inl st
  | .inr d => f d

/-- A map rebuilt at an address of the near tier. -/
def rebuildMap (m : List Byte) (a : Nat) (d : Dev) : Part :=
  if !d.isNear a (64 + 8 * leAt m 0 4) then .inl (6, none) else .inr (d.poke a (m.take (64 + 8 * leAt m 0 4)))

/-- The segments of a captured image. -/
def refIds (image : List Byte) (ref : Nat) : List Nat := (refSegs (mapOfRef image ref)).map Prod.fst

/-- The bytes of a captured image. -/
def refData (d : Dev) (image : List Byte) (ref n : Nat) : Option (List Byte) := (segsData d (refIds image ref)).map (fun bs => bs.take n)

/-- A captured image cannot be decoded. -/
def lostPart (d : Dev) (image : List Byte) (ref : Nat) : Part := .inl (0xA, badBlock d (refIds image ref))

/-- A GET of the captured image by a stager: what it reads from the far tier and decodes is counted (R256, R488). -/
def countImage (image : List Byte) (ref : Nat) (d : Dev) : Dev :=
  let ids := refIds image ref
  d.modStager 0 (fun g => { g with farRdBytes := cntAdd g.farRdBytes (ids.map (fun id => (d.seg id).dataLen)).sum,
                                   decodedBytes := cntAdd g.decodedBytes ((ids.map (fun id => (d.seg id).nblk)).sum * 4096) })

/-- One component of a panel: reference, address, bytes. -/
def restoreComp (image : List Byte) (far : Bool) (ref : Nat) (at? : Option Nat) (n : Nat) (d : Dev) : Part :=
  match at? with
  | none => .inr d
  | some a =>
    if ref = 0 then .inr d
    else if far then rebuildMap (mapOfRef image ref) a d
    else match refData d image ref n with
      | some bs => .inr (countImage image ref (d.pokeTagged a bs))
      | none => lostPart d image ref

/-- The published image, and the empty maps of the other set. -/
def republish (image : List Byte) (p : Panel) (ref : Nat) (d : Dev) : Part :=
  if p.far then
    let d1 := ((arraysOf (p.version (1 - p.sel))).filterMap id).foldl (fun x a => x.poke32 a 0) d
    if ref = 0 then .inr d1 else rebuildMap (mapOfRef image ref) p.pub d1
  else match refData d image ref (2 * p.nparam) with
    | some bs => .inr (d.pokeTagged p.pub bs)
    | none => lostPart d image ref

/-- One ledger slot: CLOSED, or SEALED where the panel seals. -/
def restoreSlot (image : List Byte) (p : Panel) (ref step j : Nat) (d : Dev) : Part :=
  if ref = 0 then .inr d
  else if p.sealOn then
    let s := slotAt d p j
    (rebuildMap (mapOfRef image ref) s.map d).next (fun x => .inr (putSlot p j { s with step := step, state := 3, arrived := p.expect, frame := 0 } x))
  else match refData d image ref (4 * p.nparam) with
    | some bs => .inr (putSlot p j { step := step, state := 2, arrived := p.expect, frame := 0, map := 0 } (writeSlot p j 0 bs d))
    | none => lostPart d image ref

/-- One panel, at a table index. -/
def restorePanel (image : List Byte) (idx : Nat) (r : PanelRec) (d : Dev) : Part :=
  let p := panelOfWords idx (wordsOf r.raw)
  let comps := (arraysOf (p.version p.sel)).zip p.widths
  let p1 := comps.zipIdx.foldl (fun (x : Part) c => x.next (restoreComp image p.far (r.refs.getD c.2 0) c.1.1 (c.1.2 * p.nparam))) (.inr d)
  let p2 := (p1.next (republish image p (r.refs.getD 4 0))).next (fun x =>
    if x.aux.oraLen - 0x8000000 < ((panels x).map areaOf).sum + areaOf p then .inl (5, none) else .inr (definePanel idx p.commit r.raw x))
  (List.range 5).foldl (fun (x : Part) j => x.next (restoreSlot image p (r.slots.getD j 0) (r.steps.getD j 0) j)) p2

/-- Optimiser entries and clamp results of a manifest (R276, R278). A result's scale is the S_NEXT of the one before it. -/
def restoreJob (m : Manifest) (d : Dev) : Dev :=
  let bs := m.bytes
  let ents := (List.range (leAt bs 196 4)).map (fun i => (bs.drop (leAt bs 192 4 + 48 * i)).take 48)
  let res := (List.range (leAt bs 204 4)).map (fun i => recOfBytes ((bs.drop (leAt bs 200 4 + 1088 * i)).take 1088))
  let held := res.foldl (fun (l : List HeldResult) r => ({ res := r, scale := (l.head?.map (fun h => BitVec.ofNat 32 h.res.sNext)).getD d.opt.lossScale } : HeldResult) :: l) []
  d.modOpt (fun o => { o with sets := ents.foldl (fun t e => tabPut t (leAt e 1 1) (tabGet [] t (leAt e 1 1) ++ [optEntryOf e])) [], results := held.take 5,
                              lossScale := BitVec.ofNat 32 (leAt bs 48 4), goodSteps := BitVec.ofNat 32 (leAt bs 52 4) })

/-- Queues and stream tables back at the addresses of the load block (R488). -/
def restoreProgram (m : Manifest) (d : Dev) : Dev :=
  let off := leAt m.bytes 208 4
  if leAt m.bytes 212 4 = 0 then d else
  let bs := sectionLoad m
  let x := loadBlockOf bs
  let a1 := off + roundUp bs.length 64
  let qs := x.queues.foldl (fun (y : Dev × Nat) q => (y.1.poke q.base ((m.bytes.drop y.2).take (64 * q.records)), y.2 + 64 * q.records)) (d, a1)
  (x.strm.foldl (fun (y : Dev × Nat) a => (y.1.poke a ((m.bytes.drop y.2).take (64 * x.entries)), y.2 + 64 * x.entries)) qs).1

/-- The generator position of the cursor (R479, R480), RESTORE_STATUS, and a CHECK that fits. -/
def restoreStatus (a : Nat) (m : Manifest) (d : Dev) : Dev :=
  let bs := m.bytes
  let epoch := leAt bs 64 4
  let ctr := leAt bs 72 8 / 4
  let wrong := leAt bs 88 4 != epoch || leAt bs 96 8 != ctr
  let put := fun (x : List Byte) (off n v : Nat) => x.take off ++ natLE n v ++ x.drop (off + n)
  d.poke a (withCheck (put (put (put bs 88 4 epoch) 96 8 ctr) 128 4 (1 + 2 * b2n wrong)))

/-- The maps that a restored panel names again: of its far images and of its sealed slots. -/
def liveRefs (r : PanelRec) : List Nat :=
  let p := panelOfWords 0 (wordsOf r.raw)
  (if p.far then r.refs else []) ++ (if p.sealOn then r.slots else [])

/-- Segments that live maps name again are due for no free any more (R482). -/
def keepNamed (image : List Byte) (m : Manifest) (d : Dev) : Dev :=
  let ids := m.recs.flatMap (fun r => (liveRefs r).flatMap (refIds image))
  d.modSilkai (fun s => { s with deferred := s.deferred.filter (fun id => !ids.contains id) })

def ndRestore (bs : List Byte) (c : Ctl) (d : Dev) : CmdRun :=
  let a := leAt bs 0 8
  let max := leAt bs 8 4
  if max = 0 then okay [] d else
  checkedRead c [(a, max)] [(d.engineSpan a max, 4), (decide (256 ≤ max), 0xD), (!d.peekPoison a max, 0xA)] d (fun d =>
    let raw := d.peekBytes a max
    let m := manifestOf (raw.take (leAt raw 8 4))
    let image := soundImage d m
    let lost := if m.segs.all (segSound d) then badBlock d (m.segs.map Prod.fst) else none
    checked [(manifestOk raw max, 0xD), (leAt raw 32 8 == c.fuses.serial.toNat, 6), ((raw.drop 144).take 48 == d.silkai.jobPayload && leAt raw 80 8 == leAt raw 16 8, 0xD),
             (d.silkai.panelTable && decide (m.recs.length ≤ (d.plane 0).panelCount.toNat), 4), (lost.isSome || image.isSome, 0xA), (lost.isSome || addressesOk d m, 4)] d (fun d =>
      if lost.isSome then (.done 0xA [], noteBadBlock c lost d) else
      let p := m.recs.zipIdx.foldl (fun (x : Part) r => x.next (restorePanel (image.getD []) r.2 r.1)) (.inr (discardPanels d))
      match p with
      | .inl e => (.done e.1 [], noteBadBlock c e.2 (discardPanels d))
      | .inr x => okay [] ((keepNamed (image.getD []) m (restoreStatus a m (restoreProgram m (restoreJob m x)))).modSilkai (fun s => { s with restored := some (a, max) }))))

/-! ## Replay verification (R490) -/

/-- A FP64 value as an ordered integer. -/
def ordered64 (v : Nat) : Int := if bitAt v 63 then -((v % 2 ^ 63 : Nat) : Int) else (v : Int)

def isNan64 (v : Nat) : Bool := bits v 52 11 == 0x7FF && bits v 0 52 != 0

def ulpDiff (a b : Nat) : Nat := if isNan64 a || isNan64 b then 2 ^ 64 - 1 else (ordered64 a - ordered64 b).natAbs

def ndReplayVerify (bs : List Byte) (_ : Ctl) (d : Dev) : CmdRun :=
  match d.opt.results.find? (fun r => r.res.step == leAt bs 0 8) with
  | none => (.done 4 (payloadOf 24 []), d)
  | some h =>
    let diff := ulpDiff h.res.loss (leAt bs 16 8)
    let ok := !h.res.abort && !isNan64 h.res.loss && !isNan64 (leAt bs 16 8) && decide (diff ≤ leAt bs 8 4)
    (.done (if ok then 0 else 0xD) (payloadOf 24 [(0, 8, h.res.loss), (8, 8, diff), (16, 1, b2n ok)]), d)

end Sys2Proof.Machine
end

