-- ==== Sys2Proof/Machine/Mailbox.lean ====
section
/-! DEFINITION. Silkai's mailboxes (11, R401 to R416): writes to MBX_CMD and doorbells, the take of a command and its checks,
commands that wait, the doorbell page, and the row of every Ndeler command. -/

namespace Sys2Proof.Machine

open Sys2Proof

/-! ## Access (R402, R403) -/

/-- May a requester reach mailbox `k`: port 8 the host's, ports 0 to 7 the Puwell cores'? -/
def mbxOwner (c : Ctl) (k port : Nat) : Bool := if bitAt c.cfg.mbxAccess.toNat k then port == 8 else decide (port < 8)

/-- The address of an offset of the control window (R64, R402). -/
def windowAddr (off : Nat) : Nat := 0x3F0000000000 + off

/-- A write of a requester to an area of mailbox `k`, dropped under R19 for the other class. -/
def mbxWrite (k port off : Nat) (f : Ctl → Dev → Dev) (s : State) : Host.Outcome State Fault Refusal :=
  onDev (fun c d => if !arrives d port then d else if mbxOwner c k port then f c d else dropWrite (windowAddr off) port c d) s

/-! ## MBX_CMD and the doorbell (R405, R407) -/

/-- Bytes written into MBX_CMD at an offset. -/
def putArea (off : Nat) (bs : List Byte) (m : Mailbox) : Mailbox :=
  { m with area := (bs.take (4096 - off)).zipIdx.foldl (fun t p => tabSet 0 t (off + p.2) p.1) m.area }

/-- `n` bytes of MBX_CMD. -/
def areaBytes (m : Mailbox) (off n : Nat) : List Byte := (List.range n).map (fun i => tabGet 0 m.area (off + i))

def inHand (m : Mailbox) : Bool := m.st == .pending || m.st == .busy

def devMbxCmd (k off : Nat) (bs : List Byte) (_ : Ctl) (d : Dev) : Dev :=
  d.modMbx k (fun m => if inHand m then { m with writeDropCnt := cntInc m.writeDropCnt } else putArea off bs m)

def execMbxCmdWrite (k : Fin 16) (port : Fin 16) (off : Fin 4096) (data : List Byte) (s : State) : Host.Outcome State Fault Refusal :=
  mbxWrite k.val port.val (k.val * 0x2000 + off.val) (devMbxCmd k.val off.val data) s

/-- RING: IDLE or DONE to PENDING, else counted; nothing before READY. -/
def ringMbx (v : Nat) (m : Mailbox) : Mailbox :=
  if !bitAt v 0 ∨ m.st = .notReady then m
  else if inHand m then { m with doorbellDropCnt := cntInc m.doorbellDropCnt } else { m with st := .pending }

def execMbxDoorbell (k : Fin 16) (port : Fin 16) (value : W32) (s : State) : Host.Outcome State Fault Refusal :=
  mbxWrite k.val port.val (k.val * 0x2000 + 0x1000) (fun _ d => d.modMbx k.val (ringMbx value.toNat)) s

/-! ## Layouts (R408, R415, R417 to R429) -/

/-- The payload lengths of a command and the bytes its layout lists, by opcode and payload; `none` for an opcode or a code of
byte 0 that has no layout. -/
def layoutOf (op : Nat) (bs : List Byte) : Option (List Nat × List (Nat × Nat)) :=
  match op with
  | 0x0001 => some ([8], [(0, 2)])
  | 0x0002 => some ([8], [(0, 1)])
  | 0x0100 => some ([16], [(0, 2), (4, 6)])
  | 0x0101 => some ([16], [(0, 11)])
  | 0x0102 => some ([8], [(0, 4)])
  | 0x0103 => some ([24], [(0, 2), (4, 20)])
  | 0x0200 => some ([16], [(0, 12)])
  | 0x0201 => some ([8], [(0, 8)])
  | 0x0202 => some ([4], [(0, 4)])
  | 0x0300 => if leAt bs 0 1 = 0 then some ([88], [(0, 1), (8, 12), (24, 64)]) else if leAt bs 0 1 = 1 then some ([24], [(0, 1), (4, 16)]) else none
  | 0x0301 => if leAt bs 0 1 = 0 then some ([48], [(0, 9), (12, 32)]) else if leAt bs 0 1 = 1 then some ([48], [(0, 4), (8, 36)]) else none
  | 0x0400 => some ([12, 16], [(0, 12)])
  | 0x0401 => some ([0], [])
  | 0x0402 => some ([16], [(0, 16)])
  | 0x0403 => some ([8], [(0, 2)])
  | 0x0404 => some ([32], [(0, 1), (2, 8), (16, 16)])
  | 0x0405 => some ([40], [(0, 1), (2, 3), (8, 32)])
  | 0x0500 => some ([24], [(8, 13)])
  | 0x0501 => some ([16], [(0, 12)])
  | 0x0502 => some ([24], [(0, 12), (16, 8)])
  | 0x0600 => some ([16], [(0, 1), (2, 4), (8, 4)])
  | 0x0601 => some ([16], [(0, 1), (4, 9)])
  | 0x0602 => some ([8], [(0, 1), (4, 4)])
  | 0x0700 => some ([8], [(0, 8)])
  | 0x0701 => some ([24], [(0, 1), (8, 12)])
  | 0x0702 => some ([16], [(0, 1), (4, 8)])
  | _ => none

/-- The catalogue of opcodes (R415). -/
def catalogue : List Nat :=
  [0x0001, 0x0002, 0x0100, 0x0101, 0x0102, 0x0103, 0x0200, 0x0201, 0x0202, 0x0300, 0x0301, 0x0400, 0x0401, 0x0402, 0x0403, 0x0404, 0x0405, 0x0500, 0x0501, 0x0502, 0x0600, 0x0601,
   0x0602, 0x0700, 0x0701, 0x0702]

/-- Is every byte that a layout does not list zero? -/
def reservedZero (used : List (Nat × Nat)) (bs : List Byte) : Bool :=
  bs.zipIdx.all (fun p => p.1 == 0 || used.any (fun u => decide (u.1 ≤ p.2) && decide (p.2 < u.1 + u.2)))

/-- Checks 7 and 8: the failing status. -/
def layoutCheck (op : Nat) (bs : List Byte) : Option Nat :=
  match layoutOf op bs with
  | none => some 2
  | some (lens, used) => if !lens.contains bs.length then some 3 else if !reservedZero used bs then some 2 else none

/-! ## Acceptance (R401, R415, R416) -/

/-- Commands that the safe state permits. -/
def safeOps : List Nat := [0x0001, 0x0002, 0x0601, 0x0702, 0x0701]

/-- A command not accepted in the present state: its status. -/
def notAccepted (op : Nat) (bs : List Byte) (d : Dev) : Option Nat :=
  let when_ := fun (bad : Bool) (st : Nat) => if bad then some st else none
  match op with
  | 0x0200 => when_ d.life.loaded 1
  | 0x0300 => when_ d.life.loaded 1
  | 0x0301 => when_ (leAt bs 0 1 == 0 && d.life.loaded) 1
  | 0x0400 => when_ d.fab.joined 1
  | 0x0401 => when_ d.life.loaded 1
  | 0x0402 => when_ (!d.fab.joined) 6
  | 0x0404 => when_ (!d.fab.joined) 6
  | 0x0405 => when_ (d.life.state != .idle || resharding d) 1
  | 0x0500 => when_ (snapBusy d) 1
  | 0x0501 => when_ d.life.loaded 1
  | 0x0502 => when_ (!d.life.loaded || d.life.state != .idle) 1
  | _ => none

/-- The spans of a join block of `n` bytes at `a`: the block, and the node table that it names. -/
def joinSpans (d : Dev) (a n : Nat) : List (Nat × Nat) :=
  let blk := d.peekBytes a 16
  if n = 0 then [] else [(a, n), (leAt blk 8 8, 16 * min (leAt blk 4 4) 65536)]

/-- The memory that a command names and that may be the host's: address and length. -/
def namedSpans (op : Nat) (bs : List Byte) (d : Dev) : List (Nat × Nat) :=
  match op with
  | 0x0400 => joinSpans d (leAt bs 0 8) (leAt bs 8 4)
  | 0x0404 => (leAt bs 16 8, 4 * leAt bs 4 4) :: (if bitAt (leAt bs 9 1) 0 then [(leAt bs 24 8, 1024 * leAt bs 4 4)] else [])
  | 0x0500 => [(leAt bs 8 8, leAt bs 20 1)]
  | 0x0501 => [(leAt bs 0 8, leAt bs 8 4)]
  | 0x0701 => [(leAt bs 8 8, leAt bs 16 4)]
  | _ => []

/-- A command that reads or writes host memory ends with HOST_LOST while the host is gone (R412). -/
def hostGone (op : Nat) (bs : List Byte) (d : Dev) : Bool :=
  !hostUp d && (namedSpans op bs d).any (fun p => p.2 != 0 && rangeOf p.1 == .host)

/-- Check 9: the command itself; `fl` is what the flash does if it is an update. -/
def runOpcode (fl : FlashRun) (k op : Nat) (bs : List Byte) (c : Ctl) (d : Dev) : CmdRun :=
  match op with
  | 0x0001 => ndHello k bs c d
  | 0x0002 => ndQuery bs c d
  | 0x0100 => ndTierMode bs c d
  | 0x0101 => ndAlloc bs c d
  | 0x0102 => ndFree bs c d
  | 0x0103 => ndRegion bs c d
  | 0x0200 => ndJigLoad bs c d
  | 0x0201 => ndJigStart bs c d
  | 0x0202 => ndJigStop bs c d
  | 0x0300 => ndPanelDefine bs c d
  | 0x0301 => ndOptConfig bs c d
  | 0x0400 => ndFabJoin bs c d
  | 0x0401 => ndFabLeave bs c d
  | 0x0402 => ndFlowOpen bs c d
  | 0x0403 => ndFlowClose bs c d
  | 0x0404 => ndCollGroup bs c d
  | 0x0405 => ndReshard bs c d
  | 0x0500 => ndSnapshot bs c d
  | 0x0501 => ndRestore bs c d
  | 0x0502 => ndReplayVerify bs c d
  | 0x0600 => ndFaultCfg bs c d
  | 0x0601 => ndFaultLog bs c d
  | 0x0602 => ndRetire bs c d
  | 0x0700 => ndPowerLimit bs c d
  | 0x0701 => ndFwUpdate fl bs c d
  | _ => ndTelemetry bs c d

/-- Checks 6 to 9 of R408. -/
def runCommand (fl : FlashRun) (k op : Nat) (bs : List Byte) (c : Ctl) (d : Dev) : CmdRun :=
  if d.fc.entering && !safeOps.contains op then fails 6 d
  else match layoutCheck op bs with
    | some st => fails st d
    | none => match notAccepted op bs d with
      | some st => fails st d
      | none => if hostGone op bs d then fails 9 d else runOpcode fl k op bs c d

/-! ## The end of a command (R405 to R407) -/

/-- A command or reply with its CRC (R406). -/
def sealed (op seq st : Nat) (payload : List Byte) : List Byte :=
  let head := natLE 2 op ++ natLE 2 seq ++ natLE 4 payload.length
  let tail := natLE 2 st ++ [0, 0] ++ payload
  head ++ natLE 4 (crc32c (head ++ [0, 0, 0, 0] ++ tail)) ++ tail

/-- Vector k, where the mailbox is the host's and interrupts are enabled (R402, R407). -/
def mbxIrq (k : Nat) (c : Ctl) (d : Dev) : Dev := if (d.mbx k).irqEn && bitAt c.cfg.mbxAccess.toNat k then d.sendMsix k else d

/-- The reply is written, then STATUS, then the interrupt. -/
def endCommand (k op seq st : Nat) (reply : List Byte) (c : Ctl) (d : Dev) : Dev :=
  mbxIrq k c (d.modMbx k (fun m =>
    { putArea 0 (sealed op seq st reply) m with st := .done, result := BitVec.ofNat 4 st, irqPend := true, seq := BitVec.ofNat 16 seq, waiting := none }))

/-- A command ends, or waits in its mailbox. -/
def settleCommand (k op seq : Nat) (r : CmdRun) (c : Ctl) : Dev :=
  match r.1 with
  | .done st reply => endCommand k op seq st reply c r.2
  | .waits w => r.2.modMbx k (fun m => { m with st := .busy, waiting := some w, waitOp := BitVec.ofNat 16 op, waitSeq := BitVec.ofNat 16 seq })

/-- Silkai takes the command in mailbox `k` and applies the checks of R408. -/
def takeMailbox (fl : FlashRun) (k : Nat) (c : Ctl) (d : Dev) : Dev :=
  let m := d.mbx k
  let hd := areaBytes m 0 16
  let op := leAt hd 0 2
  let seq := leAt hd 2 2
  let len := leAt hd 4 4
  let bs := areaBytes m 16 (min len 4080)
  let ends := fun (st : Nat) (x : Dev) => endCommand k op seq st [] c x
  if 4080 < len then ends 3 d
  else if crc32c (hd.take 8 ++ [0, 0, 0, 0] ++ hd.drop 12 ++ bs) ≠ leAt hd 8 4 then ends 0xD d
  else if seq ≠ (m.last.toNat + 1) % 65536 then ends 0xC d
  else
    let d1 := d.modMbx k (fun x => { x with last := BitVec.ofNat 16 seq })
    if !catalogue.contains op ∨ leAt hd 12 4 ≠ 0 then ends 2 d1 else settleCommand k op seq (runCommand fl k op bs c (settleHeld c d1)) c

/-! ## The take (R410, R413) -/

/-- Does the firmware run: out of reset, past stage 3, neither halted nor held in reset (R430, R431, R460)? -/
def firmwareRuns (c : Ctl) (d : Dev) : Bool := decide (4 ≤ c.boot.stage.toNat) && !c.boot.failed && !d.silkai.heldReset

/-- The firmware counts MBX_HEARTBEAT up every 1 ms: with each 100,000th tick of the timebase (R404's block of registers). -/
def countHeartbeat (s : State) : State :=
  if s.ctl.live && s.ctl.clk.counting && s.ctl.clk.timebase.toNat % 100000 == 0 && firmwareRuns s.ctl s.dev then
    { s with dev := s.dev.modSilkai (fun m => { m with heartbeat := m.heartbeat + 1 }) }
  else s

/-- One tick of the timebase passes: it counts where it runs (R504), and the heartbeat and the waits for a wake with it; Ethernet receive buffers that hold something drain
(R295). -/
def State.tick (s : State) : State :=
  let t0 := countHeartbeat { s with ctl := s.ctl.tick }
  let t := if s.ctl.live && s.ctl.clk.counting && !s.dev.fc.entering then { t0 with dev := t0.dev.countWaits } else t0
  if t.dev.fab.ports.any (fun q => !q.2.buf.isEmpty) then { t with dev := drainPorts { t.dev with out := [] } } else t

/-- Position `i` of the order mailbox 0, page 0, mailbox 1, …: is something pending there? -/
def waitingAt (d : Dev) (i : Nat) : Bool := if i % 2 = 0 then (d.mbx (i / 2)).st == .pending else (d.mbx (i / 2)).goPending

/-- The start that doorbell page `k` asks for is decided. -/
def takePage (k : Nat) (c : Ctl) (d : Dev) : Dev :=
  let r := if d.fc.entering then (6, d) else startProgram c (d.mbx k).goStep.toNat (settleHeld c d)
  mbxIrq k c (r.2.modMbx k (fun m => { m with goPending := false, goResult := BitVec.ofNat 4 r.1 }))

/-- The rotating pointer chooses, and advances past what it chose. -/
def devTake (fl : FlashRun) (c : Ctl) (d : Dev) : Dev :=
  if !firmwareRuns c d then d else
  match ((List.range 32).map (fun i => (d.silkai.ptr.toNat + i) % 32)).find? (waitingAt d) with
  | none => d
  | some i =>
    let d1 := d.modSilkai (fun m => { m with ptr := BitVec.ofNat 5 (i + 1) })
    if i % 2 = 0 then takeMailbox fl (i / 2) c d1 else takePage (i / 2) c d1

def execMbxCommandTake (s : State) (flash : FlashRun := .done) : Host.Outcome State Fault Refusal := onDev (devTake flash) s

/-- MBX_JIG_GO. With nothing else pending Silkai decides the start at once; else it waits for its take. -/
def devJigGo (k : Nat) (step : W64) (c : Ctl) (d : Dev) : Dev :=
  let m := d.mbx k
  if m.st = .notReady then d
  else if m.goPending then d.modMbx k (fun m => { m with doorbellDropCnt := cntInc m.doorbellDropCnt })
  else
    let alone := !(List.range 32).any (waitingAt d)
    let d1 := d.modMbx k (fun m => { m with goPending := true, goStep := step })
    if alone then devTake .done c d1 else d1

def execMbxJigGo (k : Fin 16) (port : Fin 16) (step : W64) (s : State) : Host.Outcome State Fault Refusal :=
  mbxWrite k.val port.val (0x20000 + k.val * 0x1000) (devJigGo k.val step) s

/-! ## Commands that wait (R411) -/

/-- The end of a command that waits, once its event has occurred. -/
def waitEnds (w : Waiting) (d : Dev) : Option (Nat × List Byte × Dev) :=
  match w with
  | .jigStop go => if d.life.state = .idle ∧ d.life.stopPending.isNone then some (0, [], if go && d.life.loaded then Dev.unload d else d) else none
  | .fabLeave => if allClosed d then some (0, [], leaveDone d) else none
  | .flowOpen f gen => if (d.flow f).state = .opening ∨ (d.flow f).state = .closed ∨ (d.flow f).gen.toNat ≠ gen then none else some (0, flowReply (d.flow f), d)
  | .flowClose f => if (d.flow f).state = .closed then some (0, [], d) else none
  | .reshard entries waves =>
    match d.coll.reshard with
    | some r => if r.phase = 3 then some (r.status, reshardReply entries waves d, d) else none
    | none => none
  | .fwUpdate _ _ => none

/-- The write of an update has ended, well or not (R439). -/
def updateEnd (k : Nat) (fl : FlashRun) (cfg : Bool) (img : List Byte) (c : Ctl) (d : Dev) : Dev :=
  let m := d.mbx k
  match fl with
  | .done => endCommand k m.waitOp.toNat m.waitSeq.toNat 0 (flashDone c cfg img d).1 c (flashDone c cfg img d).2
  | .fails => endCommand k m.waitOp.toNat m.waitSeq.toNat 0xD [] c (flashFailed c cfg img.length d)
  | .runs => d

def devWaitEnd (fl : FlashRun) (k : Nat) (c : Ctl) (d : Dev) : Dev :=
  let m := d.mbx k
  match m.waiting with
  | none => d
  | some (.fwUpdate cfg img) => updateEnd k fl cfg img c d
  | some w => match waitEnds w d with
    | some r => endCommand k m.waitOp.toNat m.waitSeq.toNat r.1 r.2.1 c r.2.2
    | none => d

def execMbxWaitingCommandEnd (k : Fin 16) (s : State) (flash : FlashRun := .done) : Host.Outcome State Fault Refusal :=
  onDev (fun c d => if firmwareRuns c d then devWaitEnd flash k.val c d else d) s

/-- What a TIMEOUT leaves behind: a stop stays requested, its UNLOAD only if another command that waits asks for it; a package
that was leaving stays joined. -/
def waitGivenUp (k : Nat) (w : Waiting) (d : Dev) : Dev :=
  match w with
  | .jigStop _ =>
    let others := (d.silkai.mbx.filter (fun p => p.1 != k)).any (fun p => p.2.waiting == some (.jigStop true))
    d.modLife (fun l => { l with stopPending := l.stopPending.map (fun _ => others) })
  | .fabLeave => d.modFab (fun f => { f with leaving := false })
  | _ => d

def devWaitLimit (k : Nat) (tie : Bool) (c : Ctl) (d : Dev) : Dev :=
  let m := d.mbx k
  match m.waiting with
  | none => d
  | some (.fwUpdate _ _) => d
  | some w =>
    if tie then d.modSilkai (fun s => { s with tieCnt := cntInc s.tieCnt })
    else if (waitEnds w d).isSome then d
    else endCommand k m.waitOp.toNat m.waitSeq.toNat 8 [] c (waitGivenUp k w d)

def execMbxWaitLimitExpiry (k : Fin 16) (tie : Bool) (s : State) : Host.Outcome State Fault Refusal :=
  onDev (fun c d => if firmwareRuns c d then devWaitLimit k.val tie c d else d) s

/-! ## Telemetry (R404) and the management bus (R440) -/

def execTelemetryRewrite (s : State) : Host.Outcome State Fault Refusal := onDev (fun c d => if firmwareRuns c d then rewriteTelemetry c d else d) s

/-! ## The Ndeler commands, one row each -/

/-- Takes go on until mailbox `k` has its turn: those that the rotating pointer reaches before it come first (R410). -/
def takeUntil (fl : FlashRun) (k : Nat) (c : Ctl) : Nat → Dev → Dev
  | 0, d => d
  | n + 1, d => if (d.mbx k).st = .pending then takeUntil fl k c n (devTake fl c d) else d

/-- A command with payload `bs` is written into mailbox `k` with the next SEQ, and taken in its turn. A mailbox with a command in hand, or
not ready, takes none. -/
def devCommand (k op : Nat) (bs : List Byte) (fl : FlashRun) (c : Ctl) (d : Dev) : Dev :=
  let seq := ((d.mbx k).last.toNat + 1) % 65536
  if !firmwareRuns c d ∨ inHand (d.mbx k) ∨ (d.mbx k).st = .notReady then d
  else takeUntil fl k c 32 (d.modMbx k (fun m => { putArea 0 (sealed op seq 0 bs) m with st := .pending }))

/-- A payload with one byte given. -/
def withByte (i v : Nat) (bs : List Byte) : List Byte := if i < bs.length then bs.take i ++ [BitVec.ofNat 8 v] ++ bs.drop (i + 1) else bs

def ndRow (k : Fin 16) (op : Nat) (bs : List Byte) (s : State) : Host.Outcome State Fault Refusal := onDev (devCommand k.val op bs .done) s

/-- A row whose command is told by a code in byte 0. -/
def ndRowOp (k : Fin 16) (op code : Nat) (bs : List Byte) (s : State) : Host.Outcome State Fault Refusal := onDev (devCommand k.val op (withByte 0 code bs) .done) s

def execNdHello (k : Fin 16) (payload : List Byte) (s : State) : Host.Outcome State Fault Refusal := ndRow k 0x0001 payload s
def execNdQuerySummary (k : Fin 16) (payload : List Byte) (s : State) : Host.Outcome State Fault Refusal := ndRowOp k 0x0002 0 payload s
def execNdQueryBenches (k : Fin 16) (payload : List Byte) (s : State) : Host.Outcome State Fault Refusal := ndRowOp k 0x0002 1 payload s
def execNdQueryNear (k : Fin 16) (payload : List Byte) (s : State) : Host.Outcome State Fault Refusal := ndRowOp k 0x0002 2 payload s
def execNdQueryFar (k : Fin 16) (payload : List Byte) (s : State) : Host.Outcome State Fault Refusal := ndRowOp k 0x0002 3 payload s
def execNdQueryEthernet (k : Fin 16) (payload : List Byte) (s : State) : Host.Outcome State Fault Refusal := ndRowOp k 0x0002 4 payload s
def execNdTierMode (k : Fin 16) (payload : List Byte) (s : State) : Host.Outcome State Fault Refusal := ndRow k 0x0100 payload s
def execNdAlloc (k : Fin 16) (payload : List Byte) (s : State) : Host.Outcome State Fault Refusal := ndRow k 0x0101 payload s
def execNdFree (k : Fin 16) (payload : List Byte) (s : State) : Host.Outcome State Fault Refusal := ndRow k 0x0102 payload s
def execNdRegionRegister (k : Fin 16) (payload : List Byte) (s : State) : Host.Outcome State Fault Refusal := ndRowOp k 0x0103 0 payload s
def execNdRegionUnregister (k : Fin 16) (payload : List Byte) (s : State) : Host.Outcome State Fault Refusal := ndRowOp k 0x0103 1 payload s
def execNdJigLoad (k : Fin 16) (payload : List Byte) (s : State) : Host.Outcome State Fault Refusal := ndRow k 0x0200 payload s
def execNdJigStart (k : Fin 16) (payload : List Byte) (s : State) : Host.Outcome State Fault Refusal := ndRow k 0x0201 payload s
def execNdJigStop (k : Fin 16) (payload : List Byte) (s : State) : Host.Outcome State Fault Refusal := ndRow k 0x0202 payload s
def execNdPanelDefineTable (k : Fin 16) (payload : List Byte) (s : State) : Host.Outcome State Fault Refusal := ndRowOp k 0x0300 0 payload s
def execNdPanelDefineDefine (k : Fin 16) (payload : List Byte) (s : State) : Host.Outcome State Fault Refusal := ndRowOp k 0x0300 1 payload s
def execNdOptConfigJob (k : Fin 16) (payload : List Byte) (s : State) : Host.Outcome State Fault Refusal := ndRowOp k 0x0301 0 payload s
def execNdOptConfigEntry (k : Fin 16) (payload : List Byte) (s : State) : Host.Outcome State Fault Refusal := ndRowOp k 0x0301 1 payload s
def execNdFabJoin (k : Fin 16) (payload : List Byte) (s : State) : Host.Outcome State Fault Refusal := ndRow k 0x0400 payload s
def execNdFabLeave (k : Fin 16) (payload : List Byte) (s : State) : Host.Outcome State Fault Refusal := ndRow k 0x0401 payload s
def execNdFlowOpen (k : Fin 16) (payload : List Byte) (s : State) : Host.Outcome State Fault Refusal := ndRow k 0x0402 payload s
def execNdFlowClose (k : Fin 16) (payload : List Byte) (s : State) : Host.Outcome State Fault Refusal := ndRow k 0x0403 payload s
def execNdCollGroupDefine (k : Fin 16) (payload : List Byte) (s : State) : Host.Outcome State Fault Refusal := ndRowOp k 0x0404 0 payload s
def execNdCollGroupDelete (k : Fin 16) (payload : List Byte) (s : State) : Host.Outcome State Fault Refusal := ndRowOp k 0x0404 1 payload s
def execNdReshardBuild (k : Fin 16) (payload : List Byte) (s : State) : Host.Outcome State Fault Refusal := ndRowOp k 0x0405 0 payload s
def execNdReshardBuildRun (k : Fin 16) (payload : List Byte) (s : State) : Host.Outcome State Fault Refusal := ndRowOp k 0x0405 1 payload s
def execNdReshardRun (k : Fin 16) (payload : List Byte) (s : State) : Host.Outcome State Fault Refusal := ndRowOp k 0x0405 2 payload s

/-- PORT_MASK is not 0 in the row of a snapshot: with 0 given, every port. -/
def execNdSnapshot (k : Fin 16) (payload : List Byte) (s : State) : Host.Outcome State Fault Refusal :=
  ndRow k 0x0500 (if leAt payload 20 1 = 0 then withByte 20 0xF payload else payload) s

def execNdSnapshotUnpin (k : Fin 16) (payload : List Byte) (s : State) : Host.Outcome State Fault Refusal := ndRow k 0x0500 (withByte 20 0 payload) s
def execNdRestore (k : Fin 16) (payload : List Byte) (s : State) : Host.Outcome State Fault Refusal := ndRow k 0x0501 payload s
def execNdReplayVerify (k : Fin 16) (payload : List Byte) (s : State) : Host.Outcome State Fault Refusal := ndRow k 0x0502 payload s
def execNdFaultCfgSource (k : Fin 16) (payload : List Byte) (s : State) : Host.Outcome State Fault Refusal := ndRowOp k 0x0600 0 payload s
def execNdFaultCfgPin (k : Fin 16) (payload : List Byte) (s : State) : Host.Outcome State Fault Refusal := ndRowOp k 0x0600 1 payload s
def execNdFaultLogFaults (k : Fin 16) (payload : List Byte) (s : State) : Host.Outcome State Fault Refusal := ndRowOp k 0x0601 0 payload s
def execNdFaultLogOrphans (k : Fin 16) (payload : List Byte) (s : State) : Host.Outcome State Fault Refusal := ndRowOp k 0x0601 1 payload s
def execNdFaultLogRepairs (k : Fin 16) (payload : List Byte) (s : State) : Host.Outcome State Fault Refusal := ndRowOp k 0x0601 2 payload s
def execNdRetireBench (k : Fin 16) (payload : List Byte) (s : State) : Host.Outcome State Fault Refusal := ndRowOp k 0x0602 0 payload s
def execNdRetirePcRetrain (k : Fin 16) (payload : List Byte) (s : State) : Host.Outcome State Fault Refusal := ndRowOp k 0x0602 1 payload s
def execNdRetirePcRetire (k : Fin 16) (payload : List Byte) (s : State) : Host.Outcome State Fault Refusal := ndRowOp k 0x0602 2 payload s
def execNdRetireEthLane (k : Fin 16) (payload : List Byte) (s : State) : Host.Outcome State Fault Refusal := ndRowOp k 0x0602 3 payload s
def execNdPowerLimit (k : Fin 16) (payload : List Byte) (s : State) : Host.Outcome State Fault Refusal := ndRow k 0x0700 payload s

/-- ND_FW_UPDATE, with what the flash does (R439). -/
def fwRow (k : Fin 16) (cfg : Bool) (bs : List Byte) (fl : FlashRun) (s : State) : Host.Outcome State Fault Refusal :=
  onDev (devCommand k.val 0x0701 (withByte 0 (b2n cfg) bs) fl) s

def execNdFwUpdateFirmware (k : Fin 16) (payload : List Byte) (s : State) (flash : FlashRun := .done) : Host.Outcome State Fault Refusal := fwRow k false payload flash s
def execNdFwUpdateConfig (k : Fin 16) (payload : List Byte) (s : State) (flash : FlashRun := .done) : Host.Outcome State Fault Refusal := fwRow k true payload flash s
def execNdTelemetryKerf (k : Fin 16) (payload : List Byte) (s : State) : Host.Outcome State Fault Refusal := ndRowOp k 0x0702 0 payload s
def execNdTelemetryPeriod (k : Fin 16) (payload : List Byte) (s : State) : Host.Outcome State Fault Refusal := ndRowOp k 0x0702 1 payload s
def execNdTelemetryRewrite (k : Fin 16) (payload : List Byte) (s : State) : Host.Outcome State Fault Refusal := ndRowOp k 0x0702 2 payload s

end Sys2Proof.Machine
end

