-- ==== Sys2Proof/Machine/Flags.lean ====
section
/-! DEFINITION. Status registers: what each read-only view shows, from the state it is a view of; a register read returns it
(Machine/Registers.lean). -/

namespace Sys2Proof.Machine

open Sys2Proof

/-! ## Benches (02, 03) -/

/-- BUSY [0], PENDING [1], LAST_RESULT [7:4], NONFINITE [8] of an engine (SPAD_DMA_STATUS, SPAD_VEC_STATUS, SPAD_ROW_STATUS). -/
def engStatus (e : Eng) : Nat :=
  b2n (decide (1 ≤ e.slots.length)) + b2n (decide (2 ≤ e.slots.length)) * 2 + e.last.toNat * 16 + b2n e.nonfinite * 256

/-- SPAD_MX_STATUS: the same without NONFINITE, and TILE [31:16]. -/
def mxStatus (e : Eng) : Nat := engStatus { e with nonfinite := false } + e.tile.toNat * 65536

/-- SPAD_OWNER[i]: OWNER [2:0], HANDOVER [7]. -/
def ownerView (b : Bench) (i : Nat) : Nat := tabGet 0 b.owner i + b2n (bitAt b.handover.toNat i) * 128

/-- SPAD_STAT_OWNER. -/
def statOwnerView (b : Bench) : Nat := b.statOwner.toNat + b2n b.statHandover * 128

/-! ## Near memory and far tier (04, 05) -/

/-- COH_NEAR_STATUS of home `h`: REFRESH_2X [0], TEMP [15:8], RETIRED [17:16], STAGED [18]. -/
def nearStatus (d : Dev) (h : Nat) : Nat :=
  b2n (d.nearCtl h).refresh2x + (d.nearCtl h).temp.toNat * 256 +
    (d.near.pcs.filter (fun p => decide (p.1 / 64 = h) && p.2.st == .retired)).length * 65536 +
    b2n (d.near.pcs.any (fun p => decide (p.1 / 64 = h) && pcStaged p.2)) * 262144

/-- COH_NEAR_CTL: WR_BATCH [3:0], SCRUB_EN [4], BC_EN [5]. -/
def nearCtlView (n : NearCtl) : Nat := n.wrBatch.toNat + b2n n.scrubEn * 16 + b2n n.bcEn * 32

/-- COH_NEAR_UE_ADDR: ADDR [47:0], VALID [63]. -/
def nearUeView (n : NearCtl) : Nat := n.ueAddr.toNat + b2n n.ueValid * 2 ^ 63

/-- STRM_QUEUE_STATUS: DEPTH [6:0], BUSY [7] while a descriptor, a migration or a repair runs. -/
def strmQueueStatus (d : Dev) (b : Nat) : Nat :=
  (d.stager b).queue.length +
    b2n (!(d.stager b).queue.isEmpty || d.far.pages.any (fun p => decide (p.1 % 4 = b) && (p.2.res == .promoting || p.2.res == .demoting)) ||
      d.far.repairs.any (fun r => decide (r.seg / 2 ^ 19 % 4 = b))) * 128

/-- STRM_TIER_STATUS: UNIFIED [0], PORTS_UP [4:1], REPAIRS_OPEN [9:5]. -/
def tierStatus (d : Dev) : Nat :=
  b2n d.far.unified + maskOf ((List.range 4).filter (fun n => (d.cxl n).role == 0 && (d.cxl n).up)) * 2 +
    (d.far.repairs.filter (fun r => r.fixed.isNone && !r.poisoned)).length * 32

/-! ## Jigs and streaming (06) -/

/-- JIG_Q_STATUS.STATE: an issuing queue waits (2) until its head's wait is reached, then may stand at a closed gate (3). -/
def queueState (d : Dev) (q : Queue) : Nat :=
  if q.state = 1 then
    (match headRec q with
    | some r => if !q.reached then 2 else if r.kind = 7 ∧ ¬(gateAt d (gatePos d q r)).opened ∧ recAddr q r < strmLen d then 3 else 1
    | none => 1)
  else q.state.toNat

/-- JIG_Q_STATUS: RECORD [15:0], STATE [19:16], HOISTING [20]. -/
def queueStatus (d : Dev) (j q : Nat) : Nat :=
  (d.queue j q).head % 65536 + queueState d (d.queue j q) * 65536 + b2n (d.queue j q).hoisting * 2 ^ 20

/-- JIG_STATUS of the global jig: STATE [3:0], UPDATE [4], LOADED [5], PHASE_K [11:6], RELOAD [12]. -/
def jigStatus (l : StepLife) : Nat :=
  stateCode l.state + b2n l.update * 16 + b2n l.loaded * 32 + l.phaseK.toNat * 64 + b2n l.reload * 4096

/-- JIG_STATUS of a bay jig: 0 idle, 1 running, 5 aborted. -/
def bayJigStatus (l : StepLife) : Nat :=
  (if l.state = .aborted then 5 else if l.state = .idle then 0 else 1) + b2n l.loaded * 32 + l.phaseK.toNat * 64

/-- JIG_RESTORE word `k` of a jig: bit i for counter 32 k + i. -/
def restoreView (g : Jig) (k : Nat) : Nat := (tabGet 0 g.restore k).toNat

/-- STRM_SLOT_STATE: four bits for each slot. -/
def slotStates (g : Stager) : Nat := (g.slots.map (fun p => p.2.state * 16 ^ p.1)).sum

/-- STRM_ENTRY: the current entry of the step. -/
def entryView (d : Dev) : Nat := d.stream.cur % max 1 (strmLen d)

/-! ## Planes (07) -/

/-- PLN_STATUS.STATE. -/
def planeCode (p : Plane) : Nat :=
  match p.state with
  | .idle => 0
  | .computing => 1
  | .committed => 2
  | .publishing => 3
  | .releasing => 4
  | .stopped => 5

/-- PLN_STATUS: STATE [2:0], MIRROR [3], PANEL [23:4]: the PANEL_ID whose table index the update in hand has. A plane with nothing else in hand
shows RELEASING for the oldest update that waits for its twin (R283). -/
def planeStatus (d : Dev) (h : Nat) : Nat :=
  let p := d.plane h
  let waits := if p.state = .idle then p.parked.head? else none
  (if waits.isSome then 4 else planeCode p) + (match p.cur.or waits with
    | some u => b2n u.mirror * 8 + (((d.opt.panelIndex.find? (fun e => decide (e.2 = u.idx))).map Prod.fst).getD 0) % 2 ^ 20 * 16
    | none => 0)

/-- PLN_PANEL_COUNT: the headers that the panel table holds (R259). -/
def panelCountView (d : Dev) : Nat := d.opt.panels.length

/-- PLN_RING_FREE. -/
def ringFree (o : OptJob) : Nat := o.ringFrames.toNat - o.ringUsed.length

/-! ## Fabric and collectives (08, 09) -/

/-- FlowState in the code of R307. -/
def flowCode (f : FlowState) : Nat :=
  match f with
  | .closed => 0
  | .opening => 1
  | .opn => 2
  | .draining => 3
  | .failed => 4

/-- Word `w` of FAB_FLOW (R307). TX_UNA is the oldest unacknowledged PSN, TX_NEXT with none. -/
def flowWord (now : Nat) (f : Flow) (w : Nat) : Nat :=
  match w with
  | 0 => flowCode f.state + f.gen.toNat * 8 + f.peerGen.toNat * 2 ^ 11 + f.paths.toNat * 2 ^ 19 + f.tc.toNat * 2 ^ 23 + f.peerNode * 2 ^ 32 + f.peerFlow * 2 ^ 48
  | 1 => f.portMask.toNat
  | 2 => f.txNext.toNat + ((f.unacked.map (fun t => t.frame.psn.toNat)).head?.getD f.txNext.toNat) * 2 ^ 32
  | 3 => f.rxCum.toNat + f.rxOrs.toNat * 2 ^ 32
  | 4 => f.rate + baseRtt now f * 2 ^ 32
  | 5 => f.unacked.length + ((f.unacked.head?.map (fun t => t.retries)).getD 0) * 2 ^ 16
  | _ => 0

/-- FAB_STATUS: NODE [15:0], JOINED [16], IPV6 [17]. -/
def fabStatus (f : Fabric) : Nat := f.node.toNat + b2n f.joined * 2 ^ 16 + b2n f.ipv6 * 2 ^ 17

/-- FAB_PORT_CFG: WIDTH [3:0], PORTS [10:4]. -/
def portCfg (f : Fabric) : Nat := f.cfgWidth.toNat + 64 / f.cfgWidth.toNat * 16

/-- FAB_PORT_STATUS: UP [0], WIDTH [4:1], PFC_EN [12:5]. -/
def portStatus (p : EthPort) : Nat := b2n p.up + p.width * 2 + p.pfcEn.toNat * 32

/-- FAB_LAST_ERR: STATUS [3:0], NODE [31:16], FLOW [47:32], VALID [63]. -/
def lastErr (x : FabAux) : Nat := x.errStatus.toNat + x.errNode.toNat * 2 ^ 16 + x.errFlow.toNat * 2 ^ 32 + b2n x.errValid * 2 ^ 63

/-- FAB_COLL_STATUS: ACTIVE [8:0], CLAMP_BUSY [9], DOVE_BUSY [10]. -/
def collStatus (m : Coll) : Nat :=
  m.ops.length + b2n m.clampBusy * 512 + b2n (m.ops.any (fun o => o.started && decide ((collDescOf o.words).op = 8))) * 1024

/-- FAB_CLAMP_FLAGS: VALID, NONFINITE, ABORT, SKIP, CLIPPED, D [31:16]. -/
def clampFlags (m : Coll) : Nat :=
  b2n m.valid + b2n m.lastRes.nonfinite * 2 + b2n m.lastRes.abort * 4 + b2n m.lastRes.skip * 8 + b2n m.lastRes.clipped * 16 + m.lastRes.d * 65536

/-! ## Coherence and host (10) -/

/-- COH_STATUS: OPEN [7:0], OVERFLOW [14:8], WB_BUF [22:15], EVICT_BUF [27:23], PRIORITY [31:28]. -/
def cohStatus (m : Home) : Nat :=
  m.txns.length + m.overflow.length * 256 + m.wb.length * 2 ^ 15 + m.evicts.length * 2 ^ 23 + m.ptr.toNat * 2 ^ 28

/-- COH_HOST_STATUS: UPSTREAM [0], LINK_UP [1], LOST [2], RETRAINING [3], HOST_LINES [26:8]. -/
def hostStatus (d : Dev) : Nat :=
  b2n (decide ((d.cxl 0).role = 1)) + b2n (d.host.st == .up || d.host.st == .retraining) * 2 + b2n d.host.lostFlag * 4 +
    b2n (d.host.st == .retraining) * 8 + d.host.filter.length * 256

/-- COH_HOST_POISON_ADDR. -/
def hostPoisonView (h : HostPort) : Nat := h.poisonAddr.toNat + b2n h.poisonValid * 2 ^ 63

/-- Word `w` of COH_ORPHAN[i]; zero where no entry stands. -/
def orphanWord (h : HostPort) (i w : Nat) : Nat :=
  match h.orphans[i]? with
  | some o => if w = 0 then o.line * 64 + o.cluster * 2 ^ 52 else o.time
  | none => 0

/-! ## Mailboxes and boot (11) -/

/-- MBX_STATUS.STATE. -/
def mbxCode (m : Mailbox) : Nat :=
  match m.st with
  | .idle => 0
  | .pending => 1
  | .busy => 2
  | .done => 3
  | .notReady => 4

/-- MBX_STATUS: STATE [2:0], RESULT [7:4], HOST_LOST [8], IRQ_PEND [9], SEQ [31:16]. -/
def mbxStatus (m : Mailbox) : Nat := mbxCode m + m.result.toNat * 16 + b2n m.hostLost * 256 + b2n m.irqPend * 512 + m.seq.toNat * 65536

/-- MBX_JIG_GO_STATUS: PENDING [0], RESULT [7:4]. -/
def goStatus (m : Mailbox) : Nat := b2n m.goPending + m.goResult.toNat * 16

/-- BOOT_STATUS, and its copy in the control window. -/
def bootStatus (b : Boot) : Nat :=
  b.stage.toNat + b2n b.ready * 16 + b2n b.failed * 32 + b2n b.cfgDefaulted * 64 + b.fwSlot.toNat * 128 + b2n b.fwFallback * 256 +
    b2n b.cold * 512 + b2n b.ptStale * 1024 + b.failCode.toNat * 65536

/-! ## The collector (12) -/

/-- FC_STATUS: SAFE, PIN, MODE, FALLBACK, NOTIFY, MAX_PEND [6:5], ANY_PEND, SAFE_VALID, SAFE_SRC [17:9]. -/
def fcStatus (fc : Collector) : Nat :=
  b2n fc.safe + b2n fc.pin * 2 + fc.mode.toNat * 4 + b2n fc.fallback * 8 + b2n fc.notify * 16 + fc.maxPend.getD 0 * 32 + b2n fc.maxPend.isSome * 128 +
    b2n fc.safeValid * 256 + fc.safeSrc.toNat * 512

/-- FC_PIN_CFG: THRESHOLD [1:0], MODE [2], PULSE_MIN_US [29:16]. -/
def pinCfgView (fc : Collector) : Nat := fc.threshold.toNat + fc.mode.toNat * 4 + fc.pulseMinUs.toNat * 65536

/-- FC_PENDING[k]: bit j for source 32 k + j. -/
def pendingView (fc : Collector) (k : Nat) : Nat := maskOf ((List.range 32).filter (fun j => (fc.src (32 * k + j)).pending))

/-- FC_SEVERITY[n]. -/
def severityView (fc : Collector) (n : Nat) : Nat :=
  let x := fc.src n
  x.sev.toNat + b2n (sevFixed n) * 4 + b2n x.lock * 8 + b2n x.noLog * 16 + b2n x.notify * 32 + b2n x.noNotify * 64 + b2n x.pending * 256 +
    x.pendSev.toNat * 512 + x.count.toNat * 65536

/-- Word `w` of a fault-log entry (R451). -/
def logWord (e : LogEntry) (w : Nat) : Nat :=
  match w with
  | 0 => e.time.toNat
  | 1 => e.src.toNat + e.sev.toNat * 512 + b2n e.floor * 2048 + b2n e.rep * 4096 + e.epoch.toNat * 65536 + e.step.toNat * 2 ^ 32
  | 2 => e.info.toNat
  | _ => e.seq.toNat

/-- FC_SELF_STATUS: ERR [0], KIND [1], OFFSET [23:4]. -/
def selfStatus (fc : Collector) : Nat := b2n fc.selfErr + fc.selfKind.toNat * 2 + fc.selfOff.toNat * 16

/-! ## Power and clocks (14) -/

/-- PWR_BENCH_DIV: four bits a bay. -/
def benchDivView (d : Dev) : Nat := (d.bay 0).div + (d.bay 1).div * 16 + (d.bay 2).div * 256 + (d.bay 3).div * 4096

/-- PWR_STATUS: BRAKE, LIMITING (the limit loop holds a bay slower than ÷5), LIMIT_MISS, THERMAL, WAKE_QUEUED [15:8]. -/
def powerStatus (d : Dev) : Nat :=
  b2n d.pwr.brake + b2n ((List.range 4).any (fun b => decide (5 < (d.bay b).limitDiv))) * 2 + b2n d.pwr.limitMiss * 4 +
    b2n ((List.range 4).any (fun b => decide (5 < (d.bay b).thermDiv))) * 8 +
    ((List.range 4).map (fun b => (d.bay b).queue.length)).sum * 256

/-- CLK_STATUS: PLL_LOCK, REFCLK_OK, ETH_REFCLK_OK, ON_OSC. -/
def clkStatus (c : Clocks) : Nat := b2n c.pllLock + b2n c.refclkOk * 2 + b2n c.ethRefclkOk * 4 + b2n c.onOsc * 8

end Sys2Proof.Machine
end

