-- ==== Sys2Proof/Machine/Management.lean ====
section
/-! DEFINITION. The management bus (11, R440): Silkai as an SPDM 1.2 responder. PRESUMED (log entry 71): the codes and layouts of
the messages are those of the published SPDM 1.2 standard, which R440 names. -/

namespace Sys2Proof.Machine

open Sys2Proof

/-- A number as `n` bytes, most significant first: digests and signatures as the standard carries them. -/
def natBE (n v : Nat) : List Byte := (natLE n v).reverse

/-- A message: version 1.2, code, two parameters, the rest. -/
def spdmMsg (code p1 p2 : Nat) (rest : List Byte) : List Byte := [0x12, BitVec.ofNat 8 code, BitVec.ofNat 8 p1, BitVec.ofNat 8 p2] ++ rest

/-- ERROR with a code and its data. -/
def spdmError (code data : Nat) : List Byte := spdmMsg 0x7F code data []

/-- VERSION: one entry, 1.2. The VERSION message itself carries version 1.0. -/
def spdmVersionReply : List Byte := [0x10, 0x04, 0, 0, 0, 1, 0x00, 0x12]

/-- CAPABILITIES: certificates, challenge, measurements with signature; no session. Sizes and timeout exponent are free. -/
def spdmCaps (d : Dev) : List Byte :=
  spdmMsg 0x61 0 0 ([0, BitVec.ofNat 8 (Config.choice d.free 256), 0, 0] ++ natLE 4 0x16 ++ natLE 4 (Config.choice (d.free + 1) (2 ^ 32)) ++ natLE 4 (Config.choice (d.free + 2) (2 ^ 32)))

/-- ALGORITHMS: ECDSA P-384 with SHA-384. -/
def spdmAlgs : List Byte := spdmMsg 0x63 0 0 (natLE 2 36 ++ [1, 0] ++ natLE 4 4 ++ natLE 4 0x80 ++ natLE 4 2 ++ List.replicate 16 0)

/-- The device certificate chain: a value of the root of trust. -/
def certChain : List Byte := natLE (Config.crypto 1 0 % 4096) (Config.crypto 2 0)

/-- Its digest. -/
def chainDigest : List Byte := natBE 48 (Config.sha384 certChain)

/-- CERTIFICATE: a portion of the chain by offset and length. -/
def spdmCert (slot : Nat) (data : List Byte) : List Byte :=
  let part := (certChain.drop (leAt data 0 2)).take (leAt data 2 2)
  spdmMsg 0x02 slot 0 (natLE 2 part.length ++ natLE 2 (certChain.length - leAt data 0 2 - part.length) ++ part)

/-- The measurements of R440: index, kind of value, value. -/
def measurements (c : Ctl) (d : Dev) : List (Nat × Nat × List Byte) :=
  let image := if c.boot.fwSlot = 0 then d.flash.slotA else d.flash.slotB
  [(1, 0, natBE 48 (Config.crypto 3 0)), (2, 1, natBE 48 (Config.sha384 image)),
   (3, 3, natBE 48 (if c.boot.cfgDefaulted then Config.crypto 4 0 else Config.sha384 d.flash.config)), (4, 1, natBE 48 (Config.sha384 d.flash.loader)),
   (5, 0x85, natLE 4 (b2n c.jtag.unlocked))]

def measurementBlock (m : Nat × Nat × List Byte) : List Byte :=
  [BitVec.ofNat 8 m.1, 1] ++ natLE 2 (m.2.2.length + 3) ++ [BitVec.ofNat 8 m.2.1] ++ natLE 2 m.2.2.length ++ m.2.2

/-- MEASUREMENTS: the count, one, or all; nonce; a signature where asked for. -/
def spdmMeasure (p1 p2 : Nat) (c : Ctl) (d : Dev) : List Byte :=
  let ms := (measurements c d).filter (fun m => p2 == 0xFF || m.1 == p2)
  if p2 ≠ 0 ∧ ms.isEmpty then spdmError 0x01 0 else
  let rec_ := if p2 = 0 then [] else ms.flatMap measurementBlock
  let body := [BitVec.ofNat 8 (if p2 = 0 then 0 else ms.length)] ++ natLE 3 rec_.length ++ rec_ ++ (natLE 48 (Config.nonce d.free).toNat).take 32 ++ [0, 0]
  let msg := spdmMsg 0x60 (if p2 = 0 then 5 else 0) 0 body
  if bitAt p1 0 then msg ++ natBE 96 (Config.crypto 5 (d.free + 1)) else msg

/-- CHALLENGE_AUTH: chain digest, nonce, summary of the measurements where asked for, signature. -/
def spdmChallenge (slot p2 : Nat) (d : Dev) : List Byte :=
  spdmMsg 0x03 slot 1 (chainDigest ++ (natLE 48 (Config.nonce d.free).toNat).take 32 ++ (if p2 = 0 then [] else natBE 48 (Config.crypto 6 (d.free + 1))) ++ [0, 0] ++
    natBE 96 (Config.crypto 7 (d.free + 2)))

/-- The answer to a request; GET_VERSION comes first. -/
def spdmAnswer (code p1 p2 : Nat) (data : List Byte) (c : Ctl) (d : Dev) : List Byte :=
  if code = 0x84 then spdmVersionReply
  else if !d.silkai.spdmVersion then spdmError 0x04 0
  else match code with
    | 0xE1 => spdmCaps d
    | 0xE3 => spdmAlgs
    | 0x81 => spdmMsg 0x01 0 1 chainDigest
    | 0x82 => spdmCert p1 data
    | 0x83 => spdmChallenge p1 p2 d
    | 0xE0 => spdmMeasure p1 p2 c d
    | _ => spdmError 0x07 code

/-- Is the management bus in service: the firmware runs, or boot has halted (R431, R440), and Silkai is not held in reset (R460)? -/
def busServed (c : Ctl) (d : Dev) : Bool := (decide (4 ≤ c.boot.stage.toNat) || c.boot.failed) && !d.silkai.heldReset

/-- The 64 bytes of a private read: BOOT_STATUS, MBX_HEARTBEAT, bytes 0 to 47 of the telemetry area, which are zero in the halted state; bytes 8
to 15 are not given, and free (R440). -/
def privateView (c : Ctl) (d : Dev) : List Byte :=
  natLE 4 (bootStatus c.boot) ++ natLE 4 d.silkai.heartbeat.toNat ++ Dev.undefBytes d.free 8 ++
    (if c.boot.failed then List.replicate 48 0 else (telemetryBytes d.silkai.tel).take 48)

def devSpdm (code p1 p2 : Nat) (data : List Byte) (c : Ctl) (d : Dev) : Dev :=
  if !busServed c d then d else
  let d1 := d.emit (.mgmt (spdmAnswer code p1 p2 data c d))
  ({ d1 with free := d.free + 3 }).modSilkai (fun m => { m with spdmVersion := m.spdmVersion || code == 0x84 })

/-- The private read at I3C_ADDR: served in the halted state, and with Silkai held in reset (R440, R460). -/
def devPrivateRead (c : Ctl) (d : Dev) : Dev :=
  if decide (4 ≤ c.boot.stage.toNat) || c.boot.failed then { d.emit (.mgmt (privateView c d)) with free := d.free + 1 } else d

/-- A request on the management bus: of SPDM, or a private read, whose other operands say nothing (DESIGN CHOICE, log 173). -/
def execSpdmRequest (code param1 param2 : BitVec 8) (data : List Byte) (s : State) (privateRead : Bool := false) : Host.Outcome State Fault Refusal :=
  onDev (if privateRead then devPrivateRead else devSpdm code.toNat param1.toNat param2.toNat data) s

end Sys2Proof.Machine
end

