-- ==== Sys2Proof/Machine/Registers.lean ====
section
/-! DEFINITION. Registers (R16 to R21, R64, R524): which register stands at an address, what a read returns and what a write does. -/

namespace Sys2Proof.Machine

open Sys2Proof

/-- What a register does when written (R16). -/
inductive RegWrite where
  /-- nothing: the write of a read-only register is ignored -/
  | ignored
  /-- nothing, and the write is recorded under R19 -/
  | dropped
  /-- sets its value -/
  | value (set : Nat → Dev → Dev)
  /-- acts on the ones written: W1C, W1S, WO -/
  | ones (f : Nat → Dev → Dev)
  /-- a register with a row of its own, or a whole-value action (R524): requester and value -/
  | act (f : Nat → Nat → Ctl → Dev → Ctl × Dev)

/-- A register: its width in bits, what a read returns (zero for its write-only and reserved bits, R14, R16), and what a write
does. -/
structure Reg where
  width : Nat
  read : Ctl → Dev → Nat
  write : RegWrite
  /-- a counter or timestamp of 64 bits: a low-half read latches the high half (R20) -/
  halves : Bool := false

/-- A read-only register. -/
def roReg (w : Nat) (get : Ctl → Dev → Nat) : Option Reg := some { width := w, read := get, write := .ignored }

/-- A timestamp. -/
def timeReg (f : Ctl → Dev → Nat) : Option Reg := some { width := 64, read := f, write := .ignored, halves := true }

/-- A register that holds what is written. -/
def rwReg (w : Nat) (get : Dev → Nat) (set : Nat → Dev → Dev) : Option Reg := some { width := w, read := fun _ d => get d, write := .value set }

def cnt32 (get : Dev → W32) (set : W32 → Dev → Dev) : Option Reg := rwReg 32 (fun d => (get d).toNat) (fun v d => set (BitVec.ofNat 32 v) d)
def cnt64 (get : Dev → W64) (set : W64 → Dev → Dev) : Option Reg :=
  some { width := 64, read := fun _ d => (get d).toNat, write := .value (fun v d => set (BitVec.ofNat 64 v) d), halves := true }

/-- A register whose ones act. -/
def onesReg (w : Nat) (get : Dev → Nat) (f : Nat → Dev → Dev) : Option Reg := some { width := w, read := fun _ d => get d, write := .ones f }

/-- An action on the device alone. -/
def actDev (w : Nat) (get : Dev → Nat) (f : Nat → Nat → Ctl → Dev → Dev) : Option Reg :=
  some { width := w, read := fun _ d => get d, write := .act (fun p v c d => (c, f p v c d)) }

/-- An action of a block that the safe state stops (R460). -/
def actWork (w : Nat) (get : Dev → Nat) (f : Nat → Nat → Ctl → Dev → Dev) : Option Reg :=
  some { width := w, read := fun _ d => get d, write := .act (fun p v c d => (c, if d.fc.entering then d else f p v c d)) }

/-- A write-only register reads as zero (R16). -/
def reads0 (_ : Dev) : Nat := 0

/-! ## Bench registers (02, 03) -/

/-- An engine's registers at 0x3000 (DMA), 0x4000 (MX), 0x5000 (VEC), 0x6000 (ROW). -/
def engineReg (i m off : Nat) : Option Reg :=
  let get := fun (d : Dev) => engOf (d.bench i) m
  let mod := fun (f : Eng → Eng) (d : Dev) => d.modBench i (fun b => setEng b m (f (engOf b m)))
  let w1c := fun (bit : Nat) (view : Eng → Nat) => onesReg 32 (fun d => view (get d)) (fun v d => if bitAt v bit then mod (fun e => { e with nonfinite := false }) d else d)
  let tasks := cnt32 (fun d => (get d).taskCnt) (fun v => mod (fun e => { e with taskCnt := v }))
  let nonfin := cnt32 (fun d => (get d).nonfinCnt) (fun v => mod (fun e => { e with nonfinCnt := v }))
  match m, off with
  | 0, 0x00 => roReg 32 (fun _ d => engStatus (get d))
  | 0, 0x10 => tasks
  | 1, 0x00 => roReg 32 (fun _ d => mxStatus (get d))
  | 1, 0x04 => w1c 0 (fun e => b2n e.nonfinite)
  | 1, 0x10 => nonfin
  | 1, 0x18 => cnt64 (fun d => (get d).busyClk) (fun v => mod (fun e => { e with busyClk := v }))
  | 1, 0x20 => cnt64 (fun d => (get d).usefulClk) (fun v => mod (fun e => { e with usefulClk := v }))
  | 1, 0x28 => tasks
  | 2, 0x00 => w1c 8 engStatus
  | 2, 0x10 => nonfin
  | 2, 0x18 => tasks
  | 3, 0x00 => w1c 8 engStatus
  | 3, 0x10 => nonfin
  | 3, 0x18 => tasks
  | _, _ => none

def benchReg (i off : Nat) : Option Reg :=
  let b32 := fun (get : Bench → W32) (set : W32 → Bench → Bench) => cnt32 (fun d => get (d.bench i)) (fun v d => d.modBench i (set v))
  let onB := fun (view : Bench → Nat) (f : Nat → Bench → Bench) => actWork 32 (fun d => view (d.bench i)) (fun _ v _ d => d.modBench i (f v))
  if off < 0x40 then (if off % 4 = 0 then onB (fun b => ownerView b (off / 4)) (fun v => writeOwner [off / 4] (bits v 0 3) (bitAt v 3) (bits v 4 3)) else none)
  else if 0x100 ≤ off ∧ off < 0x128 then
    (if off % 8 = 0 then cnt64 (fun d => tabGet 0 (d.bench i).waitCnt ((off - 0x100) / 8)) (fun v d => d.modBench i (fun b => { b with waitCnt := tabSet 0 b.waitCnt ((off - 0x100) / 8) v })) else none)
  else if 0x3000 ≤ off ∧ off < 0x7000 then engineReg i (off / 0x1000 - 3) (off % 0x1000)
  else match off with
    | 0x40 => onB (fun _ => 0) writeOwnerSet
    | 0x44 => actWork 32 (fun d => (d.bench i).paired.toNat) (fun p v c d => devSpadPair p i v c d)
    | 0x48 => onB statOwnerView writeStatOwner
    | 0x4C => b32 (fun b => b.waitLimit) (fun v b => { b with waitLimit := v })
    | 0x140 => b32 (fun b => b.tieCnt) (fun v b => { b with tieCnt := v })
    | 0x144 => b32 (fun b => b.handoverFailCnt) (fun v b => { b with handoverFailCnt := v })
    | 0x148 => b32 (fun b => b.eccCeCnt) (fun v b => { b with eccCeCnt := v })
    | _ => none

/-! ## Homes: directory, near memory, host port (04, 10) -/

/-- COH_NEAR_CTL: WR_BATCH unless 0, SCRUB_EN, BC_EN (R152, R162, R181). -/
def writeNearCtl (v : Nat) (n : NearCtl) : NearCtl :=
  let n1 := { n with wrBatch := if bits v 0 4 = 0 then n.wrBatch else BitVec.ofNat 4 (bits v 0 4), scrubEn := bitAt v 4 }
  if bitAt v 5 then bcEnable n1 else bcDisable n1

def nearReg (h off : Nat) : Option Reg :=
  let n32 := fun (get : NearCtl → W32) (set : W32 → NearCtl → NearCtl) => cnt32 (fun d => get (d.nearCtl h)) (fun v d => d.modNearCtl h (set v))
  match off with
  | 0x8000 => actDev 32 (fun d => nearCtlView (d.nearCtl h)) (fun _ v _ d => d.modNearCtl h (writeNearCtl v))
  | 0x8004 => n32 (fun n => n.scrubPeriod) (fun v n => { n with scrubPeriod := v })
  | 0x8008 => roReg 32 (fun _ d => nearStatus d h)
  | 0x8010 => n32 (fun n => n.ceCnt) (fun v n => { n with ceCnt := v })
  | 0x8014 => n32 (fun n => n.ueCnt) (fun v n => { n with ueCnt := v })
  | 0x8018 => n32 (fun n => n.turnCnt) (fun v n => { n with turnCnt := v })
  | 0x8020 => cnt64 (fun d => (d.nearCtl h).bcHitCnt) (fun v d => d.modNearCtl h (fun n => { n with bcHitCnt := v }))
  | 0x8028 => cnt64 (fun d => (d.nearCtl h).bcMissCnt) (fun v d => d.modNearCtl h (fun n => { n with bcMissCnt := v }))
  | 0x8030 => onesReg 64 (fun d => nearUeView (d.nearCtl h)) (fun v d => if bitAt v 63 then d.modNearCtl h (fun n => { n with ueValid := false }) else d)
  | _ => none

/-- The registers of the host port, in home 0. -/
def hostReg (off : Nat) : Option Reg :=
  let h32 := fun (get : HostPort → W32) (set : W32 → HostPort → HostPort) => cnt32 (fun d => get d.host) (fun v d => d.modHost (set v))
  match off with
  | 0x9000 => onesReg 32 hostStatus (fun v d => if bitAt v 2 then d.modHost (fun h => { h with lostFlag := false }) else d)
  | 0x9008 => rwReg 64 (fun d => d.host.base.toNat * 2 ^ 30) (fun v d => if d.host.filter.isEmpty then d.modHost (fun h => { h with base := BitVec.ofNat 22 (bits v 30 22) }) else d)
  | 0x9010 => h32 (fun h => h.lostCnt) (fun v h => { h with lostCnt := v })
  | 0x9014 => h32 (fun h => h.retrainCnt) (fun v h => { h with retrainCnt := v })
  | 0x9018 => onesReg 32 (fun d => d.host.orphans.length) (fun v d => if bitAt v 9 then d.modHost (fun h => { h with orphans := [] }) else d)
  | 0x901C => h32 (fun h => h.orphanOvfCnt) (fun v h => { h with orphanOvfCnt := v })
  | 0x9020 => h32 (fun h => h.poisonCnt) (fun v h => { h with poisonCnt := v })
  | 0x9028 => onesReg 64 (fun d => hostPoisonView d.host) (fun v d => if bitAt v 63 then d.modHost (fun h => { h with poisonValid := false }) else d)
  | _ => if 0x9800 ≤ off ∧ off < 0xA800 ∧ off % 8 = 0 then (if off / 8 % 2 = 1 then timeReg else roReg 64) (fun _ d => orphanWord d.host ((off - 0x9800) / 16) (off / 8 % 2)) else none

def homeReg (h off : Nat) : Option Reg :=
  let m32 := fun (get : Home → W32) (set : W32 → Home → Home) => cnt32 (fun d => get (d.home h)) (fun v d => d.modHome h (set v))
  if 0x8000 ≤ off ∧ off < 0x9000 then nearReg h off
  else if 0x9000 ≤ off then (if h = 0 then hostReg off else none)
  else match off with
    | 0x00 => roReg 32 (fun _ d => cohStatus (d.home h))
    | 0x04 => m32 (fun m => m.snoopTimeout) (fun v m => { m with snoopTimeout := v })
    | 0x10 => actDev 64 reads0 (fun _ v c d => devDirProbe h v c d)
    | 0x18 => roReg 64 (fun _ d => (d.home h).probe.toNat)
    | 0x40 => m32 (fun m => m.retryCnt) (fun v m => { m with retryCnt := v })
    | 0x44 => m32 (fun m => m.overflowCnt) (fun v m => { m with overflowCnt := v })
    | 0x48 => m32 (fun m => m.backinvCnt) (fun v m => { m with backinvCnt := v })
    | 0x4C => m32 (fun m => m.staleMissCnt) (fun v m => { m with staleMissCnt := v })
    | 0x50 => m32 (fun m => m.evictingCnt) (fun v m => { m with evictingCnt := v })
    | 0x54 => m32 (fun m => m.upgRdownCnt) (fun v m => { m with upgRdownCnt := v })
    | 0x58 => m32 (fun m => m.timeoutTieCnt) (fun v m => { m with timeoutTieCnt := v })
    | 0x5C => m32 (fun m => m.snoopCnt) (fun v m => { m with snoopCnt := v })
    | _ => none

/-! ## Stagers (05, 06) -/

/-- Registers that stand in the block of stager 0 only. -/
def stager0Reg (off : Nat) : Option Reg :=
  let s32 := fun (get : Stream → W32) (set : W32 → Stream → Stream) => cnt32 (fun d => get d.stream) (fun v d => d.modStream (set v))
  match off with
  | 0x100 => s32 (fun m => m.watchdogTicks) (fun v m => { m with watchdogTicks := v })
  | 0x104 => s32 (fun m => m.stallCnt) (fun v m => { m with stallCnt := v })
  | 0x108 => cnt64 (fun d => d.stream.stallTimeCnt) (fun v d => d.modStream (fun m => { m with stallTimeCnt := v }))
  | 0x110 => s32 (fun m => m.tieCnt) (fun v m => { m with tieCnt := v })
  | 0x114 => s32 (fun m => m.reuseCnt) (fun v m => { m with reuseCnt := v })
  | 0x118 => roReg 64 (fun _ d => d.stream.kerfBase.toNat)
  | 0x120 => roReg 32 (fun _ d => d.stream.kerfLen.toNat)
  | 0x124 => roReg 32 (fun _ d => d.stream.kerfWr.toNat)
  | 0x1100 => cnt32 (fun d => d.far.epochTicks) (fun v d => d.modFar (fun f => { f with epochTicks := v }))
  | 0x1104 => rwReg 32 (fun d => d.far.promoteThresh.toNat) (fun v d => d.modFar (fun f => { f with promoteThresh := BitVec.ofNat 10 v }))
  | 0x1108 => rwReg 32 (fun d => d.far.lowWm.toNat) (fun v d => d.modFar (fun f => { f with lowWm := BitVec.ofNat 18 v }))
  | 0x110C => rwReg 32 (fun d => d.far.highWm.toNat) (fun v d => d.modFar (fun f => { f with highWm := BitVec.ofNat 18 v }))
  | 0x1110 => roReg 32 (fun _ d => tierStatus d)
  | _ => none

def stagerReg (b off : Nat) : Option Reg :=
  let s32 := fun (get : Stager → W32) (set : W32 → Stager → Stager) => cnt32 (fun d => get (d.stager b)) (fun v d => d.modStager b (set v))
  let s64 := fun (get : Stager → W64) (set : W64 → Stager → Stager) => cnt64 (fun d => get (d.stager b)) (fun v d => d.modStager b (set v))
  match off with
  | 0x00 => roReg 64 (fun _ d => (d.stager b).winBase.toNat)
  | 0x08 => roReg 32 (fun _ d => (d.stager b).slotSize.toNat)
  | 0x10 => roReg 64 (fun _ d => (d.stager b).streamBase.toNat)
  | 0x18 => roReg 32 (fun _ d => (d.stager b).entries.toNat + (d.stager b).lookahead.toNat * 2 ^ 20)
  | 0x20 => roReg 64 (fun _ d => slotStates (d.stager b))
  | 0x28 => roReg 32 (fun _ d => entryView d)
  | 0x1000 => actWork 64 reads0 (fun _ v c d => devSubmit b v c d)
  | 0x1008 => roReg 32 (fun _ d => strmQueueStatus d b)
  | 0x1010 => s32 (fun g => g.submitFullCnt) (fun v g => { g with submitFullCnt := v })
  | 0x1018 => s64 (fun g => g.farRdBytes) (fun v g => { g with farRdBytes := v })
  | 0x1020 => s64 (fun g => g.decodedBytes) (fun v g => { g with decodedBytes := v })
  | 0x1028 => s64 (fun g => g.farWrBytes) (fun v g => { g with farWrBytes := v })
  | 0x1030 => s64 (fun g => g.encodeInBytes) (fun v g => { g with encodeInBytes := v })
  | 0x1040 => s32 (fun g => g.promoteCnt) (fun v g => { g with promoteCnt := v })
  | 0x1044 => s32 (fun g => g.demoteCnt) (fun v g => { g with demoteCnt := v })
  | 0x1048 => s32 (fun g => g.dropCleanCnt) (fun v g => { g with dropCleanCnt := v })
  | 0x104C => s32 (fun g => g.farPageRdCnt) (fun v g => { g with farPageRdCnt := v })
  | 0x1050 => s32 (fun g => g.repairCnt) (fun v g => { g with repairCnt := v })
  | 0x1054 => s32 (fun g => g.repairFailCnt) (fun v g => { g with repairFailCnt := v })
  | _ => if b = 0 then stager0Reg off else none

/-! ## Jigs (06) -/

/-- Base of a jig's register block (R64). -/
def jigBase (j : Nat) : Nat := if j = 4 then 0x3F0002000000 else 0x3F0002100000 + j * 0x100000

/-- JIG_CTR_ADD (R234): an index the jig does not have drops the write. A signal from inside the package carries no epoch. -/
def devCtrAdd (j port v : Nat) (c : Ctl) (d : Dev) : Dev :=
  let base := jigBase j
  if ctrCount j ≤ bits v 0 12 then dropWrite (base + 0x40) port c d else if d.fc.entering then d else d.signal j (bits v 0 12) (bits v 32 32)

def execJigCtrAddWrite (jig : Fin 5) (port : Fin 16) (value : W64) (s : State) : Host.Outcome State Fault Refusal :=
  onDev (guardCsr port.val (jigBase jig.val + 0x40) 8 (devCtrAdd jig.val port.val value.toNat)) s

def jigReg (j off : Nat) : Option Reg :=
  let g32 := fun (get : Jig → W32) (set : W32 → Jig → Jig) => cnt32 (fun d => get (d.jig j)) (fun v d => d.modJig j (set v))
  let many := fun (base n : Nat) => base ≤ off ∧ off < base + 4 * n ∧ off % 4 = 0
  if many 0x1000 (if j = 4 then 256 else 64) then roReg 32 (fun _ d => queueStatus d j ((off - 0x1000) / 4))
  else if many 0x10000 (ctrCount j) then roReg 32 (fun _ d => (tabGet 0 (d.jig j).ctr ((off - 0x10000) / 4)).toNat)
  else if many 0x20000 (ctrCount j) then roReg 32 (fun _ d => (tabGet 0 (d.jig j).snap ((off - 0x20000) / 4)).toNat)
  else if many 0x30000 (ctrCount j / 32) then roReg 32 (fun _ d => restoreView (d.jig j) ((off - 0x30000) / 4))
  else match off with
    | 0x00 => roReg 32 (fun _ d => if j = 4 then jigStatus d.life else bayJigStatus d.life)
    | 0x08 => roReg 64 (fun _ d => d.life.step.toNat)
    | 0x10 => roReg 32 (fun _ d => d.life.epoch.toNat)
    | 0x14 => g32 (fun g => g.waitTimeout) (fun v g => { g with waitTimeout := v })
    | 0x18 => if j = 4 then roReg 32 (fun _ _ => 0) else rwReg 32 (fun d => (d.jig j).hoistDepth.toNat) (fun v d => d.modJig j (fun g => { g with hoistDepth := BitVec.ofNat 7 v }))
    | 0x20 => g32 (fun g => g.tieCnt) (fun v g => { g with tieCnt := v })
    | 0x24 => g32 (fun g => g.staleSigCnt) (fun v g => { g with staleSigCnt := v })
    | 0x28 => g32 (fun g => g.hoistCnt) (fun v g => { g with hoistCnt := v })
    | 0x2C => g32 (fun g => g.earlySigCnt) (fun v g => { g with earlySigCnt := v })
    | 0x40 => actDev 64 reads0 (devCtrAdd j)
    | _ => none

/-! ## Planes (07) -/

def planeReg (h off : Nat) : Option Reg :=
  let p32 := fun (get : Plane → W32) (set : W32 → Plane → Plane) => cnt32 (fun d => get (d.plane h)) (fun v d => d.modPlane h (set v))
  match off with
  | 0x00 => roReg 32 (fun _ d => planeStatus d h)
  | 0x08 => roReg 64 (fun _ d => (d.plane h).panelBase.toNat)
  | 0x10 => roReg 32 (fun _ d => panelCountView d)
  | 0x18 => roReg 64 (fun _ d => (d.plane h).stageBase.toNat)
  | 0x20 => p32 (fun p => p.twinTimeout) (fun v p => { p with twinTimeout := v })
  | 0x40 => p32 (fun p => p.updateCnt) (fun v p => { p with updateCnt := v })
  | 0x44 => p32 (fun p => p.rerunCnt) (fun v p => { p with rerunCnt := v })
  | 0x48 => p32 (fun p => p.nonfiniteCnt) (fun v p => { p with nonfiniteCnt := v })
  | 0x4C => p32 (fun p => p.ledgerWaitCnt) (fun v p => { p with ledgerWaitCnt := v })
  | 0x50 => p32 (fun p => p.lateAddCnt) (fun v p => { p with lateAddCnt := v })
  | 0x54 => p32 (fun p => p.tieCnt) (fun v p => { p with tieCnt := v })
  | 0x58 => p32 (fun p => p.twinLostCnt) (fun v p => { p with twinLostCnt := v })
  | 0x60 => cnt64 (fun d => (d.plane h).paramCnt) (fun v d => d.modPlane h (fun p => { p with paramCnt := v }))
  | 0x100 => if h = 0 then roReg 64 (fun _ d => d.opt.ringBase.toNat) else none
  | 0x108 => if h = 0 then roReg 32 (fun _ d => d.opt.ringFrames.toNat) else none
  | 0x10C => if h = 0 then roReg 32 (fun _ d => ringFree d.opt) else none
  | 0x110 => if h = 0 then roReg 32 (fun _ d => d.opt.lossScale.toNat) else none
  | 0x114 => if h = 0 then roReg 32 (fun _ d => d.opt.goodSteps.toNat) else none
  | _ => none

/-! ## Fabric and collective engines (08, 09) -/

/-- The bits of a window-table entry that are not reserved (R14, R320): VALID to ATOM, NODE and FLOW; REMOTE_BASE. -/
def winMask (high : Bool) (v : W64) : W64 := v &&& (if high then 0x0000FFFFFFFFFFFF else 0x0000FFFFFFFF000F)

/-- FAB_WIN[i]: an entry of the window table, in force for translations from the next on (R320, R321). -/
def setWin (i : Nat) (high : Bool) (v : W64) (d : Dev) : Dev :=
  d.modFab (fun f => { f with win := tabMod (0, 0) f.win i (fun e => if high then (e.1, winMask high v) else (winMask high v, e.2)) })

def execFabWinWrite (entry : Fin 4096) (high : Bool) (value : W64) (s : State) (port : Fin 16 := 15) : Host.Outcome State Fault Refusal :=
  onDev (guardCsr port.val (0x3F0004100000 + entry.val * 16 + (if high then 8 else 0)) 8 (fun _ d => setWin entry.val high value d)) s

/-- FAB_UDP_PORT changes only while no flow is open. -/
def setUdpPort (v : Nat) (d : Dev) : Dev := if d.fab.flows.any (fun f => f.2.state == .opn) then d else d.modFab (fun f => { f with udpPort := BitVec.ofNat 16 v })

/-- Counters of the fabric engine. -/
def fabCntReg (off : Nat) : Option Reg :=
  let a32 := fun (get : FabAux → W32) (set : W32 → FabAux → FabAux) => cnt32 (fun d => get d.aux) (fun v d => d.modAux (set v))
  match off with
  | 0x100 => cnt64 (fun d => d.aux.txFrameCnt) (fun v d => d.modAux (fun x => { x with txFrameCnt := v }))
  | 0x108 => cnt64 (fun d => d.aux.rxFrameCnt) (fun v d => d.modAux (fun x => { x with rxFrameCnt := v }))
  | 0x110 => a32 (fun x => x.retxCnt) (fun v x => { x with retxCnt := v })
  | 0x114 => a32 (fun x => x.rnrCnt) (fun v x => { x with rnrCnt := v })
  | 0x118 => a32 (fun x => x.dupCnt) (fun v x => { x with dupCnt := v })
  | 0x11C => a32 (fun x => x.windowDropCnt) (fun v x => { x with windowDropCnt := v })
  | 0x120 => a32 (fun x => x.staleDropCnt) (fun v x => { x with staleDropCnt := v })
  | 0x124 => a32 (fun x => x.icrcErrCnt) (fun v x => { x with icrcErrCnt := v })
  | 0x128 => a32 (fun x => x.rxDropCnt) (fun v x => { x with rxDropCnt := v })
  | 0x12C => a32 (fun x => x.ceCnt) (fun v x => { x with ceCnt := v })
  | 0x130 => a32 (fun x => x.tieCnt) (fun v x => { x with tieCnt := v })
  | 0x134 => a32 (fun x => x.orsWaitCnt) (fun v x => { x with orsWaitCnt := v })
  | 0x180 => onesReg 64 (fun d => lastErr d.aux) (fun v d => if bitAt v 63 then d.modAux (fun x => { x with errValid := false }) else d)
  | _ => none

def fabricReg (off : Nat) : Option Reg :=
  let f32 := fun (get : Fabric → W32) (set : W32 → Fabric → Fabric) => cnt32 (fun d => get d.fab) (fun v d => d.modFab (set v))
  if 0x100000 ≤ off ∧ off < 0x110000 then
    (let i := (off - 0x100000) / 16
     let high := off % 16 == 8
     if off % 8 = 0 then rwReg 64 (fun d => if high then (tabGet (0, 0) d.fab.win i).2.toNat else (tabGet (0, 0) d.fab.win i).1.toNat) (fun v => setWin i high (BitVec.ofNat 64 v)) else none)
  else if 0x200000 ≤ off ∧ off < 0x600000 then (if off % 8 = 0 then roReg 64 (fun c d => flowWord c.now (d.flow ((off - 0x200000) / 64)) (off / 8 % 8)) else none)
  else if 0x1000 ≤ off ∧ off < 0x1100 then (if off % 4 = 0 then roReg 32 (fun _ d => portStatus (d.eth ((off - 0x1000) / 4))) else none)
  else match off with
    | 0x00 => roReg 32 (fun _ d => fabStatus d.fab)
    | 0x04 => roReg 32 (fun _ d => portCfg d.fab)
    | 0x08 => roReg 64 (fun _ d => d.fab.laneFail.toNat)
    | 0x10 => rwReg 32 (fun d => d.fab.udpPort.toNat) setUdpPort
    | 0x14 => f32 (fun f => f.peerLoss) (fun v f => { f with peerLoss := v })
    | 0x18 => f32 (fun f => f.rto) (fun v f => { f with rto := v })
    | 0x1C => rwReg 32 (fun d => d.fab.retryMax.toNat) (fun v d => d.modFab (fun f => { f with retryMax := BitVec.ofNat 5 v }))
    | 0x20 => f32 (fun f => f.reorderWin) (fun v f => { f with reorderWin := v })
    | 0x24 => rwReg 32 (fun d => d.fab.ackCoalesce.toNat + d.fab.ackDelay.toNat * 256)
        (fun v d => d.modFab (fun f => { f with ackCoalesce := BitVec.ofNat 4 v, ackDelay := BitVec.ofNat 16 (bits v 8 16) }))
    | 0x28 => f32 (fun f => f.rnrDelay) (fun v f => { f with rnrDelay := v })
    | 0x2C => f32 (fun f => f.pathPenalty) (fun v f => { f with pathPenalty := v })
    | 0x30 => f32 (fun f => f.ccPeriod) (fun v f => { f with ccPeriod := v })
    | 0x34 => f32 (fun f => f.ccTarget) (fun v f => { f with ccTarget := v })
    | 0x38 => f32 (fun f => f.ccBeta) (fun v f => { f with ccBeta := v })
    | 0x3C => f32 (fun f => f.ccAiStep) (fun v f => { f with ccAiStep := v })
    | 0x40 => f32 (fun f => f.ccRateMin) (fun v f => { f with ccRateMin := v })
    | 0x44 => f32 (fun f => f.ccHai) (fun v f => { f with ccHai := v })
    | 0x48 => f32 (fun f => f.laneUcwLimit) (fun v f => { f with laneUcwLimit := v })
    | _ => fabCntReg off

def collReg (off : Nat) : Option Reg :=
  let m32 := fun (get : Coll → W32) (set : W32 → Coll → Coll) => cnt32 (fun d => get d.coll) (fun v d => d.modColl (set v))
  match off with
  | 0x00 => roReg 32 (fun _ d => collStatus d.coll)
  | 0x10 => m32 (fun m => m.clampWait) (fun v m => { m with clampWait := v })
  | 0x14 => m32 (fun m => m.clampResultWait) (fun v m => { m with clampResultWait := v })
  | 0x18 => roReg 64 (fun _ d => d.coll.lastRes.step)
  | 0x20 => roReg 32 (fun _ d => clampFlags d.coll)
  | 0x28 => roReg 64 (fun _ d => d.coll.lastRes.kappa)
  | 0x30 => roReg 64 (fun _ d => d.coll.lastRes.q)
  | 0x38 => roReg 32 (fun _ d => d.coll.doveWave.toNat)
  | 0x40 => m32 (fun m => m.lateCnt) (fun v m => { m with lateCnt := v })
  | 0x44 => m32 (fun m => m.absentCnt) (fun v m => { m with absentCnt := v })
  | 0x48 => m32 (fun m => m.selfDropCnt) (fun v m => { m with selfDropCnt := v })
  | 0x4C => m32 (fun m => m.queryCnt) (fun v m => { m with queryCnt := v })
  | 0x50 => m32 (fun m => m.tieCnt) (fun v m => { m with tieCnt := v })
  | 0x54 => m32 (fun m => m.trimRunCnt) (fun v m => { m with trimRunCnt := v })
  | 0x58 => m32 (fun m => m.opCnt) (fun v m => { m with opCnt := v })
  | 0x60 => m32 (fun m => m.clampHop) (fun v m => { m with clampHop := v })
  | _ => none

/-! ## Boot and protection (11) -/

/-- A protection register: a write that R438 and PT_LOCK let through sets it (R18). -/
def protReg (k : Nat) (high : Bool) : Option Reg :=
  some { width := 64, read := fun c _ => (ptWord (tabGet {} c.pt k) high).toNat,
         write := .act (fun p v c d => ptWrite (p == 15 && !c.ptLock) (ptAddr k high) p (setPt k high (BitVec.ofNat 64 v)) c d) }

def bootReg (off : Nat) : Option Reg :=
  if 0x1000 ≤ off ∧ off < 0x1800 then (if off % 8 = 0 then protReg ((off - 0x1000) / 16) (off % 16 == 8) else none)
  else if 0x108 ≤ off ∧ off < 0x150 then (if off % 8 = 0 then timeReg (fun c _ => (tabGet 0 c.boot.stageTime ((off - 0x100) / 8)).toNat) else none)
  else match off with
    | 0x00 => roReg 32 (fun c _ => bootStatus c.boot)
    | 0x08 => timeReg (fun c _ => c.boot.readyTime.toNat)
    | 0x10 => roReg 32 (fun c _ => c.boot.fwVersion.toNat)
    | 0x800 => some { width := 32, read := fun c _ => b2n c.ptLock,
                      write := .act (fun p v c d => if bitAt v 0 then ptWrite true 0x3F0001200800 p (fun c => { c with ptLock := true }) c d else (c, d)) }
    | _ => none

/-! ## Power (14) and the fault collector (12) -/

def powerReg (off : Nat) : Option Reg :=
  let p32 := fun (get : Power → W32) (set : W32 → Power → Power) => cnt32 (fun d => get d.pwr) (fun v d => d.modPwr (set v))
  match off with
  | 0x00 => onesReg 32 powerStatus (fun v d => if bitAt v 2 then d.modPwr (fun p => { p with limitMiss := false }) else d)
  | 0x04 => roReg 32 (fun _ d => benchDivView d)
  | 0x08 => roReg 32 (fun _ d => d.pwr.limit.toNat)
  | 0x0C => roReg 32 (fun _ d => d.pwr.budget.toNat)
  | 0x10 => roReg 32 (fun _ d => d.pwr.inputMw.toNat)
  | 0x20 => p32 (fun p => p.wakeCnt) (fun v p => { p with wakeCnt := v })
  | 0x24 => p32 (fun p => p.waitCnt) (fun v p => { p with waitCnt := v })
  | 0x28 => p32 (fun p => p.throttleCnt) (fun v p => { p with throttleCnt := v })
  | 0x2C => p32 (fun p => p.brakeCnt) (fun v p => { p with brakeCnt := v })
  | 0x30 => cnt64 (fun d => d.pwr.waitTimeCnt) (fun v d => d.modPwr (fun p => { p with waitTimeCnt := v }))
  | 0x100 => roReg 32 (fun c _ => clkStatus c.clk)
  | _ => none

/-- Software clears NOTIFY: a notification still owed is dropped (R446). -/
def clearNotify (f : Collector) : Collector := { f with notify := false, owedMsix := false, owedI3c := false }

def collectorReg (off : Nat) : Option Reg :=
  let f32 := fun (get : Collector → W32) (set : W32 → Collector → Collector) => cnt32 (fun d => get d.fc) (fun v d => d.modFc (set v))
  if 0x1000 ≤ off ∧ off < 0x1780 then (if off % 4 = 0 then actDev 32 (fun d => severityView d.fc ((off - 0x1000) / 4)) (fun p v c d => devSeverity p ((off - 0x1000) / 4) v c d) else none)
  else if 0x10000 ≤ off ∧ off < 0x18000 then (if off % 8 = 0 then (if off % 32 = 0 then timeReg else roReg 64) (fun _ d => ((tabFind d.fc.log ((off - 0x10000) / 32)).map (fun e => logWord e (off / 8 % 4))).getD 0) else none)
  else if 0x100 ≤ off ∧ off < 0x140 then (if off % 4 = 0 then roReg 32 (fun _ d => pendingView d.fc ((off - 0x100) / 4)) else none)
  else match off with
    | 0x00 => onesReg 32 (fun d => fcStatus d.fc) (fun v d => if bitAt v 4 then d.modFc clearNotify else d)
    | 0x08 => timeReg (fun _ d => d.fc.safeTime.toNat)
    | 0x10 => actDev 32 (fun d => pinCfgView d.fc) (fun p v c d => devPinCfg p v c d)
    | 0x14 => rwReg 32 (fun d => b2n d.fc.hold) (fun v d => d.modFc (fun f => { f with hold := bitAt v 0 }))
    | 0x18 => actDev 32 reads0 (fun p v c d => if bitAt v 0 || p != 15 then devHeartbeat p false c d else d)
    | 0x20 => roReg 32 (fun _ d => d.fc.log.length)
    | 0x24 => roReg 32 (fun _ d => d.fc.seq.toNat)
    | 0x28 => roReg 32 (fun _ d => selfStatus d.fc)
    | 0x40 => f32 (fun f => f.tieCnt) (fun v f => { f with tieCnt := v })
    | 0x44 => f32 (fun f => f.lostCnt) (fun v f => { f with lostCnt := v })
    | 0x48 => f32 (fun f => f.refusedCnt) (fun v f => { f with refusedCnt := v })
    | 0x4C => f32 (fun f => f.raiseCnt) (fun v f => { f with raiseCnt := v })
    | 0x50 => f32 (fun f => f.logCeCnt) (fun v f => { f with logCeCnt := v })
    | _ => none

/-! ## The control window (R402, R403) -/

/-- A word of the MSI-X table: message address halves, data, vector control. Unmasking a pending vector sends it (R446). -/
def writeMsix (vec word v : Nat) (d : Dev) : Dev :=
  let e := tabGet (0, 0) d.silkai.msixTab vec
  let a := e.1.toNat
  let put := fun (x : W64 × W32) => d.modSilkai (fun m => { m with msixTab := tabSet (0, 0) m.msixTab vec x })
  match word with
  | 0 => put (BitVec.ofNat 64 (a / 2 ^ 32 * 2 ^ 32 + v / 4 * 4), e.2)
  | 1 => put (BitVec.ofNat 64 (a % 2 ^ 32 + v * 2 ^ 32), e.2)
  | 2 => put (e.1, BitVec.ofNat 32 v)
  | _ =>
    let d1 := d.modSilkai (fun m => { m with msixMask := BitVec.ofNat 17 (setBit m.msixMask.toNat vec (bitAt v 0)) })
    if !bitAt v 0 && bitAt d.silkai.msixPba.toNat vec && d.msixPath then
      (d1.modSilkai (fun m => { m with msixPba := BitVec.ofNat 17 (setBit m.msixPba.toNat vec false) })).sendMsix vec
    else d1

/-- W1C bits of MBX_STATUS. -/
def clearMbxStatus (v : Nat) (m : Mailbox) : Mailbox := { m with hostLost := m.hostLost && !bitAt v 8, irqPend := m.irqPend && !bitAt v 9 }

/-- Registers of mailbox `k`, at their offset in its 4 KiB. -/
def mbxReg (k off : Nat) : Option Reg :=
  let m32 := fun (get : Mailbox → W32) (set : W32 → Mailbox → Mailbox) => cnt32 (fun d => get (d.mbx k)) (fun v d => d.modMbx k (set v))
  match off with
  | 0x00 => onesReg 32 reads0 (fun v d => d.modMbx k (ringMbx v))
  | 0x04 => onesReg 32 (fun d => mbxStatus (d.mbx k)) (fun v d => d.modMbx k (clearMbxStatus v))
  | 0x08 => roReg 32 (fun _ d => (d.mbx k).last.toNat)
  | 0x0C => rwReg 32 (fun d => b2n (d.mbx k).irqEn) (fun v d => d.modMbx k (fun m => { m with irqEn := bitAt v 0 }))
  | 0x10 => m32 (fun m => m.doorbellDropCnt) (fun v m => { m with doorbellDropCnt := v })
  | 0x14 => m32 (fun m => m.writeDropCnt) (fun v m => { m with writeDropCnt := v })
  | _ => none

/-- Doorbell page `k`. -/
def pageReg (k off : Nat) : Option Reg :=
  match off with
  | 0x00 => actDev 64 reads0 (fun _ v c d => devJigGo k (BitVec.ofNat 64 v) c d)
  | 0x08 => roReg 32 (fun _ d => goStatus (d.mbx k))
  | _ => none

/-- The global mailbox registers; MBX_WAIT_LIMIT takes the Puwell cores' writes only. -/
def globalReg (port off : Nat) : Option Reg :=
  match off with
  | 0x00 =>
    let r := rwReg 32 (fun d => d.silkai.waitLimit.toNat) (fun v d => d.modSilkai (fun m => { m with waitLimit := BitVec.ofNat 32 v }))
    if port < 8 then r else r.map (fun x => { x with write := .dropped })
  | 0x04 => cnt32 (fun d => d.silkai.tieCnt) (fun v d => d.modSilkai (fun m => { m with tieCnt := v }))
  | 0x08 => roReg 32 (fun c _ => c.cfg.mbxAccess.toNat)
  | 0x10 => roReg 32 (fun c _ => bootStatus c.boot)
  | 0x14 => roReg 32 (fun _ d => d.silkai.heartbeat.toNat)
  | _ => none

/-- Word `word` of a vector of the MSI-X table. -/
def msixWord (d : Dev) (vec word : Nat) : Nat :=
  let e := tabGet (0, 0) d.silkai.msixTab vec
  match word with
  | 0 => e.1.toNat % 2 ^ 32
  | 1 => e.1.toNat / 2 ^ 32
  | 2 => e.2.toNat
  | _ => b2n (bitAt d.silkai.msixMask.toNat vec)

/-- A register of the fault mirror or the telemetry area: the image of another, whose writes are dropped (R402, R404). -/
def mirrorReg (r : Option Reg) : Option Reg := r.map (fun x => { x with write := .dropped })

/-- The register at an offset of the control window, as a requester reaches it (R402, R403). -/
def windowReg (c : Ctl) (port off : Nat) : Option Reg :=
  if off < 0x20000 then (if off % 0x2000 < 0x1000 ∨ !mbxOwner c (off / 0x2000) port then none else mbxReg (off / 0x2000) (off % 0x1000))
  else if off < 0x30000 then (if mbxOwner c ((off - 0x20000) / 0x1000) port then pageReg ((off - 0x20000) / 0x1000) (off % 0x1000) else none)
  else if off < 0x31000 then globalReg port (off % 0x1000)
  else if off < 0x31110 then
    (if port = 8 ∧ off % 4 = 0 then onesReg 32 (fun d => msixWord d ((off - 0x31000) / 16) (off % 16 / 4)) (fun v d => writeMsix ((off - 0x31000) / 16) (off % 16 / 4) v d) else none)
  else if off = 0x32000 then (if port = 8 then roReg 64 (fun _ d => d.silkai.msixPba.toNat) else none)
  else if 0x100000 ≤ off ∧ off < 0x200000 then mirrorReg (collectorReg (off - 0x100000))
  else if 0x400000 ≤ off ∧ off < 0x800000 then
    (if off % 4 = 0 then mirrorReg (roReg 32 (fun _ d => if off < 0x400050 then leAt (telemetryBytes d.silkai.tel) (off - 0x400000) 4 else 0)) else none)
  else none

/-! ## The map (R64) -/

/-- The register that a requester reaches at an address. -/
def regAt (c : Ctl) (d : Dev) (port a : Nat) : Option Reg :=
  let o := a - 0x3F0000000000
  let cores := decide (port < 8) || port == 15
  if a < 0x3F0000000000 then none
  else if o < 0x1000000 then windowReg c port o
  else if !cores then none
  else if o < 0x1100000 then collectorReg (o - 0x1000000)
  else if o < 0x1200000 then powerReg (o - 0x1100000)
  else if o < 0x1300000 then bootReg (o - 0x1200000)
  else if o < 0x2000000 then none
  else if o < 0x2100000 then jigReg 4 (o - 0x2000000)
  else if o < 0x2500000 then jigReg ((o - 0x2100000) / 0x100000) (o % 0x100000)
  else if o < 0x3000000 then none
  else if o < 0x3100000 then collReg (o - 0x3000000)
  else if o < 0x4000000 then none
  else if o < 0x5000000 then fabricReg (o - 0x4000000)
  else if o < 0x5800000 then homeReg ((o - 0x5000000) / 0x100000) (o % 0x100000)
  else if o < 0x6000000 then none
  else if o < 0x6800000 then planeReg ((o - 0x6000000) / 0x100000) (o % 0x100000)
  else if o < 0x7000000 then none
  else if o < 0x7400000 then stagerReg ((o - 0x7000000) / 0x100000) (o % 0x100000)
  else if o < 0x100000000 then none
  else if o < 0x100840000 then
    (let i := (o - 0x100000000) / 0x10000
     if d.benchActive i then benchReg i (o % 0x10000) else none)
  else none

/-- Key of a requester's latch for a register (R20, R524). -/
def latchKey (port a : Nat) : Nat := port * 2 ^ 48 + a

/-- Write a register whole, at its address. -/
def writeWhole (r : Reg) (a port v : Nat) (c : Ctl) (d : Dev) : Ctl × Dev :=
  match r.write with
  | .ignored => (c, d)
  | .dropped => (c, dropWrite a port c d)
  | .value set => (c, set v d)
  | .ones f => (c, f v d)
  | .act f => f port v c d

/-- Is a 64-bit register written by halves one that acts once for each whole value (R524)? Protection entries take each half. -/
def latches (a : Nat) (r : Reg) : Bool :=
  match r.write with
  | .act _ => r.width == 64 && !(decide (0x3F0001201000 ≤ a) && decide (a < 0x3F0001201800))
  | _ => false

/-- Write the low or high half of a 64-bit register. -/
def writeHalf (r : Reg) (a port v : Nat) (high : Bool) (c : Ctl) (d : Dev) : Ctl × Dev :=
  let k := latchKey port a
  if latches a r then
    if high then writeWhole r a port (v * 2 ^ 32 + (tabGet 0 d.loLatch k).toNat) c { d with loLatch := tabDel d.loLatch k }
    else (c, { d with loLatch := tabSet 0 d.loLatch k (BitVec.ofNat 32 v) })
  else
    let old := r.read c d
    let join := if high then old % 2 ^ 32 + v * 2 ^ 32 else old / 2 ^ 32 * 2 ^ 32 + v
    match r.write with
    | .ones _ => writeWhole r a port (if high then v * 2 ^ 32 else v) c d
    | _ => writeWhole r a port join c d

/-- CSR space (R57, R64) but for the areas that are memory: MBX_CMD and the scratchpad windows have rows of their own. -/
def isCsr (a : Nat) : Bool :=
  decide (0x3F0000000000 ≤ a) && (decide (a < 0x3F8000000000) || pastWindows a) && !(decide (a < 0x3F0000020000) && decide (a % 0x2000 < 0x1000))

/-- A register write (R16, R19): an access of a wrong width, alignment or address, or of a requester that does not reach the
register, or that the tables refuse (R57, R66), is dropped and recorded. -/
def regWrite (port a width v : Nat) (c : Ctl) (d : Dev) : Ctl × Dev :=
  let drop := (c, dropWrite a port c d)
  if !c.live ∨ !isCsr a ∨ !arrives d port then (c, d)
  else if port < 8 ∧ !ptPermits c .puwell 2 a (max 1 width) then drop
  else if width = 4 ∧ a % 4 = 0 then
    match regAt c d port a with
    | some r => if r.width = 32 then writeWhole r a port (v % 2 ^ 32) c d else if a % 8 = 0 then writeHalf r a port (v % 2 ^ 32) false c d else drop
    | none => match regAt c d port (a - 4) with
      | some r => if r.width = 64 ∧ a % 8 = 4 then writeHalf r (a - 4) port (v % 2 ^ 32) true c d else drop
      | none => drop
  else if width = 8 ∧ a % 8 = 0 then
    match regAt c d port a with
    | some r => if r.width = 64 then writeWhole r a port v c d else drop
    | none => drop
  else drop

def execRegisterWrite (port : Fin 16) (addr : BitVec 48) (width : Nat) (value : W64) (s : State) : Host.Outcome State Fault Refusal :=
  onAll (regWrite port.val addr.toNat width value.toNat) s

def execRegisterLowHalfWrite (port : Fin 16) (addr : BitVec 48) (value : W32) (s : State) : Host.Outcome State Fault Refusal :=
  onAll (regWrite port.val addr.toNat 4 value.toNat) s

/-! ## Reads (R14, R16, R19, R20) -/

/-- A read of the low half: that of a counter or timestamp latches the high half for the requester (R20). -/
def readLow (r : Reg) (a port : Nat) (c : Ctl) (d : Dev) : Dev :=
  let v := r.read c d
  let d1 := d.emit (.value port a (v % 2 ^ 32))
  if r.halves then { d1 with hiLatch := tabPut d.hiLatch (latchKey port a) (BitVec.ofNat 32 (v / 2 ^ 32)) } else d1

/-- A read of the high half of the register at `a`: the half that the requester's last low read latched, once, else the live one. -/
def readHigh (r : Reg) (a port : Nat) (c : Ctl) (d : Dev) : Dev :=
  match if r.halves then tabFind d.hiLatch (latchKey port a) else none with
  | some h => { d with hiLatch := tabDel d.hiLatch (latchKey port a) }.emit (.value port (a + 4) h.toNat)
  | none => d.emit (.value port (a + 4) (r.read c d / 2 ^ 32 % 2 ^ 32))

/-- A register read of 4 or 8 bytes: the current value. One of a wrong width, alignment or address, or of a requester that does
not reach the register, or that the tables refuse, returns zero and is recorded (R19, R57, R66). -/
def regRead (port a width : Nat) (c : Ctl) (d : Dev) : Dev :=
  let drop := (dropRead a port c d).emit (.value port a 0)
  if !isCsr a ∨ !arrives d port then d
  else if port < 8 ∧ !ptPermits c .puwell 1 a (max 1 width) then drop
  else if width = 4 ∧ a % 4 = 0 then
    match regAt c d port a with
    | some r => if r.width = 32 then d.emit (.value port a (r.read c d % 2 ^ 32)) else if a % 8 = 0 then readLow r a port c d else drop
    | none => match regAt c d port (a - 4) with
      | some r => if r.width = 64 ∧ a % 8 = 4 then readHigh r (a - 4) port c d else drop
      | none => drop
  else if width = 8 ∧ a % 8 = 0 then
    match regAt c d port a with
    | some r => if r.width = 64 then d.emit (.value port a (r.read c d % 2 ^ 64)) else drop
    | none => drop
  else drop

/-- A read of a register: of four bytes, the low half of a 64-bit one among them (R20), or of another width, of which eight bytes of a 64-bit
register are served (R19). -/
def execCounterLowHalfRead (port : Fin 16) (addr : BitVec 48) (s : State) (width : Nat := 4) : Host.Outcome State Fault Refusal :=
  onDev (regRead port.val addr.toNat width) s

end Sys2Proof.Machine
end

