-- ==== Sys2Proof/Machine/Dispatch.lean ====
section
/-! DEFINITION. One arm per command: each a direct call of its meaning. -/

namespace Sys2Proof.Machine

open Sys2Proof

/-- The effect of a command on everything but the queue. -/
def exec (i : Instr) (s : State) : Host.Outcome State Fault Refusal :=
  match i with
  | .pwrOkRise => Sys2Proof.Machine.execPwrOkRise s
  | .pwrOkFall => Sys2Proof.Machine.execPwrOkFall s
  | .sysRstNAssert => Sys2Proof.Machine.execSysRstNAssert s
  | .sysRstNRelease => Sys2Proof.Machine.execSysRstNRelease s
  | .internalResetRelease => Sys2Proof.Machine.execInternalResetRelease s
  | .bootStageEnd obs => Sys2Proof.Machine.execBootStageEnd obs s
  | .bootStageLimitExpiry obs tie => Sys2Proof.Machine.execBootStageLimitExpiry obs s tie
  | .perstN0Release => Sys2Proof.Machine.execPerstN0Release s
  | .perstN0Assert => Sys2Proof.Machine.execPerstN0Assert s
  | .upstreamHotReset => Sys2Proof.Machine.execUpstreamHotReset s
  | .upstreamLinkTrained => Sys2Proof.Machine.execUpstreamLinkTrained s
  | .upstreamLinkRecovery => Sys2Proof.Machine.execUpstreamLinkRecovery s
  | .upstreamLinkL0 => Sys2Proof.Machine.execUpstreamLinkL0 s
  | .upstreamLinkDown => Sys2Proof.Machine.execUpstreamLinkDown s
  | .pwrbrkNAssert => Sys2Proof.Machine.execPwrbrkNAssert s
  | .brakeEnd => Sys2Proof.Machine.execBrakeEnd s
  | .brakeRecoveryStep => Sys2Proof.Machine.execBrakeRecoveryStep s
  | .pmbAlertNFall rail fault => Sys2Proof.Machine.execPmbAlertNFall rail fault s
  | .pmbusPoll rail reading fault => Sys2Proof.Machine.execPmbusPoll rail reading fault s
  | .refclkLoss => Sys2Proof.Machine.execRefclkLoss s
  | .pllUnlock => Sys2Proof.Machine.execPllUnlock s
  | .ethRefclkLoss => Sys2Proof.Machine.execEthRefclkLoss s
  | .ethRefclkReturn => Sys2Proof.Machine.execEthRefclkReturn s
  | .oscSwitchover => Sys2Proof.Machine.execOscSwitchover s
  | .dieSensorRead die temp => Sys2Proof.Machine.execDieSensorRead die temp s
  | .thermtripAssert => Sys2Proof.Machine.execThermtripAssert s
  | .hbmTempRead stack temp => Sys2Proof.Machine.execHbmTempRead stack temp s
  | .thermalLoopTick => Sys2Proof.Machine.execThermalLoopTick s
  | .powerLimitEval mw p0 p1 p2 p3 => Sys2Proof.Machine.execPowerLimitEval mw p0 p1 p2 p3 s
  | .wakeRequest bench => Sys2Proof.Machine.execWakeRequest bench s
  | .wakeAdmit bay => Sys2Proof.Machine.execWakeAdmit bay s
  | .wakeReservationRelease bench => Sys2Proof.Machine.execWakeReservationRelease bench s
  | .wakeRampStep bench => Sys2Proof.Machine.execWakeRampStep bench s
  | .jtagTrst low => Sys2Proof.Machine.execJtagTrst low s
  | .jtagUnlockResp signature => Sys2Proof.Machine.execJtagUnlockResp signature s
  | .mbxCmdWrite k port off data => Sys2Proof.Machine.execMbxCmdWrite k port off data s
  | .mbxDoorbell k port value => Sys2Proof.Machine.execMbxDoorbell k port value s
  | .mbxCommandTake flash => Sys2Proof.Machine.execMbxCommandTake s flash
  | .mbxWaitingCommandEnd k flash => Sys2Proof.Machine.execMbxWaitingCommandEnd k s flash
  | .mbxWaitLimitExpiry k tie => Sys2Proof.Machine.execMbxWaitLimitExpiry k tie s
  | .mbxJigGo k port step => Sys2Proof.Machine.execMbxJigGo k port step s
  | .telemetryRewrite => Sys2Proof.Machine.execTelemetryRewrite s
  | .ndHello k payload => Sys2Proof.Machine.execNdHello k payload s
  | .ndQuerySummary k payload => Sys2Proof.Machine.execNdQuerySummary k payload s
  | .ndQueryBenches k payload => Sys2Proof.Machine.execNdQueryBenches k payload s
  | .ndQueryNear k payload => Sys2Proof.Machine.execNdQueryNear k payload s
  | .ndQueryFar k payload => Sys2Proof.Machine.execNdQueryFar k payload s
  | .ndQueryEthernet k payload => Sys2Proof.Machine.execNdQueryEthernet k payload s
  | .ndTierMode k payload => Sys2Proof.Machine.execNdTierMode k payload s
  | .ndAlloc k payload => Sys2Proof.Machine.execNdAlloc k payload s
  | .ndFree k payload => Sys2Proof.Machine.execNdFree k payload s
  | .ndRegionRegister k payload => Sys2Proof.Machine.execNdRegionRegister k payload s
  | .ndRegionUnregister k payload => Sys2Proof.Machine.execNdRegionUnregister k payload s
  | .ndJigLoad k payload => Sys2Proof.Machine.execNdJigLoad k payload s
  | .ndJigStart k payload => Sys2Proof.Machine.execNdJigStart k payload s
  | .ndJigStop k payload => Sys2Proof.Machine.execNdJigStop k payload s
  | .ndPanelDefineTable k payload => Sys2Proof.Machine.execNdPanelDefineTable k payload s
  | .ndPanelDefineDefine k payload => Sys2Proof.Machine.execNdPanelDefineDefine k payload s
  | .ndOptConfigJob k payload => Sys2Proof.Machine.execNdOptConfigJob k payload s
  | .ndOptConfigEntry k payload => Sys2Proof.Machine.execNdOptConfigEntry k payload s
  | .ndFabJoin k payload => Sys2Proof.Machine.execNdFabJoin k payload s
  | .ndFabLeave k payload => Sys2Proof.Machine.execNdFabLeave k payload s
  | .ndFlowOpen k payload => Sys2Proof.Machine.execNdFlowOpen k payload s
  | .ndFlowClose k payload => Sys2Proof.Machine.execNdFlowClose k payload s
  | .ndCollGroupDefine k payload => Sys2Proof.Machine.execNdCollGroupDefine k payload s
  | .ndCollGroupDelete k payload => Sys2Proof.Machine.execNdCollGroupDelete k payload s
  | .ndReshardBuild k payload => Sys2Proof.Machine.execNdReshardBuild k payload s
  | .ndReshardBuildRun k payload => Sys2Proof.Machine.execNdReshardBuildRun k payload s
  | .ndReshardRun k payload => Sys2Proof.Machine.execNdReshardRun k payload s
  | .ndSnapshot k payload => Sys2Proof.Machine.execNdSnapshot k payload s
  | .ndSnapshotUnpin k payload => Sys2Proof.Machine.execNdSnapshotUnpin k payload s
  | .ndRestore k payload => Sys2Proof.Machine.execNdRestore k payload s
  | .ndReplayVerify k payload => Sys2Proof.Machine.execNdReplayVerify k payload s
  | .ndFaultCfgSource k payload => Sys2Proof.Machine.execNdFaultCfgSource k payload s
  | .ndFaultCfgPin k payload => Sys2Proof.Machine.execNdFaultCfgPin k payload s
  | .ndFaultLogFaults k payload => Sys2Proof.Machine.execNdFaultLogFaults k payload s
  | .ndFaultLogOrphans k payload => Sys2Proof.Machine.execNdFaultLogOrphans k payload s
  | .ndFaultLogRepairs k payload => Sys2Proof.Machine.execNdFaultLogRepairs k payload s
  | .ndRetireBench k payload => Sys2Proof.Machine.execNdRetireBench k payload s
  | .ndRetirePcRetrain k payload => Sys2Proof.Machine.execNdRetirePcRetrain k payload s
  | .ndRetirePcRetire k payload => Sys2Proof.Machine.execNdRetirePcRetire k payload s
  | .ndRetireEthLane k payload => Sys2Proof.Machine.execNdRetireEthLane k payload s
  | .ndPowerLimit k payload => Sys2Proof.Machine.execNdPowerLimit k payload s
  | .ndFwUpdateFirmware k payload flash => Sys2Proof.Machine.execNdFwUpdateFirmware k payload s flash
  | .ndFwUpdateConfig k payload flash => Sys2Proof.Machine.execNdFwUpdateConfig k payload s flash
  | .ndTelemetryKerf k payload => Sys2Proof.Machine.execNdTelemetryKerf k payload s
  | .ndTelemetryPeriod k payload => Sys2Proof.Machine.execNdTelemetryPeriod k payload s
  | .ndTelemetryRewrite k payload => Sys2Proof.Machine.execNdTelemetryRewrite k payload s
  | .registerWrite port addr width value => Sys2Proof.Machine.execRegisterWrite port addr width value s
  | .registerLowHalfWrite port addr value => Sys2Proof.Machine.execRegisterLowHalfWrite port addr value s
  | .counterLowHalfRead port addr width => Sys2Proof.Machine.execCounterLowHalfRead port addr s width
  | .spadOwnerWrite bench bank value port => Sys2Proof.Machine.execSpadOwnerWrite bench bank value s port
  | .spadOwnerSetWrite bench value port => Sys2Proof.Machine.execSpadOwnerSetWrite bench value s port
  | .spadPairWrite bench value port => Sys2Proof.Machine.execSpadPairWrite bench value s port
  | .spadStatOwnerWrite bench value port => Sys2Proof.Machine.execSpadStatOwnerWrite bench value s port
  | .spadHandoverEnd bench bank => Sys2Proof.Machine.execSpadHandoverEnd bench bank s
  | .spadAccess bench master write off data len ecc => Sys2Proof.Machine.execSpadAccess bench master write off data len ecc s
  | .spadAccessAccept bench master clocks => Sys2Proof.Machine.execSpadAccessAccept bench master clocks s
  | .spadWaitLimitExpiry bench master tie held => Sys2Proof.Machine.execSpadWaitLimitExpiry bench master tie s held
  | .spadWindowAccess port bench write off data len => Sys2Proof.Machine.execSpadWindowAccess port bench write off data len s
  | .strmSubmitWrite bay port value => Sys2Proof.Machine.execStrmSubmitWrite bay port value s
  | .jigCtrAddWrite jig port value => Sys2Proof.Machine.execJigCtrAddWrite jig port value s
  | .cohDirProbeWrite home port value => Sys2Proof.Machine.execCohDirProbeWrite home port value s
  | .bayCacheDisable home => Sys2Proof.Machine.execBayCacheDisable home s
  | .bayCacheInvalidateDone home => Sys2Proof.Machine.execBayCacheInvalidateDone home s
  | .bayCacheEnable home => Sys2Proof.Machine.execBayCacheEnable home s
  | .cohOrphanClear => Sys2Proof.Machine.execCohOrphanClear s
  | .fcHeartbeatWrite port tie => Sys2Proof.Machine.execFcHeartbeatWrite port tie s
  | .fcPinCfgWrite port value => Sys2Proof.Machine.execFcPinCfgWrite port value s
  | .fcSeverityWrite port source value raised => Sys2Proof.Machine.execFcSeverityWrite port source value s raised
  | .ptLockSet port => Sys2Proof.Machine.execPtLockSet port s
  | .ptEntryWrite port cls index high value => Sys2Proof.Machine.execPtEntryWrite port cls index high value s
  | .fabWinWrite entry high value port => Sys2Proof.Machine.execFabWinWrite entry high value s port
  | .mxTaskIssue bench => Sys2Proof.Machine.execMxTaskIssue bench s
  | .mxPartialWaitRelease bench => Sys2Proof.Machine.execMxPartialWaitRelease bench s
  | .mxTaskComplete bench clocks => Sys2Proof.Machine.execMxTaskComplete bench clocks s
  | .load bench => Sys2Proof.Machine.execLoad bench s
  | .store bench => Sys2Proof.Machine.execStore bench s
  | .statSave bench ecc => Sys2Proof.Machine.execStatSave bench s ecc
  | .statLoad bench => Sys2Proof.Machine.execStatLoad bench s
  | .dmaDescComplete bench => Sys2Proof.Machine.execDmaDescComplete bench s
  | .copy bench => Sys2Proof.Machine.execCopy bench s
  | .fill bench => Sys2Proof.Machine.execFill bench s
  | .bcast bench => Sys2Proof.Machine.execBcast bench s
  | .add bench => Sys2Proof.Machine.execAdd bench s
  | .sub bench => Sys2Proof.Machine.execSub bench s
  | .mul bench => Sys2Proof.Machine.execMul bench s
  | .fma bench => Sys2Proof.Machine.execFma bench s
  | .min bench => Sys2Proof.Machine.execMin bench s
  | .max bench => Sys2Proof.Machine.execMax bench s
  | .abs bench => Sys2Proof.Machine.execAbs bench s
  | .neg bench => Sys2Proof.Machine.execNeg bench s
  | .colAdd bench => Sys2Proof.Machine.execColAdd bench s
  | .rowMul bench => Sys2Proof.Machine.execRowMul bench s
  | .cmpGt bench => Sys2Proof.Machine.execCmpGt bench s
  | .select bench => Sys2Proof.Machine.execSelect bench s
  | .div bench => Sys2Proof.Machine.execDiv bench s
  | .recip bench => Sys2Proof.Machine.execRecip bench s
  | .sqrt bench => Sys2Proof.Machine.execSqrt bench s
  | .rsqrt bench => Sys2Proof.Machine.execRsqrt bench s
  | .log bench => Sys2Proof.Machine.execLog bench s
  | .func bench => Sys2Proof.Machine.execFunc bench s
  | .dfunc bench => Sys2Proof.Machine.execDfunc bench s
  | .rowSum bench => Sys2Proof.Machine.execRowSum bench s
  | .rowMax bench => Sys2Proof.Machine.execRowMax bench s
  | .rowTopk bench => Sys2Proof.Machine.execRowTopk bench s
  | .compress bench => Sys2Proof.Machine.execCompress bench s
  | .expand bench => Sys2Proof.Machine.execExpand bench s
  | .gather bench => Sys2Proof.Machine.execGather bench s
  | .vecTaskComplete bench => Sys2Proof.Machine.execVecTaskComplete bench s
  | .lnFwd bench => Sys2Proof.Machine.execLnFwd bench s
  | .rmsFwd bench => Sys2Proof.Machine.execRmsFwd bench s
  | .smFin bench => Sys2Proof.Machine.execSmFin bench s
  | .lnBwd bench ecc => Sys2Proof.Machine.execLnBwd bench s ecc
  | .rmsBwd bench ecc => Sys2Proof.Machine.execRmsBwd bench s ecc
  | .smBwd bench ecc => Sys2Proof.Machine.execSmBwd bench s ecc
  | .rowTaskComplete bench => Sys2Proof.Machine.execRowTaskComplete bench s
  | .nop jig queue => Sys2Proof.Machine.execNop jig queue s
  | .jigMx bay queue => Sys2Proof.Machine.execJigMx bay queue s
  | .jigVec bay queue => Sys2Proof.Machine.execJigVec bay queue s
  | .jigRow bay queue => Sys2Proof.Machine.execJigRow bay queue s
  | .jigDma bay queue => Sys2Proof.Machine.execJigDma bay queue s
  | .handover bay queue => Sys2Proof.Machine.execHandover bay queue s
  | .stager jig queue => Sys2Proof.Machine.execStager jig queue s
  | .gate bay queue => Sys2Proof.Machine.execGate bay queue s
  | .phase jig queue => Sys2Proof.Machine.execPhase jig queue s
  | .loop jig queue => Sys2Proof.Machine.execLoop jig queue s
  | .release jig queue => Sys2Proof.Machine.execRelease jig queue s
  | .coll queue => Sys2Proof.Machine.execColl queue s
  | .endRec jig queue => Sys2Proof.Machine.execEndRec jig queue s
  | .jigRecordComplete jig queue serial => Sys2Proof.Machine.execJigRecordComplete jig queue serial s
  | .jigWaitTimeoutExpiry jig queue tie => Sys2Proof.Machine.execJigWaitTimeoutExpiry jig queue tie s
  | .jigPhaseBoundaryPass => Sys2Proof.Machine.execJigPhaseBoundaryPass s
  | .jigHoistIssue jig queue => Sys2Proof.Machine.execJigHoistIssue jig queue s
  | .streamFillStart bay => Sys2Proof.Machine.execStreamFillStart bay s
  | .streamBlockArrival bay slot => Sys2Proof.Machine.execStreamBlockArrival bay slot s
  | .streamSlotFull bay slot => Sys2Proof.Machine.execStreamSlotFull bay slot s
  | .streamWatchdogExpiry pos tie => Sys2Proof.Machine.execStreamWatchdogExpiry pos tie s
  | .get bay => Sys2Proof.Machine.execGet bay s
  | .put bay => Sys2Proof.Machine.execPut bay s
  | .segmentSeal bay segment => Sys2Proof.Machine.execSegmentSeal bay segment s
  | .stagerDescComplete bay => Sys2Proof.Machine.execStagerDescComplete bay s
  | .farRepairFetchDone entry block => Sys2Proof.Machine.execFarRepairFetchDone entry block s
  | .farSegmentRewriteDone entry => Sys2Proof.Machine.execFarSegmentRewriteDone entry s
  | .pagePromoteStart page => Sys2Proof.Machine.execPagePromoteStart page s
  | .pagePromoteDone page => Sys2Proof.Machine.execPagePromoteDone page s
  | .pageDemoteStart => Sys2Proof.Machine.execPageDemoteStart s
  | .pageDemoteDone page => Sys2Proof.Machine.execPageDemoteDone page s
  | .strmEpochEnd => Sys2Proof.Machine.execStrmEpochEnd s
  | .cxlLinkRetrain cxl => Sys2Proof.Machine.execCxlLinkRetrain cxl s
  | .cxlLinkDown cxl => Sys2Proof.Machine.execCxlLinkDown cxl s
  | .farTimeout cxl addr tie => Sys2Proof.Machine.execFarTimeout cxl addr tie s
  | .memoryDataReturn home line ecc => Sys2Proof.Machine.execMemoryDataReturn home line ecc s
  | .nearCeWriteback stack line => Sys2Proof.Machine.execNearCeWriteback stack line s
  | .writeQueueAgeExpiry pc => Sys2Proof.Machine.execWriteQueueAgeExpiry pc s
  | .refreshDue pc busy => Sys2Proof.Machine.execRefreshDue pc busy s
  | .scrubRead line ecc => Sys2Proof.Machine.execScrubRead line ecc s
  | .softPprStart stack => Sys2Proof.Machine.execSoftPprStart stack s
  | .softPprDone stack => Sys2Proof.Machine.execSoftPprDone stack s
  | .pcStagingDone pc => Sys2Proof.Machine.execPcStagingDone pc s
  | .pcRetrainDone pc pass => Sys2Proof.Machine.execPcRetrainDone pc pass s
  | .pcRestoreDone pc => Sys2Proof.Machine.execPcRestoreDone pc s
  | .pcRetirementStart pc => Sys2Proof.Machine.execPcRetirementStart pc s
  | .pcSacrificedRangeEmpty => Sys2Proof.Machine.execPcSacrificedRangeEmpty s
  | .pcRetirementCopyDone pc => Sys2Proof.Machine.execPcRetirementCopyDone pc s
  | .planeUpdateStart plane => Sys2Proof.Machine.execPlaneUpdateStart plane s
  | .planeCommit plane => Sys2Proof.Machine.execPlaneCommit plane s
  | .planeCommitAck plane => Sys2Proof.Machine.execPlaneCommitAck plane s
  | .planePublishAck plane => Sys2Proof.Machine.execPlanePublishAck plane s
  | .planeReleaseAck plane => Sys2Proof.Machine.execPlaneReleaseAck plane s
  | .planeTwinTimeoutExpiry plane tie => Sys2Proof.Machine.execPlaneTwinTimeoutExpiry plane tie s
  | .sealPutDone panel slot => Sys2Proof.Machine.execSealPutDone panel slot s
  | .write port frame => Sys2Proof.Machine.execWrite port frame s
  | .readReq port frame => Sys2Proof.Machine.execReadReq port frame s
  | .readResp port frame => Sys2Proof.Machine.execReadResp port frame s
  | .atomicAdd port frame => Sys2Proof.Machine.execAtomicAdd port frame s
  | .fetchAdd port frame => Sys2Proof.Machine.execFetchAdd port frame s
  | .cmpSwap port frame => Sys2Proof.Machine.execCmpSwap port frame s
  | .atomicResp port frame => Sys2Proof.Machine.execAtomicResp port frame s
  | .signal port frame => Sys2Proof.Machine.execSignal port frame s
  | .panelAdd port frame => Sys2Proof.Machine.execPanelAdd port frame s
  | .mirror port frame => Sys2Proof.Machine.execMirror port frame s
  | .mirrorCredit port frame => Sys2Proof.Machine.execMirrorCredit port frame s
  | .twinDone port frame => Sys2Proof.Machine.execTwinDone port frame s
  | .ack port frame => Sys2Proof.Machine.execAck port frame s
  | .status port frame => Sys2Proof.Machine.execStatus port frame s
  | .rnr port frame => Sys2Proof.Machine.execRnr port frame s
  | .heartbeat port frame => Sys2Proof.Machine.execHeartbeat port frame s
  | .flowOpen port frame => Sys2Proof.Machine.execFlowOpen port frame s
  | .rawFrameReceive port data queued => Sys2Proof.Machine.execRawFrameReceive port data s queued
  | .pfcFrameReceive port prio pause => Sys2Proof.Machine.execPfcFrameReceive port prio pause s
  | .frameLossTimeout flow psn tie => Sys2Proof.Machine.execFrameLossTimeout flow psn tie s
  | .ackDelayExpiry flow => Sys2Proof.Machine.execAckDelayExpiry flow s
  | .ccPeriodTick flow => Sys2Proof.Machine.execCcPeriodTick flow s
  | .flowOpenResend flow => Sys2Proof.Machine.execFlowOpenResend flow s
  | .heartbeatSend => Sys2Proof.Machine.execHeartbeatSend s
  | .peerLossExpiry node tie => Sys2Proof.Machine.execPeerLossExpiry node tie s
  | .pathPenaltyExpiry flow path => Sys2Proof.Machine.execPathPenaltyExpiry flow path s
  | .rnrRetransmit flow => Sys2Proof.Machine.execRnrRetransmit flow s
  | .rawTxPoll => Sys2Proof.Machine.execRawTxPoll s
  | .fabricWindowAccess port kind addr data len => Sys2Proof.Machine.execFabricWindowAccess port kind addr data len s
  | .ethLaneFail lane => Sys2Proof.Machine.execEthLaneFail lane s
  | .ethPortRetrainDone port ok => Sys2Proof.Machine.execEthPortRetrainDone port ok s
  | .ethPortLinkUp port => Sys2Proof.Machine.execEthPortLinkUp port s
  | .gradSend => Sys2Proof.Machine.execGradSend s
  | .reduceScatter => Sys2Proof.Machine.execReduceScatter s
  | .allGather => Sys2Proof.Machine.execAllGather s
  | .allReduce => Sys2Proof.Machine.execAllReduce s
  | .broadcast => Sys2Proof.Machine.execBroadcast s
  | .barrier => Sys2Proof.Machine.execBarrier s
  | .clamp => Sys2Proof.Machine.execClamp s
  | .dovetail => Sys2Proof.Machine.execDovetail s
  | .collData port frame => Sys2Proof.Machine.execCollData port frame s
  | .barrierUp port frame => Sys2Proof.Machine.execBarrierUp port frame s
  | .barrierDown port frame => Sys2Proof.Machine.execBarrierDown port frame s
  | .dovePull port frame => Sys2Proof.Machine.execDovePull port frame s
  | .doveWaveBarrierDone => Sys2Proof.Machine.execDoveWaveBarrierDone s
  | .collOpComplete seq => Sys2Proof.Machine.execCollOpComplete seq s
  | .clampRecordReady => Sys2Proof.Machine.execClampRecordReady s
  | .clampWaitExpiry tie => Sys2Proof.Machine.execClampWaitExpiry s tie
  | .clampPart port frame => Sys2Proof.Machine.execClampPart port frame s
  | .clampChildDeadline tie => Sys2Proof.Machine.execClampChildDeadline tie s
  | .clampResult port frame => Sys2Proof.Machine.execClampResult port frame s
  | .clampAck port frame => Sys2Proof.Machine.execClampAck port frame s
  | .clampQuery port frame => Sys2Proof.Machine.execClampQuery port frame s
  | .clampNone port frame => Sys2Proof.Machine.execClampNone port frame s
  | .clampResultWaitExpiry tie => Sys2Proof.Machine.execClampResultWaitExpiry tie s
  | .coreLoad cluster addr => Sys2Proof.Machine.execCoreLoad cluster addr s
  | .coreStore cluster addr data amo => Sys2Proof.Machine.execCoreStore cluster addr data s amo
  | .cacheReplacement cluster addr => Sys2Proof.Machine.execCacheReplacement cluster addr s
  | .retryBackoffExpiry cluster addr => Sys2Proof.Machine.execRetryBackoffExpiry cluster addr s
  | .rdshared port line same => Sys2Proof.Machine.execRdshared port line same s
  | .rdown port line same => Sys2Proof.Machine.execRdown port line same s
  | .upgrade port line same => Sys2Proof.Machine.execUpgrade port line same s
  | .wbdirty agent line data same => Sys2Proof.Machine.execWbdirty agent line data same s
  | .rdcur port line same => Sys2Proof.Machine.execRdcur port line same s
  | .wrfull port line data same => Sys2Proof.Machine.execWrfull port line data same s
  | .wrpart port line off data same => Sys2Proof.Machine.execWrpart port line off data same s
  | .atomic port line off op data same => Sys2Proof.Machine.execAtomic port line off op data same s
  | .memclnevct line => Sys2Proof.Machine.execMemclnevct line s
  | .snpinv cluster line => Sys2Proof.Machine.execSnpinv cluster line s
  | .snpdata cluster line => Sys2Proof.Machine.execSnpdata cluster line s
  | .snpcur cluster line => Sys2Proof.Machine.execSnpcur cluster line s
  | .snoopResponse agent line rsp data poison => Sys2Proof.Machine.execSnoopResponse agent line rsp data poison s
  | .grant cluster line state data poison => Sys2Proof.Machine.execGrant cluster line state data poison s
  | .grantack port line same => Sys2Proof.Machine.execGrantack port line same s
  | .wback cluster line => Sys2Proof.Machine.execWback cluster line s
  | .retry cluster line => Sys2Proof.Machine.execRetry cluster line s
  | .cohSnoopTimeoutExpiry agent line tie => Sys2Proof.Machine.execCohSnoopTimeoutExpiry agent line tie s
  | .biconflict line => Sys2Proof.Machine.execBiconflict line s
  | .hostH2dSnoop line kind => Sys2Proof.Machine.execHostH2dSnoop line kind s
  | .aliasRead addr len => Sys2Proof.Machine.execAliasRead addr len s
  | .faultRaise raises => Sys2Proof.Machine.execFaultRaise raises s
  | .safeStateComplete refreshOnly => Sys2Proof.Machine.execSafeStateComplete s refreshOnly
  | .notificationDeliver path => Sys2Proof.Machine.execNotificationDeliver path s
  | .collectorSweep logCe failure => Sys2Proof.Machine.execCollectorSweep logCe failure s
  | .silkaiHeartbeatExpiry tie => Sys2Proof.Machine.execSilkaiHeartbeatExpiry tie s
  | .fltNPulseEnd tie => Sys2Proof.Machine.execFltNPulseEnd tie s
  | .spdmRequest code param1 param2 data privateRead => Sys2Proof.Machine.execSpdmRequest code param1 param2 data s privateRead
  | .collectivePartTimeout seq tie => Sys2Proof.Machine.execCollectivePartTimeout seq tie s
  | .hostCompletion write data tie => Sys2Proof.Machine.execHostCompletion write data tie s
  | .configurationRequest write reg value => Sys2Proof.Machine.execConfigurationRequest write reg value s
  | .jtagInstructionUpdate instr => Sys2Proof.Machine.execJtagInstructionUpdate instr s

end Sys2Proof.Machine
end

