-- ==== Sys2Proof/Safety.lean ====
section
/-! DEFINITION. What counts as a safe run, and the conditions on the state that statements share. -/

namespace Sys2Proof.Machine

open Sys2Proof

/-- The step from a state goes on: neither a fault nor a refusal. -/
def State.goesOn (s : State) : Prop := ∃ t, step s = .next t

/-- The blocks run: no reset holds them (R500, R501). -/
abbrev State.Live (s : State) : Prop := s.ctl.live = true

/-- The blocks run and the safe state stops none of them (R460). -/
abbrev State.Works (s : State) : Prop := s.ctl.live = true ∧ s.dev.fc.entering = false

/-- The device as a command finds it: what the last command sent is gone. -/
def State.here (s : State) : Dev := { s.dev with out := [] }

/-- The state after a command that leaves device `d`, and after one that leaves control `c` and device `d`: the queue stays. -/
def State.withDev (s : State) (d : Dev) : State := { s with dev := d }
def State.withBoth (s : State) (c : Ctl) (d : Dev) : State := { s with ctl := c, dev := d }

/-- A register write of a requester reaches its block: its accesses arrive, and the tables permit this one (R66, R432, R436). -/
abbrev State.CsrOpen (s : State) (port a n : Nat) : Prop := arrives s.dev port = true ∧ reachesCsr s.ctl port 2 a n = true

/-- Such a write arrives and is refused. -/
abbrev State.CsrShut (s : State) (port a n : Nat) : Prop := arrives s.dev port = true ∧ reachesCsr s.ctl port 2 a n = false

/-- The control part that may hold of any run: the blocks run only with power good, SYS_RST_N released and the timebase
counting, and boot's stages run only while the blocks do (R430, R500, R501, R504). -/
abbrev Ctl.Sound (c : Ctl) : Prop :=
  (c.live = true → c.pins.pwrOk = true ∧ c.pins.sysRstN = true ∧ c.clk.counting = true) ∧
  (c.boot.running = true → c.live = true) ∧ (c.clk.counting = true → c.pins.pwrOk = true)

end Sys2Proof.Machine
end

