-- ==== Sys2Proof/Certificates/Slice0/Obligations.lean ====
section
/-! DEFINITION. The statements for the provers. -/

open Sys2Proof Sys2Proof.Machine

/-! ## Resets and boot (11, 14) -/

/-- R430, R500, R501, R502, R504, R519: the events of the power and reset pins, each where it acts. PWR_OK rising with power off, or falling,
leaves every block in cold reset: flash, fuses and the level of TRST_N stay, the protection tables are empty and unlocked, the timebase stands. The
assertion of SYS_RST_N after the internal release is a warm reset: PT_LOCK and the tables stay, COLD reads 0, and near memory keeps
its contents only with the stacks in self-refresh. Boot begins with
the later of the internal release and the release of SYS_RST_N. -/
def Obligations.ResetPinsAct : Prop := ∀ s : State,
  (s.ctl.pins.pwrOk = false → exec .pwrOkRise s = .next { s with
      ctl := { fuses := s.ctl.fuses, pins := { s.ctl.pins with pwrOk := true, perst := 0, perst0Open := true }, jtag := { trst := s.ctl.jtag.trst, nonce := (Config.nonce s.dev.free).toNat } },
      dev := { flash := s.dev.flash, free := s.dev.free + 1, era := (s.dev.era.1 + 1, s.dev.era.2 + 1) } }) ∧
  (s.ctl.pins.pwrOk = true → exec .pwrOkFall s = .next { s with
      ctl := { fuses := s.ctl.fuses, pins := { s.ctl.pins with pwrOk := false, perst := 0, thermtrip := false }, jtag := { trst := s.ctl.jtag.trst } },
      dev := { flash := s.dev.flash, free := s.dev.free, era := (s.dev.era.1 + 1, s.dev.era.2 + 1) } }) ∧
  (s.ctl.pins.pwrOk = true → s.ctl.clk.counting = true → ∃ t, exec .sysRstNAssert s = .next t ∧
      t.ctl = { s.ctl with pins := { s.ctl.pins with sysRstN := false }, boot := { cold := false }, cfg := {}, live := false,
                           clk := { s.ctl.clk with onOsc := false } } ∧
      t.pending = s.pending ∧ t.dev.flash = s.dev.flash ∧ t.dev.fc.log = s.dev.fc.log ∧ t.dev.fc.seq = s.dev.fc.seq ∧
      t.dev.fc.safeTime = s.dev.fc.safeTime ∧ t.dev.fc.safeValid = s.dev.fc.safeValid ∧ t.dev.fc.safeSrc = s.dev.fc.safeSrc ∧
      t.dev.fc.safe = false ∧ t.dev.life = {} ∧ t.dev.jigs = [] ∧ t.dev.benches = [] ∧
      (s.dev.near.selfRefresh = true → t.dev.mem = notGddr s.dev.mem) ∧ (s.dev.near.selfRefresh = false → t.dev.mem = farOnly s.dev.mem)) ∧
  (s.ctl.pins.pwrOk = true → s.ctl.clk.counting = true → s.ctl.live = false → ∃ t, exec .sysRstNRelease s = .next t ∧
      t.ctl = { s.ctl with pins := { s.ctl.pins with sysRstN := true }, live := true, boot := { s.ctl.boot with running := true } } ∧
      t.dev = (if s.ctl.pins.pwrbrkN then s.here else devBrake t.ctl s.here) ∧ t.pending = s.pending) ∧
  (s.ctl.pins.pwrOk = true → s.ctl.clk.counting = false → s.ctl.live = false → ∃ t, exec .internalResetRelease s = .next t ∧
      t.ctl.clk.timebase = 0 ∧ t.ctl.clk.counting = true ∧ t.ctl.clk.pllLock = true ∧ t.ctl.live = s.ctl.pins.sysRstN ∧
      t.ctl.pins = s.ctl.pins ∧ t.ctl.pt = s.ctl.pt ∧ t.ctl.fuses = s.ctl.fuses ∧
      t.dev = (if s.ctl.pins.sysRstN && !s.ctl.pins.pwrbrkN then devBrake t.ctl s.here else s.here) ∧ t.pending = s.pending)

/-- R430, R431: a boot stage that ends records the timebase as its end time and the next stage starts; stage 8 ends in READY, with the
mailboxes IDLE. A stage past its limit halts with its FAIL_CODE (1, 2, and 3 where the other slot does not authenticate either, or is
late itself), which asserts FLT_N, or goes on: the other slot, the factory defaults, the units that came up. Of the part of R438 at stage 5: the tables are taken
from the image and locked. -/
def Obligations.BootStagesRun : Prop := ∀ (s : State) (obs : BootObs), s.ctl.boot.running = true → s.dev.fc.entering = false →
  (∀ i ∈ [Instr.bootStageEnd obs],
    (s.ctl.boot.stage = 1 → ∃ t, exec i s = .next t ∧ t.ctl = s.ctl.stageDone ∧ t.dev.pwr.vout = (List.range 5).map (fun r => s.ctl.fuses.vout.getD r 0) ∧
        { t.dev with pwr := s.dev.pwr, out := [] } = s.here) ∧
    (s.ctl.boot.stage = 2 → exec i s = .next { s with ctl := s.ctl.stageDone, dev := s.here }) ∧
    (s.ctl.boot.stage = 3 → ∃ t, exec i s = .next t ∧ (imageOk s.ctl.fuses (slotImage s.dev.flash (activeSlot s.dev.flash)) = true →
        t.ctl.boot.stage = 4 ∧ t.ctl.boot.fwSlot = BitVec.ofNat 1 (activeSlot s.dev.flash) ∧ t.ctl.boot.fwFallback = s.ctl.boot.fwFallback ∧ t.dev = s.here)) ∧
    (s.ctl.boot.stage = 4 → ∃ t, exec i s = .next t ∧ t.ctl.boot.stage = 5 ∧ tabGet 0 t.ctl.boot.stageTime 4 = s.ctl.clk.timebase ∧
        t.ctl.boot.cfgDefaulted = !cfgValid s.dev.flash.config ∧ (cfgValid s.dev.flash.config = true → t.ctl.cfg = cfgOf s.dev.flash.config ∧ t.dev.mem = s.dev.mem) ∧
        (cfgValid s.dev.flash.config = false → t.ctl.cfg = {})) ∧
    (s.ctl.boot.stage = 5 → s.ctl.ptLock = false → s.ctl.boot.cfgDefaulted = false → ∃ t, exec i s = .next t ∧
        t.ctl.boot.stage = 6 ∧ t.ctl.ptLock = true ∧ t.ctl.pt = ptOfImage s.dev.flash.config ∧ t.dev = s.here) ∧
    (s.ctl.boot.stage = 5 → s.ctl.ptLock = true → ∃ t, exec i s = .next t ∧
        t.ctl.boot.stage = 6 ∧ t.ctl.ptLock = true ∧ t.ctl.pt = s.ctl.pt ∧ t.dev = s.here) ∧
    (s.ctl.boot.stage = 6 → obs.pcs = [] → s.dev.flash.log = [] → ∃ t, exec i s = .next t ∧ t.ctl = s.ctl.stageDone ∧
        t.dev = { s.here with active := if s.ctl.boot.cold then benchesBySpare s.ctl.fuses else s.dev.active }) ∧
    (s.ctl.boot.stage = 7 → ∃ t, exec i s = .next t ∧ t.ctl.boot.stage = 8 ∧ t.pending = s.pending ∧
        tabGet 0 t.ctl.boot.stageTime 7 = s.ctl.clk.timebase) ∧
    (s.ctl.boot.stage = 8 → s.ctl.cfg.puwellStart = false ∨ imageOk s.ctl.fuses s.dev.flash.loader = true → ∃ t, exec i s = .next t ∧
        t.ctl.boot.ready = true ∧ t.ctl.boot.stage = 9 ∧ t.ctl.boot.readyTime = s.ctl.clk.timebase ∧ t.ctl.boot.running = false ∧
        ∀ k < 16, (t.dev.mbx k).st = .idle)) ∧
  (∀ i ∈ [Instr.bootStageLimitExpiry obs false],
    (s.ctl.boot.stage = 1 → exec i s = .next (s.withBoth (halt 1 s.ctl s.here).1 (halt 1 s.ctl s.here).2)) ∧
    (s.ctl.boot.stage = 2 → exec i s = .next (s.withBoth (halt 2 s.ctl s.here).1 (halt 2 s.ctl s.here).2)) ∧
    (s.ctl.boot.stage = 3 → obs.otherLate = true ∨ imageOk s.ctl.fuses (slotImage s.dev.flash (1 - activeSlot s.dev.flash)) = false →
        exec i s = .next (s.withBoth (halt 3 s.ctl s.here).1 (halt 3 s.ctl s.here).2)) ∧
    (s.ctl.boot.stage = 3 → obs.otherLate = false → imageOk s.ctl.fuses (slotImage s.dev.flash (1 - activeSlot s.dev.flash)) = true →
        ∃ t, exec i s = .next t ∧ t.ctl.boot.stage = 4 ∧ t.ctl.boot.fwFallback = true ∧ t.ctl.boot.fwSlot = BitVec.ofNat 1 (1 - activeSlot s.dev.flash)) ∧
    (s.ctl.boot.stage = 4 → ∃ t, exec i s = .next t ∧ t.ctl.cfg = {} ∧ t.ctl.boot.cfgDefaulted = true ∧ t.ctl.boot.failed = s.ctl.boot.failed) ∧
    exec (.bootStageLimitExpiry obs true) s = .next { s with dev := s.here.modFc (fun f => { f with tieCnt := cntInc f.tieCnt }) }) ∧
  (∀ (n : Nat) (c : Ctl) (d : Dev), (halt n c d).1 = { c with boot := { c.boot with failed := true, failCode := BitVec.ofNat 8 n, running := false } } ∧
    (halt n c d).2.fc.pin = true ∧ (halt n c d).2 = d.modFc (fun f => { f with halted := true }))

/-! ## Power, clocks, temperatures, JTAG (14) -/

/-- R506, R507, R515, R517, R519, R520: what the monitors' events and the pins change. While the blocks run, a lost clock and
the brake are raised as faults on the state the event leaves. -/
def Obligations.ClockAndPinEventsAct : Prop := ∀ s : State,
  (∀ p ∈ [(Instr.refclkLoss, Fs.refclkLoss, { s.ctl.clk with refclkOk := false }), (.pllUnlock, Fs.pllUnlock, { s.ctl.clk with pllLock := false })],
    s.Live → ∃ t, exec p.1 s = .next t ∧ t.ctl = { s.ctl with clk := p.2.2 } ∧ t.dev = raise s.ctl s.here p.2.1 0 ∧ t.pending = s.pending) ∧
  (s.Live → ∃ t, exec .ethRefclkLoss s = .next t ∧ t.ctl = { s.ctl with clk := { s.ctl.clk with ethRefclkOk := false } } ∧ t.pending = s.pending ∧
    t.dev = raise s.ctl s.here.portsDown Fs.ethRefclkLoss 0 ∧ ∀ p, (s.here.portsDown.eth p).up = false) ∧
  (s.Live → s.ctl.clk.ethRefclkOk = false → exec .ethRefclkReturn s =
    .next { s with ctl := { s.ctl with clk := { s.ctl.clk with ethRefclkOk := true } }, dev := s.here.portsRetrain }) ∧
  (s.ctl.clk.refclkOk = false ∨ s.ctl.clk.pllLock = false → s.dev.fc.safe = true → exec .oscSwitchover s =
    .next { s with ctl := { s.ctl with clk := { s.ctl.clk with onOsc := true } }, dev := s.here }) ∧
  (s.ctl.pins.pwrOk = true → exec .thermtripAssert s = .next { s with ctl := { s.ctl with pins := { s.ctl.pins with thermtrip := true } }, dev := s.here }) ∧
  (s.Live → s.dev.pwr.brake = false → ∃ d, exec .pwrbrkNAssert s =
      .next { s with ctl := { s.ctl with pins := { s.ctl.pins with pwrbrkN := false } }, dev := raise s.ctl d Fs.pwrBrake 0 } ∧
    d.pwr.brake = true ∧ d.pwr.brakeCnt = cntInc s.dev.pwr.brakeCnt ∧ ∀ b < 4, (d.bay b).div = 10) ∧
  (s.Live → exec .brakeEnd s = .next (s.withBoth { s.ctl with pins := { s.ctl.pins with pwrbrkN := true } }
      (s.here.modPwr (fun p => { p with brake := false })))) ∧
  (∀ low, exec (.jtagTrst low) s = .next { s with
      ctl := { s.ctl with jtag := { s.ctl.jtag with trst := low, instr := if low then 1 else s.ctl.jtag.instr } }, dev := s.here }) ∧
  (∀ i, s.ctl.jtag.trst = false → exec (.jtagInstructionUpdate i) s = .next { s with
      ctl := { s.ctl with jtag := { s.ctl.jtag with instr := i % 256 } }, dev := s.here }) ∧
  (∀ i, s.ctl.jtag.instr = i → s.ctl.tap = if i = 255 then 0 else if 3 ≤ i ∧ i ≤ 5 ∧ s.ctl.pins.sysRstN then 0 else if 8 ≤ i ∧ !s.ctl.jtag.unlocked then 0 else i) ∧
  (∀ sig, s.ctl.jtag.trst = false → s.ctl.jtag.unlocked = false → s.ctl.jtag.failures < 8 → ∃ t, exec (.jtagUnlockResp sig) s = .next t ∧ t.pending = s.pending ∧
    if unlockOk s.ctl sig then t.ctl = { s.ctl with jtag := { s.ctl.jtag with unlocked := true } } ∧ t.dev = raise s.ctl s.here Fs.jtagUnlock 0
    else t.ctl.jtag.failures = s.ctl.jtag.failures + 1 ∧ t.ctl.jtag.unlocked = false ∧ t.dev = { s.here with free := s.dev.free + 1 })

/-- R508, R509, R515, R516: every bay runs at the slowest division asked of it; a recovery step after the brake asks one step
faster; a bay with a unit at or above its warning level is moved one step slower by the thermal loop, unless at ÷10 already, and one that
is below it but still warm stays. -/
def Obligations.DivisionLoopsMove : Prop := ∀ s : State, s.Live →
  (s.dev.pwr.brake = false → ∃ t, exec .brakeRecoveryStep s = .next t ∧ t.ctl = s.ctl ∧ t.pending = s.pending ∧
    t.dev.pwr.brakeDiv = faster s.dev.pwr.brakeDiv ∧
    ∀ b < 4, (t.dev.bay b).div = max (max (s.dev.bay b).limitDiv (s.dev.bay b).thermDiv) (faster s.dev.pwr.brakeDiv)) ∧
  (∃ t, exec .thermalLoopTick s = .next t ∧ t.ctl = s.ctl ∧ t.pending = s.pending ∧
    ∀ b < 4, (t.dev.bay b).div = demand t.dev.pwr (t.dev.bay b) ∧ (t.dev.bay b).limitDiv = (s.dev.bay b).limitDiv ∧
      (bayHot s.dev.pwr b = true → (s.dev.bay b).div ≠ 10 → (t.dev.bay b).thermDiv = slower (s.dev.bay b).div) ∧
      (bayHot s.dev.pwr b = true → (s.dev.bay b).div = 10 → (t.dev.bay b).thermDiv = (s.dev.bay b).thermDiv) ∧
      (bayHot s.dev.pwr b = false → bayWarm s.dev.pwr b = true → (t.dev.bay b).thermDiv = (s.dev.bay b).thermDiv)) ∧
  (∀ (mw : W32) (p0 p1 p2 p3 : Nat), ∃ t, exec (.powerLimitEval mw p0 p1 p2 p3) s = .next t ∧ t.ctl = s.ctl ∧ t.pending = s.pending ∧
    (s.dev.pwr.limit.toNat * 1000 < mw.toNat → (∀ b < 4, (s.dev.bay b).div = 10) →
      t.dev = { s.here with pwr := { s.dev.pwr with inputMw := mw, belowMs := 0, limitMiss := true } }) ∧
    (mw.toNat ≤ s.dev.pwr.limit.toNat * 1000 → s.dev.pwr.limit.toNat * 1000 * 95 ≤ mw.toNat * 100 →
      t.dev = { s.here with pwr := { s.dev.pwr with inputMw := mw, belowMs := 0 } }))

/-- R149, R498, R499, R516: temperature and regulator readings are kept, and the transitions of R516, the doubled refresh of R149
and a fault in STATUS_WORD are raised. -/
def Obligations.ReadingsAreTaken : Prop := ∀ s : State, s.Live →
  (∀ (die : Fin 5) (temp : BitVec 16), ∃ d, exec (.dieSensorRead die temp) s = .next (s.withDev (raiseAll s.ctl d
        ((if decide (1600 ≤ signed 16 temp.toNat) && !bitAt s.dev.pwr.warm.toNat die.val then [(Fs.thermWarn die.val, 0, temp.toNat)] else []) ++
         (if decide (1760 ≤ signed 16 temp.toNat) && !bitAt s.dev.pwr.crit.toNat die.val then [(Fs.thermCrit die.val, 0, temp.toNat)] else [])))) ∧
    d.pwr.temps = setAt s.dev.pwr.temps die.val temp ∧ { d with pwr := s.dev.pwr, free := s.dev.free, out := [] } = s.here) ∧
  (∀ (h : Fin 8) (temp : BitVec 16),
    let hot := decide (1360 ≤ signed 16 temp.toNat)
    let d := s.here.modNearCtl h.val (fun n => { n with
      refresh2x := hot || (n.refresh2x && decide (1328 < signed 16 temp.toNat)), temp := BitVec.ofNat 8 (signed 16 temp.toNat / 16).toNat })
    s.ctl.clk.onOsc = false → exec (.hbmTempRead h temp) s = .next (s.withDev (devTemp (5 + h.val) temp 92 100 s.ctl
      (if hot && !(s.dev.nearCtl h.val).refresh2x then raise s.ctl d (Fs.nearTempHigh h.val) (h.val * 64) else d)))) ∧
  (∀ rail : Fin 10, exec (.pmbAlertNFall rail true) s = .next { s with dev := raise s.ctl s.here Fs.pwrRegFault (0x40 + rail.val) }) ∧
  (∀ (rail : Fin 10) (x : Option (Nat × Nat)), exec (.pmbusPoll rail x false) s =
    .next { s with dev := { s.here with pwr := { s.dev.pwr with regs := tabSet (0, 0) s.dev.pwr.regs rail.val (x.getD (0, 0)) } } })

/-- R511, R513, R514: a gated bench queues one request in its bay; the oldest request of a bay is admitted in the bay's window
when its share fits the budget, which wakes the bench at a quarter of the rate; the oldest reservation of a bench ends, 2 µs after its admission; the rate rises to the
full; every request that waits at a tick of the timebase is counted in PWR_WAKE_WAIT_TIME_CNT. -/
def Obligations.WakesAreAdmitted : Prop := ∀ s : State,
  (∀ i : Fin 132, s.Works → (s.dev.bench i.val).gated = true → (∀ q ∈ (s.dev.bay (i.val / 33)).queue, q.1 ≠ i.val) →
    exec (.wakeRequest i) s = .next { s with dev := s.here.modBay (i.val / 33) (fun y => { y with queue := y.queue ++ [(i.val, s.ctl.now)] }) }) ∧
  (∀ (b : Fin 4) (i t : Nat) (rest : List (Nat × Nat)), s.Works → (s.dev.bay b.val).queue = (i, t) :: rest →
    wakeAdmits s.ctl.now s.dev.pwr.budget.toNat b.val (wakeShare (s.dev.bay b.val).div) (s.dev.bay b.val).reserved = true →
    ∃ u, exec (.wakeAdmit b) s = .next u ∧ u.ctl = s.ctl ∧ u.pending = s.pending ∧ (u.dev.bench i).gated = false ∧ (u.dev.bench i).rate = 1 ∧
      (u.dev.bay b.val).queue = rest ∧
      (u.dev.bay b.val).reserved = (s.dev.bay b.val).reserved ++ [{ bench := i, share := wakeShare (s.dev.bay b.val).div }] ∧
      u.dev.pwr.wakeCnt = cntInc s.dev.pwr.wakeCnt ∧ (∀ k, k ≠ i → u.dev.bench k = s.dev.bench k) ∧
      { u.dev with benches := s.dev.benches, pwr := s.dev.pwr } = s.here) ∧
  (∀ i : Fin 132, s.Live → exec (.wakeReservationRelease i) s =
    .next (s.withDev (s.here.modBay (i.val / 33) (fun y => { y with reserved := y.reserved.eraseP (fun w => w.bench == i.val) })))) ∧
  (∀ i : Fin 132, s.Works → exec (.wakeRampStep i) s = .next (s.withDev
    (s.here.modBench i.val (fun x => { x with rate := if x.rate.toNat < 4 then x.rate + 1 else x.rate })))) ∧
  (s.Works → s.pending = [] → ∃ t, step s = .next t ∧ t.pending = [] ∧
    t.dev.pwr.waitTimeCnt = cntAdd s.dev.pwr.waitTimeCnt (((List.range 4).map (fun b => (s.dev.bay b).queue.length)).sum) ∧ t.dev.benches = s.dev.benches)

/-- R394, R397, R432: the events of upstream port 0, each in the state it acts in. Training brings the port UP with an empty
host-line filter; a recovery retrains; L0 ends it, counted and raised; PERST_N, a hot reset and a lost link are a host loss. -/
def Obligations.UpstreamPortEventsAct : Prop := ∀ s : State, s.Live →
  (s.ctl.pins.perst0Open = true → ∃ t, exec .perstN0Release s = .next t ∧ t.dev = s.here ∧ bitAt t.ctl.pins.perst.toNat 0 = true) ∧
  (s.ctl.pins.perst0Open = true → ∃ t, exec .perstN0Assert s = .next t ∧ t.dev = hostLoss s.ctl s.here ∧ bitAt t.ctl.pins.perst.toNat 0 = false) ∧
  (hostUp s.dev = true → exec .upstreamHotReset s = .next { s with dev := hostLoss s.ctl s.here }) ∧
  (s.dev.host.st = .retraining → exec .upstreamLinkDown s = .next { s with dev := hostLoss s.ctl s.here }) ∧
  ((s.dev.cxl 0).role = 1 → s.dev.host.st = .down → bitAt s.ctl.pins.perst.toNat 0 = true → 6 ≤ s.ctl.boot.stage.toNat →
    exec .upstreamLinkTrained s = .next { s with dev := { s.here with host := { s.dev.host with st := .up, filter := [] } } }) ∧
  (s.dev.host.st = .up → exec .upstreamLinkRecovery s = .next { s with dev := { s.here with host := { s.dev.host with st := .retraining } } }) ∧
  (s.dev.host.st = .retraining → exec .upstreamLinkL0 s = .next (s.withDev
    (raise s.ctl { s.here with host := { s.dev.host with st := .up, retrainCnt := cntInc s.dev.host.retrainCnt } } Fs.hostRetrain 0)))

/-! ## The fault collector and the protection tables (11, 12) -/

/-- R448: a raise sets PENDING, raises PEND_SEV to the effective severity and counts to saturation; a source already pending makes
a log entry only at effective severity 2 or 3 or above PEND_SEV, and that entry carries REPEAT; a 1 written to PENDING clears
PENDING, PEND_SEV and COUNT. -/
def Obligations.RaiseIsBooked : Prop :=
  ∀ (fc : Collector) (now : Nat) (life : StepLife) (msix : Bool) (src : Fin 480) (floor : Fin 4) (info : Nat),
    let x := fc.src src.val
    let eff := max x.sev.toNat floor.val
    let r := (fc.raise1 now life msix src.val floor.val info 1).1
    (r.src src.val).pending = true ∧ (r.src src.val).pendSev.toNat = max x.pendSev.toNat eff ∧
    (r.src src.val).count.toNat = min (x.count.toNat + 1) 0xFFFF ∧
    (∀ k : Nat, k ≠ src.val → r.src k = fc.src k) ∧
    (x.pending = true → eff < 2 → eff ≤ x.pendSev.toNat → r.log = fc.log ∧ r.seq = fc.seq) ∧
    (x.pending = true → 2 ≤ eff ∨ x.pendSev.toNat < eff ∧ x.noLog = false → ∀ i, fc.logSlot = some i →
      ∃ e, tabFind r.log i = some e ∧ e.rep = true ∧ e.src.toNat = src.val ∧ e.sev.toNat = eff ∧ e.seq = fc.seq) ∧
    (∀ (lock : Bool) (v : Nat), bitAt v 8 = true →
      let y := (writeSeverity lock src.val v fc).src src.val
      y.pending = false ∧ y.pendSev = 0 ∧ y.count = 0)

/-- R49, R250, R252, R444, R445, R447, R449, R460, R461: a raise whose effective severity is 0 or 1 is booked and changes nothing else, as is
one at severity 2 with the jig IDLE, or in the safe state; at severity 2 containment cuts off a step that runs: the jig goes to ABORTED,
or to IDLE where a stop was pending, JIG_EPOCH advances once, every engine, stager and collective of the step stops; one at severity 3
enters the safe state, latching its source and time, with every engine stopped and every bench gated. After SILKAI_LOCKSTEP or
SILKAI_SRAM_UE Silkai is held in reset besides. -/
def Obligations.FaultRaiseActs : Prop := ∀ (s : State) (src : Fin 480) (floor : Fin 4) (info : W64), s.Live → s.dev.fc.deaf = false →
  let fl := eventFloor src.val floor.val
  let eff := max (s.dev.fc.src src.val).sev.toNat fl
  let hold := fun (d : Dev) => if src.val = Fs.lockstep ∨ src.val = Fs.sramUe then d.holdSilkai else d
  (eff < 2 ∨ (eff = 2 ∧ (s.dev.fc.entering = true ∨ s.dev.life.state = .idle)) → exec (.faultRaise [(src, floor.val, info)]) s = .next (s.withDev (hold { s.here with
      fc := (s.dev.fc.raise1 s.ctl.now s.dev.life ((s.dev.cxl 0).role == 1) src.val fl info.toNat 1).1 }))) ∧
  (eff = 2 → s.dev.fc.entering = false →
    s.dev.life.state = .forward ∨ s.dev.life.state = .backward ∨ (s.dev.life.state = .clamp ∧ Dev.stopping s.dev.life = false) →
    ∃ t, exec (.faultRaise [(src, floor.val, info)]) s = .next t ∧ t.ctl = s.ctl ∧ t.pending = s.pending ∧
      t.dev.life.state = (if s.dev.life.stopPending.isSome then .idle else .aborted) ∧ t.dev.life.stopPending = none ∧
      t.dev.life.epoch = s.dev.life.epoch + 1 ∧ (∀ k, idleBench (t.dev.bench k) = true) ∧ (∀ b, (t.dev.stager b).filling = []) ∧
      t.dev.stream.gates = [] ∧ (∀ o ∈ t.dev.coll.ops, o.tag = none)) ∧
  (eff = 3 → s.dev.fc.entering = false → ∃ t, exec (.faultRaise [(src, floor.val, info)]) s = .next t ∧ t.ctl = s.ctl ∧ t.pending = s.pending ∧
    t.dev.fc.entering = true ∧ t.dev.fc.safeValid = true ∧ t.dev.fc.safeSrc = BitVec.ofNat 9 src.val ∧
    t.dev.fc.safeTime = s.ctl.clk.timebase ∧ t.dev.fc.owedI3c = true ∧ t.dev.silkai.puwellHalted = true ∧ t.dev.life = s.dev.life ∧
    (∀ k, idleBench (t.dev.bench k) = true) ∧ (∀ k < 132, s.dev.benchActive k = true → (t.dev.bench k).gated = true))

/-- R446, R455, R458, R459, R461: the collector's own events. -/
def Obligations.CollectorEventsAct : Prop := ∀ s : State, s.Live →
  (s.dev.fc.entering = true → exec .safeStateComplete s = .next (s.withDev { s.here with near := { s.dev.near with selfRefresh := true }, fc := { s.dev.fc with safe := true } }) ∧
    exec (.safeStateComplete true) s = .next (s.withDev { s.here with near := { s.dev.near with selfRefresh := true } })) ∧
  (s.dev.fc.owedMsix = true → s.dev.fc.notify = true → s.dev.msixPath = true → bitAt s.dev.silkai.msixMask.toNat 16 = false →
    exec (.notificationDeliver 0) s = .next (s.withDev { s.dev with fc := { s.dev.fc with owedMsix := false }, out := [.msix 16] })) ∧
  (s.dev.fc.owedI3c = true → s.dev.fc.notify = true ∨ s.dev.fc.entering = true →
    exec (.notificationDeliver 1) s = .next (s.withDev { s.dev with fc := { s.dev.fc with owedI3c := false }, out := [.ibi] })) ∧
  (∀ ce : List (Fin 1024), exec (.collectorSweep ce none) s =
    .next (s.withDev { s.here with fc := { s.dev.fc with logCeCnt := cntAdd s.dev.fc.logCeCnt ce.length } })) ∧
  (∀ (ce : List (Fin 1024)) (kind : Bool) (off : BitVec 20), s.dev.fc.deaf = false → ∃ t, exec (.collectorSweep ce (some (kind, off))) s = .next t ∧
    t.ctl = s.ctl ∧ t.dev.fc.selfErr = true ∧ t.dev.fc.entering = true ∧ t.dev.fc.safeSrc = 0x1FF ∧ t.dev.fc.selfOff = off ∧ t.dev.fc.deaf = true) ∧
  (s.dev.fc.fresh = true → exec (.silkaiHeartbeatExpiry false) s =
    .next (s.withDev (raise s.ctl { s.here with fc := { s.dev.fc with fresh := false, mode := 1, pulse := false, fallback := true } } Fs.heartbeatLost 0))) ∧
  (exec (.silkaiHeartbeatExpiry true) s =
    .next (s.withDev { s.here with fc := { s.dev.fc with fresh := true, tieCnt := cntInc s.dev.fc.tieCnt } })) ∧
  (s.dev.fc.pulse = true → exec (.fltNPulseEnd false) s = .next (s.withDev { s.here with fc := { s.dev.fc with pulse := false } }) ∧
    exec (.fltNPulseEnd true) s = .next (s.withDev { s.here with fc := { s.dev.fc with tieCnt := cntInc s.dev.fc.tieCnt } }))

/-- R448, R450, R457, R458: who may write FC_PIN_CFG, FC_SEVERITY[n] and FC_HEARTBEAT, and what the write changes. A fixed source's
severity does not come down; a locked one keeps its settings; a write that does not reach the block is dropped and recorded. Up to the
end of boot stage 4 a write of FC_PIN_CFG changes nothing (the model's choice, log 169). -/
def Obligations.CollectorRegistersTakeWrites : Prop := ∀ s : State, s.Live →
  (∀ tie, exec (.fcHeartbeatWrite 15 tie) s =
    .next (s.withDev { s.here with fc := { s.dev.fc with fresh := true, tieCnt := cntIf tie s.dev.fc.tieCnt } })) ∧
  (∀ (port : Fin 16) (tie : Bool), port ≠ 15 → arrives s.dev port.val = true → exec (.fcHeartbeatWrite port tie) s = .next (s.withDev (dropWrite 0x3F0001000018 port.val s.ctl s.here))) ∧
  (∀ (port : Fin 16) (v : W32), s.CsrOpen port.val 0x3F0001000010 4 → port = 15 ∨ s.ctl.cfg.faultCfgLock = false → s.ctl.boot.stage.toNat < 5 →
      exec (.fcPinCfgWrite port v) s = .next (s.withDev s.here)) ∧
  (∀ (port : Fin 16) (v : W32), s.CsrShut port.val 0x3F0001000010 4 → exec (.fcPinCfgWrite port v) s = .next (s.withDev (dropWrite 0x3F0001000010 port.val s.ctl s.here))) ∧
  (∀ (port : Fin 16) (v : W32), s.CsrOpen port.val 0x3F0001000010 4 → port = 15 ∨ s.ctl.cfg.faultCfgLock = false → 5 ≤ s.ctl.boot.stage.toNat → ∃ f, exec (.fcPinCfgWrite port v) s =
      .next (s.withDev { s.here with fc := f }) ∧ f.threshold = v.extractLsb' 0 2 ∧ f.pulseMinUs = v.extractLsb' 16 14 ∧
      (bitAt v.toNat 2 = true → f.mode = 1 ∧ f.pulse = false) ∧
      (bitAt v.toNat 2 = false → s.dev.fc.fallback = true → s.dev.fc.fresh = false → f.mode = s.dev.fc.mode ∧ f.refusedCnt = cntInc s.dev.fc.refusedCnt) ∧
      (bitAt v.toNat 2 = false → s.dev.fc.fallback = false ∨ s.dev.fc.fresh = true → f.mode = 0 ∧ f.fallback = false)) ∧
  (∀ (port : Fin 16) (n : Fin 480) (v : W32), s.CsrOpen port.val (0x3F0001001000 + 4 * n.val) 4 → ∃ f, exec (.fcSeverityWrite port n v) s = .next (s.withDev { s.here with fc := f }) ∧
      (∀ k, k ≠ n.val → f.src k = s.dev.fc.src k) ∧
      ((s.dev.fc.src n.val).lock = true ∨ (port ≠ 15 ∧ s.ctl.cfg.faultCfgLock = true) →
        (f.src n.val).sev = (s.dev.fc.src n.val).sev ∧ f.refusedCnt = cntInc s.dev.fc.refusedCnt) ∧
      (sevFixed n.val = true → v.extractLsb' 0 2 ≠ 3#2 → (f.src n.val).sev = (s.dev.fc.src n.val).sev) ∧
      ((s.dev.fc.src n.val).lock = false → port = 15 → sevFixed n.val = false → (f.src n.val).sev = v.extractLsb' 0 2 ∧ f.refusedCnt = s.dev.fc.refusedCnt)) ∧
  (∀ (port : Fin 16) (n : Fin 480) (v : W32), s.CsrShut port.val (0x3F0001001000 + 4 * n.val) 4 →
    exec (.fcSeverityWrite port n v) s = .next (s.withDev (dropWrite (0x3F0001001000 + 4 * n.val) port.val s.ctl s.here)))

/-- R18, R438: PT_LOCK is set by a write; while it is 0 Silkai writes an entry's half; any other write of an entry is dropped and
recorded, and the tables stay. -/
def Obligations.ProtectionEntriesTakeWrites : Prop := ∀ s : State, s.Live →
  (∀ port : Fin 16, s.CsrOpen port.val 0x3F0001200800 4 → exec (.ptLockSet port) s = .next (s.withBoth { s.ctl with ptLock := true } s.here)) ∧
  (∀ port : Fin 16, s.CsrShut port.val 0x3F0001200800 4 → exec (.ptLockSet port) s = .next (s.withDev (dropWrite 0x3F0001200800 port.val s.ctl s.here))) ∧
  (∀ (cls : Fin 4) (i : Fin 32) (v : W64), s.ctl.ptLock = false → ∃ c, exec (.ptEntryWrite 15 cls i false v) s = .next (s.withBoth c s.here) ∧
    tabGet {} c.pt (cls.val * 32 + i.val) = { tabGet {} s.ctl.pt (cls.val * 32 + i.val) with lo := v &&& 0x0000FFFFFFFFF00F } ∧
    ∀ k, k ≠ cls.val * 32 + i.val → tabGet {} c.pt k = tabGet {} s.ctl.pt k) ∧
  (∀ (cls : Fin 4) (i : Fin 32) (v : W64), s.ctl.ptLock = false → ∃ c, exec (.ptEntryWrite 15 cls i true v) s = .next (s.withBoth c s.here) ∧
    tabGet {} c.pt (cls.val * 32 + i.val) = { tabGet {} s.ctl.pt (cls.val * 32 + i.val) with hi := v &&& 0x0000FFFFFFFFF000 } ∧
    ∀ k, k ≠ cls.val * 32 + i.val → tabGet {} c.pt k = tabGet {} s.ctl.pt k) ∧
  (∀ (port : Fin 16) (cls : Fin 4) (i : Fin 32) (hi : Bool) (v : W64), s.ctl.ptLock = true ∨ port ≠ 15 → arrives s.dev port.val = true →
    exec (.ptEntryWrite port cls i hi v) s =
      .next (s.withDev (dropWrite (ptAddr (cls.val * 32 + i.val) hi) port.val s.ctl s.here)))

/-- R18, R438: whatever the command, a locked protection table does not change, but for a cold reset. -/
def Obligations.LockedTablesStay : Prop := ∀ (i : Instr) (s t : State), i ≠ .pwrOkRise → i ≠ .pwrOkFall →
  s.ctl.ptLock = true → exec i s = .next t → t.ctl.ptLock = true ∧ t.ctl.pt = s.ctl.pt

/-- R500, R501, R504: the control part stays sound at every step: blocks run only with power good, SYS_RST_N high and the timebase
counting, and boot's stages only while the blocks run. -/
def Obligations.StepsKeepControlSound : Prop := ∀ s t : State, s.ctl.Sound → step s = .next t → t.ctl.Sound

/-- R157, R500, R501, R504, R522, R523: the machine after reset has a sound control part, an empty queue and a memory in canonical form;
every command keeps that form: after it the cells' addresses and the lines' numbers still rise strictly. -/
def Obligations.ResetControlSound : Prop := State.reset.ctl.Sound ∧ State.reset.dev.mem.wf = true ∧ State.reset.pending = [] ∧
  ∀ (i : Instr) (s t : State), s.dev.mem.wf = true → exec i s = .next t → t.dev.mem.wf = true

/-! ## Benches: scratchpad, ownership, engines (02, 03) -/

/-- R19, R66, R109, R110, R117, R118, R135: a write to SPAD_OWNER, SPAD_OWNER_SET or SPAD_STAT_OWNER that names a valid owner and whose
condition, if it has one, holds gives every selected bank to the owner and begins its handover; the handover's end opens the bank;
a pair changes mode only with both banks NONE and settled; any other write is counted and changes no owner. A write that does not reach
the block is dropped and recorded. -/
def Obligations.BankOwnersChange : Prop := ∀ (s : State) (i : Fin 132) (p : Fin 16), s.Works → s.dev.benchActive i.val = true →
  (∀ (k : Fin 16) (v : W32), ownerWriteOk [k.val] (bits v.toNat 0 3) (bitAt v.toNat 3) (bits v.toNat 4 3) (s.dev.bench i.val) = true → s.CsrOpen p.val (benchAddr i.val (4 * k.val)) 4 →
    ∃ b, exec (.spadOwnerWrite i k v p) s = .next (s.withDev (s.here.modBench i.val (fun _ => b))) ∧
      (∀ j ∈ withPair (s.dev.bench i.val) k.val, tabGet 0 b.owner j = bits v.toNat 0 3 ∧ bitAt b.handover.toNat j = true) ∧
      (∀ j, j ∉ withPair (s.dev.bench i.val) k.val → tabGet 0 b.owner j = tabGet 0 (s.dev.bench i.val).owner j) ∧
      b.spad = (s.dev.bench i.val).spad ∧ b.handoverFailCnt = (s.dev.bench i.val).handoverFailCnt) ∧
  (∀ (k : Fin 16) (v : W32), ownerWriteOk [k.val] (bits v.toNat 0 3) (bitAt v.toNat 3) (bits v.toNat 4 3) (s.dev.bench i.val) = false → s.CsrOpen p.val (benchAddr i.val (4 * k.val)) 4 →
    exec (.spadOwnerWrite i k v p) s =
      .next (s.withDev (s.here.modBench i.val (fun b => { b with handoverFailCnt := cntInc b.handoverFailCnt })))) ∧
  (∀ v : W32, ownerWriteOk (setBitsOf v.toNat 16) (bits v.toNat 16 3) (bitAt v.toNat 19) (bits v.toNat 20 3) (s.dev.bench i.val) = true → s.CsrOpen p.val (benchAddr i.val 0x40) 4 →
    ∃ b, exec (.spadOwnerSetWrite i v p) s = .next (s.withDev (s.here.modBench i.val (fun _ => b))) ∧
      (∀ k < 16, bitAt v.toNat k = true → tabGet 0 b.owner k = bits v.toNat 16 3 ∧ bitAt b.handover.toNat k = true) ∧ b.spad = (s.dev.bench i.val).spad) ∧
  (∀ v : W32, bits v.toNat 0 3 = 0 ∨ bits v.toNat 0 3 = 3 ∨ bits v.toNat 0 3 = 7 → bitAt v.toNat 3 = false ∨ (s.dev.bench i.val).statOwner.toNat = bits v.toNat 4 3 → s.CsrOpen p.val (benchAddr i.val 0x48) 4 →
    exec (.spadStatOwnerWrite i v p) s =
      .next (s.withDev (s.here.modBench i.val (fun b => { b with statOwner := BitVec.ofNat 3 (bits v.toNat 0 3), statHandover := true })))) ∧
  (∀ v : W32, (∀ k < 8, bitAt v.toNat k ≠ bitAt (s.dev.bench i.val).paired.toNat k →
        tabGet 0 (s.dev.bench i.val).owner (2 * k) = 7 ∧ tabGet 0 (s.dev.bench i.val).owner (2 * k + 1) = 7 ∧ bits (s.dev.bench i.val).handover.toNat (2 * k) 2 = 0) → s.CsrOpen p.val (benchAddr i.val 0x44) 4 →
    ∃ b, exec (.spadPairWrite i v p) s = .next (s.withDev ({ s.here with free := s.dev.free + 8 }.modBench i.val (fun _ => b))) ∧
      b.paired = v.extractLsb' 0 8 ∧ b.owner = (s.dev.bench i.val).owner ∧ b.handoverFailCnt = (s.dev.bench i.val).handoverFailCnt) ∧
  (exec (.spadHandoverEnd i 16) s = .next (s.withDev (s.here.modBench i.val (fun b => { b with statHandover := false })))) ∧
  (∀ k : Fin 17, k.val < 16 → ∃ b, exec (.spadHandoverEnd i k) s = .next (s.withDev (s.here.modBench i.val (fun _ => b))) ∧
    bitAt b.handover.toNat k.val = false ∧ b.owner = (s.dev.bench i.val).owner) ∧
  (∀ (k : Fin 16) (v : W32), ∀ x ∈ [(Instr.spadOwnerWrite i k v p, 4 * k.val), (.spadOwnerSetWrite i v p, 0x40), (.spadPairWrite i v p, 0x44), (.spadStatOwnerWrite i v p, 0x48)],
    (s.CsrShut p.val (benchAddr i.val x.2) 4 → exec x.1 s = .next (s.withDev (dropWrite (benchAddr i.val x.2) p.val s.ctl s.here))) ∧
    (arrives s.dev p.val = false → exec x.1 s = .next (s.withDev s.here)))

/-- R107, R108, R112, R114, R115: an access of one unit to a bank its master owns is performed at once: a write lands, a sound read
answers the bytes; to another bank it waits, until the bank is its master's and the access is accepted, with the clocks it waited
counted, or until the limit abandons it. -/
def Obligations.BankAccessesRun : Prop := ∀ (s : State) (i : Fin 132), s.Works → s.dev.benchActive i.val = true →
  (∀ (m : Fin 5) (off : BitVec 21) (bs : List Byte) (len : Nat), oneUnit off.toNat len = true →
    ownsBank (s.dev.bench i.val) m.val (bankOfOff (s.dev.bench i.val) off.toNat) = true → (s.dev.bench i.val).waits = [] →
    exec (.spadAccess i m true off bs len 0) s = .next (s.withDev (s.here.modBench i.val (fun b =>
      { b with spad := spadWrite b.spad off.toNat (bs.take len), dbl := clearDbl b.dbl off.toNat (min len bs.length) }))) ∧
    (badWord (s.dev.bench i.val) [(off.toNat, len)] = none → exec (.spadAccess i m false off [] len 0) s = .next (s.withDev { s.dev with
      out := [.bytes (9 + i.val / 33) (0x3F8000000000 + i.val * 0x200000 + off.toNat) (spadRead (s.dev.bench i.val).spad off.toNat len) false] }))) ∧
  (∀ (m : Fin 5) (wr : Bool) (off : BitVec 21) (bs : List Byte) (len : Nat) (ecc : Fin 3), oneUnit off.toNat len = true →
    ownsBank (s.dev.bench i.val) m.val (bankOfOff (s.dev.bench i.val) off.toNat) = false → (s.dev.bench i.val).waitLimit ≠ 0 →
    exec (.spadAccess i m wr off bs len ecc) s = .next (s.withDev (s.here.modBench i.val (fun b => { b with waits := b.waits ++
      [{ master := m.val, write := wr, off := off.toNat, len := len, data := bs, port := 9 + i.val / 33, ecc := ecc.val }] })))) ∧
  (∀ (m : Fin 5) (n : Nat) (w : WaitAcc), (s.dev.bench i.val).waits = [w] → w.master = m.val → w.write = true → w.dma = none → 0 < w.len →
    waitOver (s.dev.bench i.val) w = true → ∃ t, exec (.spadAccessAccept i m n) s = .next t ∧ (t.dev.bench i.val).waits = [] ∧
      tabGet 0 (t.dev.bench i.val).waitCnt m.val = cntAdd (tabGet 0 (s.dev.bench i.val).waitCnt m.val) n ∧
      (t.dev.bench i.val).spad = spadWrite (s.dev.bench i.val).spad w.off (w.data.take w.len) ∧ { t.dev with benches := s.dev.benches } = s.here) ∧
  (∀ w : WaitAcc, (s.dev.bench i.val).waits = [w] → w.master = 4 → w.write = true → w.dma = none →
    exec (.spadWaitLimitExpiry i 4 false) s = .next (s.withDev (benchErr s.ctl (s.here.modBench i.val (fun b =>
      { b with waits := [], waitCnt := tabMod 0 b.waitCnt 4 (fun v => cntAdd v b.waitLimit.toNat) })) i.val 2 w.off 4))) ∧
  (∀ (p : Fin 16) (off : BitVec 21) (bs : List Byte) (len : Nat), p ≠ 8 → arrives s.dev p.val = true → ptPermits s.ctl (csrAsker p.val) 2 (0x3F8000000000 + i.val * 0x200000 + off.toNat) (max len 1) = true →
    oneUnit off.toNat len = true → ownsBank (s.dev.bench i.val) 4 (bankOfOff (s.dev.bench i.val) off.toNat) = true → (s.dev.bench i.val).waits = [] →
    exec (.spadWindowAccess p i true off bs len) s = .next (s.withDev (s.here.modBench i.val (fun b =>
      { b with spad := spadWrite b.spad off.toNat (bs.take len), dbl := clearDbl b.dbl off.toNat (min len bs.length) }))))

/-- The vector rows with the codes of R128. -/
def Sys2Proof.vectorRows : List ((Fin 132 → Instr) × Nat) :=
  [(.copy, 0), (.fill, 1), (.bcast, 2), (.add, 3), (.sub, 4), (.mul, 5), (.fma, 6), (.min, 7), (.max, 8), (.abs, 9), (.neg, 10), (.colAdd, 11),
   (.rowMul, 12), (.cmpGt, 13), (.select, 14), (.div, 15), (.recip, 16), (.sqrt, 17), (.rsqrt, 18), (.log, 19), (.func, 20), (.dfunc, 21),
   (.rowSum, 22), (.rowMax, 23), (.rowTopk, 24), (.compress, 25), (.expand, 26), (.gather, 27)]

/-- The row-engine rows with the codes of R138. -/
def Sys2Proof.rowRows : List ((Fin 132 → Instr) × Nat) := [(.lnFwd, 0), (.rmsFwd, 1), (.smFin, 2), (fun b => .lnBwd b, 3), (fun b => .rmsBwd b, 4), (fun b => .smBwd b, 5)]

/-- R128, R132, R134, R139: each vector row runs the head task of its bench when the descriptor names its operation, passes the
checks, and every bank is the engine's and sound: the scratchpad takes the run's results, the non-finite outputs are counted, the
task stands ready to complete with OK. Nothing else of the part changes. -/
def Obligations.VectorRowsRun : Prop := ∀ p ∈ vectorRows, ∀ (s : State) (i : Fin 132) (t : Task) (rest : List Task) (ws : List Nat), s.Works →
  (s.dev.bench i.val).gated = false → (s.dev.bench i.val).vec.slots = t :: rest → t.ran = false → fetchDesc (s.dev.bench i.val) 2 t.off = .words ws →
  (vecDescOf ws).op = p.2 → vecChecks (s.dev.bench i.val) (vecDescOf ws) (ctxSpan (vecDescOf ws).sr t.off) = .passes →
  vecMissing (s.dev.bench i.val) (vecDescOf ws) (ctxSpan (vecDescOf ws).sr t.off) = none →
  vecBad (s.dev.bench i.val) (vecDescOf ws) (ctxSpan (vecDescOf ws).sr t.off) = none →
  let r := vecRun (s.dev.bench i.val).spad (vecDescOf ws) s.dev.free (taskRand s.here i.val t (vecDescOf ws).streamId)
  ∃ u, exec (p.1 i) s = .next u ∧ u.ctl = s.ctl ∧ u.pending = s.pending ∧ (u.dev.bench i.val).spad = r.1 ∧
    (u.dev.bench i.val).vec.slots = { t with issued := true, ran := true, words := ws, res := resOk } :: rest ∧
    (u.dev.bench i.val).vec.nonfinCnt = cntAdd (s.dev.bench i.val).vec.nonfinCnt r.2 ∧
    (u.dev.bench i.val).vec.nonfinite = ((s.dev.bench i.val).vec.nonfinite || decide (0 < r.2)) ∧
    (u.dev.bench i.val).owner = (s.dev.bench i.val).owner ∧ (u.dev.bench i.val).stat = (s.dev.bench i.val).stat ∧
    (∀ k, k ≠ i.val → u.dev.bench k = s.dev.bench k) ∧ { u.dev with benches := s.dev.benches, free := s.dev.free } = s.here

/-- R135, R138, R139: the same of the row engine, which also reads and writes the stat store it owns. -/
def Obligations.RowEngineRowsRun : Prop := ∀ p ∈ rowRows, ∀ (s : State) (i : Fin 132) (t : Task) (rest : List Task) (ws : List Nat), s.Works →
  (s.dev.bench i.val).gated = false → (s.dev.bench i.val).row.slots = t :: rest → t.ran = false → fetchDesc (s.dev.bench i.val) 3 t.off = .words ws →
  (rowDescOf ws).op = p.2 → rowCheck (rowDescOf ws) (ctxSpan (rowDescOf ws).sr t.off) = none →
  (rowUsesStore (rowDescOf ws) = true → statReady (s.dev.bench i.val) 3 = true) →
  missingAt (s.dev.bench i.val) 3 (rowReadBytes (rowDescOf ws) ++ rowWritten (rowDescOf ws) ++ ctxSpan (rowDescOf ws).sr t.off) = none →
  (s.dev.bench i.val).dbl = [] → (s.dev.bench i.val).statDbl = [] →
  let r := rowRun (s.dev.bench i.val).spad (s.dev.bench i.val).stat (rowDescOf ws) (taskRand s.here i.val t (rowDescOf ws).streamId)
  ∃ u, exec (p.1 i) s = .next u ∧ u.ctl = s.ctl ∧ u.pending = s.pending ∧ (u.dev.bench i.val).spad = r.1 ∧ (u.dev.bench i.val).stat = r.2.1 ∧
    (u.dev.bench i.val).row.slots = { t with issued := true, ran := true, words := ws, res := resOk } :: rest ∧
    (u.dev.bench i.val).row.nonfinCnt = cntAdd (s.dev.bench i.val).row.nonfinCnt r.2.2 ∧
    (∀ k, k ≠ i.val → u.dev.bench k = s.dev.bench k) ∧ { u.dev with benches := s.dev.benches } = s.here

/-- R83, R84, R86, R95, R103, R134, R141: a matrix task is fetched and checked; its next tile is released once its partial tiles have
arrived; where every bank is the engine's and sound, its array and its drain get through every tile, and a matrix task whose last tile
is drained completes with OK; a task that has run completes: the slot is free, LAST_RESULT holds its status, the count rises and the jig is told;
at a gate that is not open, idle benches clock-gate (R250). -/
def Obligations.EngineTasksAdvance : Prop := ∀ (s : State) (i : Fin 132) (t : Task) (rest : List Task), s.Works → (s.dev.bench i.val).gated = false →
  (∀ ws, (s.dev.bench i.val).mx.slots = t :: rest → t.issued = false → fetchDesc (s.dev.bench i.val) 1 t.off = .words ws →
    mxCheck (mxDescOf ws) (ctxSpan (mxDescOf ws).sr t.off) = none →
    missingAt (s.dev.bench i.val) 1 (ctxSpan (mxDescOf ws).sr t.off) = none → badWord (s.dev.bench i.val) (ctxSpan (mxDescOf ws).sr t.off) = none →
    let ctx := if (mxDescOf ws).sr then leNat (spadRead (s.dev.bench i.val).spad (t.off + 64) 8) else 0
    exec (.mxTaskIssue i) s = .next (s.withDev (s.here.modBench i.val (fun b => { b with mx := { b.mx with slots := { t with issued := true, words := ws, ctx := ctx } :: rest } })))) ∧
  ((s.dev.bench i.val).mx.slots = t :: rest → t.issued = true → t.ran = false → t.tile < mxTiles (mxDescOf t.words) → partialsIn s.dev i.val t = true →
    exec (.mxPartialWaitRelease i) s = .next (s.withDev (s.here.modBench i.val (fun b => { b with
      mx := { b.mx with slots := { t with tile := t.tile + 1 } :: rest } })))) ∧
  ((∀ k < 16, ownsBank (s.dev.bench i.val) 1 k = true) → (s.dev.bench i.val).waits = [] → (s.dev.bench i.val).dbl = [] → (mxDescOf t.words).nPart = 0 → t.fill = 0 → t.drain = 0 →
    (mxGo (mxRand s.dev.opt.seed t) (mxDescOf t.words) (mxMoves (mxDescOf t.words)) (s.dev.bench i.val) t).2.drain = mxTiles (mxDescOf t.words)) ∧
  (∀ n, (s.dev.bench i.val).mx.slots = t :: rest → t.issued = true → t.ran = false →
    let r := mxGo (mxRand s.dev.opt.seed t) (mxDescOf t.words) (mxMoves (mxDescOf t.words)) (s.dev.bench i.val) t
    mxTiles (mxDescOf t.words) ≤ r.2.drain →
    ∃ u, exec (.mxTaskComplete i n) s = .next u ∧ (u.dev.bench i.val).spad = r.1.spad ∧ (u.dev.bench i.val).mx.slots = rest ∧ (u.dev.bench i.val).mx.last = 0 ∧
      (u.dev.bench i.val).mx.taskCnt = cntInc (s.dev.bench i.val).mx.taskCnt ∧ (u.dev.bench i.val).mx.busyClk = cntAdd (s.dev.bench i.val).mx.busyClk n ∧
      (u.dev.bench i.val).mx.usefulClk = cntAdd (s.dev.bench i.val).mx.usefulClk (mxUseful (mxDescOf t.words)) ∧
      (∀ k, k ≠ i.val → { u.dev.bench k with gated := (s.dev.bench k).gated } = s.dev.bench k) ∧ { u.dev with benches := s.dev.benches, jigs := s.dev.jigs } = s.here) ∧
  ((s.dev.bench i.val).vec.slots = t :: rest → t.ran = true → ∃ u, exec (.vecTaskComplete i) s = .next u ∧ (u.dev.bench i.val).vec.slots = rest ∧
    (u.dev.bench i.val).vec.last = BitVec.ofNat 4 t.res ∧ (u.dev.bench i.val).vec.taskCnt = cntInc (s.dev.bench i.val).vec.taskCnt ∧
    (u.dev.bench i.val).spad = (s.dev.bench i.val).spad ∧ { u.dev with benches := s.dev.benches, jigs := s.dev.jigs } = s.here) ∧
  ((s.dev.bench i.val).row.slots = t :: rest → t.ran = true → ∃ u, exec (.rowTaskComplete i) s = .next u ∧ (u.dev.bench i.val).row.slots = rest ∧
    (u.dev.bench i.val).row.last = BitVec.ofNat 4 t.res ∧ (u.dev.bench i.val).row.taskCnt = cntInc (s.dev.bench i.val).row.taskCnt ∧
    (u.dev.bench i.val).spad = (s.dev.bench i.val).spad ∧ { u.dev with benches := s.dev.benches, jigs := s.dev.jigs } = s.here)

/-! ## The bench DMA (03) and writes to memory (04, 10) -/

/-- The rows of the bench DMA with the codes of R121. -/
def Sys2Proof.dmaRowTable : List ((Fin 132 → Instr) × Nat) := [(.load, 0), (.store, 1), (fun b => .statSave b, 2), (.statLoad, 3)]

/-- R121 to R126: a DMA row runs the head descriptor of its bench when it is of that kind, passes its checks and its banks are the
DMA's: the task is marked as run, no block of its spans being held for a row repair (R165), and the data moves as `dmaLoad` (LOAD, STAT_LOAD) or `dmaStore` (STORE, STAT_SAVE) says; accesses of a descriptor that containment ended find nobody waiting (R447). A
descriptor that has run and whose accesses are acknowledged completes: its slot is free, LAST_RESULT holds its status, the count
rises. -/
def Obligations.DmaDescriptorsRun : Prop := ∀ (s : State) (i : Fin 132) (t : Task) (rest : List Task), s.Works → (s.dev.bench i.val).gated = false →
  (s.dev.bench i.val).dma.slots = t :: rest →
  (∀ p ∈ dmaRowTable, ∀ ws, t.ran = false → fetchDesc (s.dev.bench i.val) 0 t.off = .words ws → (dmaDescOf ws).kind = p.2 →
    dmaCheck s.here (dmaDescOf ws) = none → dmaHeld s.here (dmaDescOf ws) = false → dmaMissing (s.dev.bench i.val) (dmaDescOf ws) = none →
    let d := s.here.modBench i.val (fun b => { b with dma := { b.dma with slots := { t with issued := true, ran := true, words := ws } :: rest } })
    exec (p.1 i) s = .next (s.withDev (dmaStopped i.val (if p.2 = 0 ∨ p.2 = 3 then dmaLoad i.val (dmaDescOf ws) s.ctl d else dmaStore i.val (dmaDescOf ws) s.ctl d)))) ∧
  (t.ran = true → t.hostWrites = 0 → dmaLanding s.here (dmaDescOf t.words) = false → (dmaDescOf t.words).kind = 1 → (dmaDescOf t.words).dowelGen = false → t.res = 0 → t.badSrc = false →
    ∃ u, exec (.dmaDescComplete i) s = .next u ∧ u.ctl = s.ctl ∧ (u.dev.bench i.val).dma.slots = rest ∧ (u.dev.bench i.val).dma.last = 0 ∧
      (u.dev.bench i.val).dma.taskCnt = cntInc (s.dev.bench i.val).dma.taskCnt ∧ (∀ k, k ≠ i.val → { u.dev.bench k with gated := (s.dev.bench k).gated } = s.dev.bench k) ∧
      { u.dev with benches := s.dev.benches, jigs := s.dev.jigs } = s.here)

/-- R55, R152, R154, R164, R385, R523: a write through the homes to lines that no cache or directory tracks and no transaction is open for
writes exactly its span of memory: every byte of the span reads as written, every other byte as before; beside memory only the queues,
write-backs and row histories of the stacks change. A write to a line whose home is at work on it joins the line's chain, and memory
waits for its turn (R382; the model's choice, log 165). -/
def Obligations.PokeWritesItsSpan : Prop := ∀ (d : Dev) (a : Nat) (bs : List Byte), rangeOf a ≠ .unified →
  ((∀ l ∈ Memory.linesOf a bs.length, d.tracked l = false ∧ d.busyLine l = false) →
  (∀ q, (d.poke a bs).mem.byte d.era q = if a ≤ q ∧ q < a + bs.length then bs.getD (q - a) 0 else d.mem.byte d.era q) ∧
  { d.poke a bs with mem := d.mem, near := d.near } = d ∧
  { (d.poke a bs).near with pcs := d.near.pcs, ctl := d.near.ctl, rows := d.near.rows } = d.near ∧ (d.mem.wf = true → (d.poke a bs).mem.wf = true)) ∧
  (Memory.linesOf a bs.length = [a / 64] → d.busyLine (a / 64) = true →
    d.poke a bs = stopFill (a / 64) (d.joinWrite (a / 64) (a % 64) bs false) ∧ (d.poke a bs).mem = d.mem)

/-! ## Jigs (06) -/

/-- Queue `qi` of jig `j` is the one the pointer chooses, with record `r` at its head (R228). -/
def Sys2Proof.Heads (s : State) (j qi : Nat) (r : JigRec) : Prop := s.Works ∧ headRec (s.dev.queue j qi) = some r ∧ chosenQueue s.here j = some qi

/-- The device once a record of queue `qi` has been issued by `act`, its head moved on (R228). -/
def Sys2Proof.issued (s : State) (j qi : Nat) (d : Dev) : Dev := moveHead s.ctl.now j qi ((s.dev.queue j qi).head + 1) d

/-- R228, R231, R235, R526: a record at the head of the chosen queue is issued. NOP completes and signals. An engine record with an
aligned descriptor inside the scratchpad hands it to every bench of its mask; STAGER queues its descriptor at its stager; COLL
joins the collective operations; RELEASE frees its image's segments. Each stays open until its work completes. -/
def Obligations.JigRecordsIssue : Prop := ∀ (s : State) (r : JigRec),
  (∀ (j : Fin 5) (qi : Nat), Heads s j.val qi r → r.kind = 0 → exec (.nop j qi) s =
    .next (s.withDev (moveStream s.ctl (issued s j.val qi (signalRec s.ctl j.val qi (s.dev.queue j.val qi).head r (takeSerial j.val qi s.here)))))) ∧
  (∀ p ∈ [(Instr.jigMx, 1), (.jigVec, 2), (.jigRow, 3), (.jigDma, 4)], ∀ (b : Fin 4) (qi : Nat), Heads s b.val qi r → r.kind = p.2 →
    recAddr (s.dev.queue b.val qi) r % 64 = 0 → recAddr (s.dev.queue b.val qi) r + 64 ≤ 0x200000 → r.mask ≠ 0 →
    exec (p.1 b qi) s = .next (s.withDev (openRec b.val qi
      { serial := (s.dev.jig b.val).serial, recIdx := (s.dev.queue b.val qi).head, benches := BitVec.ofNat 32 r.mask, other := false }
      (issued s b.val qi (handTask b.val qi p.2 (s.dev.jig b.val).serial
        (Config.microBatch b.val qi (s.dev.queue b.val qi).head (s.dev.queue b.val qi).loopIdx).toNat (recAddr (s.dev.queue b.val qi) r) s.dev.life.step.toNat
        (namedBenches s.dev b.val r) (takeSerial b.val qi s.here)))))) ∧
  (∀ (j : Fin 5) (qi : Nat), Heads s j.val qi r → r.kind = 6 → nearCheck s.here (recAddr (s.dev.queue j.val qi) r) = none →
    exec (.stager j qi) s = .next (s.withDev (openRec j.val qi
      { serial := (s.dev.jig j.val).serial, recIdx := (s.dev.queue j.val qi).head, benches := 0, other := true }
      (issued s j.val qi ((takeSerial j.val qi s.here).modStager (stagerOf j.val r) (fun g => { g with queue := g.queue ++
        [{ addr := recAddr (s.dev.queue j.val qi) r, tag := some { jig := j.val, queue := qi, record := (s.dev.jig j.val).serial } }] })))))) ∧
  (∀ (j : Fin 5) (qi : Nat), Heads s j.val qi r → r.kind = 10 → nearCheck s.here (recAddr (s.dev.queue j.val qi) r) = none →
    s.here.peekPoison (recAddr (s.dev.queue j.val qi) r) 64 = false →
    s.here.peekPoison (recAddr (s.dev.queue j.val qi) r + 64) (8 * s.here.mapEntries (recAddr (s.dev.queue j.val qi) r)) = false →
    exec (.release j qi) s = .next (s.withDev (openRec j.val qi
      { serial := (s.dev.jig j.val).serial, recIdx := (s.dev.queue j.val qi).head, benches := 0, other := false }
      (issued s j.val qi (releaseImage (recAddr (s.dev.queue j.val qi) r) (takeSerial j.val qi s.here)))))) ∧
  (∀ qi : Nat, Heads s 4 qi r → r.kind = 11 → nearCheck s.here (recAddr (s.dev.queue 4 qi) r) = none → ∃ o : CollOp, exec (.coll qi) s = .next (s.withDev (openRec 4 qi
      { serial := (s.dev.jig 4).serial, recIdx := (s.dev.queue 4 qi).head, benches := 0, other := true }
      (issued s 4 qi ((takeSerial 4 qi s.here).modColl (fun m => { m with ops := m.ops ++ [o], seq := m.seq + 1, named := if m.named.contains (collDescOf o.words).group then m.named else m.named ++ [(collDescOf o.words).group] }))))) ∧
      o.seq = s.dev.coll.seq ∧ o.desc = recAddr (s.dev.queue 4 qi) r ∧ o.started = false)

/-- R118, R237, R241, R242, R248: HANDOVER writes its value to every named bench; GATE issues once its gate is open; PHASE holds its
queue at the boundary, where idle benches may clock-gate (R250); LOOP jumps back or falls through; END ends its queue for the step. -/
def Obligations.JigControlRecordsIssue : Prop := ∀ (s : State) (r : JigRec),
  (∀ (b : Fin 4) (qi : Nat), Heads s b.val qi r → r.kind = 5 → (∀ i ∈ namedBenches s.dev b.val r,
      ownerWriteOk (setBitsOf (bits r.addr 0 32) 16) (bits (bits r.addr 0 32) 16 3) (bitAt (bits r.addr 0 32) 19) (bits (bits r.addr 0 32) 20 3) (s.dev.bench i) = true) →
    exec (.handover b qi) s = .next (s.withDev (moveStream s.ctl (issued s b.val qi (signalRec s.ctl b.val qi (s.dev.queue b.val qi).head r
      ((namedBenches s.dev b.val r).foldl (fun x i => x.modBench i (writeOwnerSet (bits r.addr 0 32))) (takeSerial b.val qi s.here))))))) ∧
  (∀ (b : Fin 4) (qi : Nat), Heads s b.val qi r → r.kind = 7 → recAddr (s.dev.queue b.val qi) r < strmLen s.dev →
    (gateAt s.dev (gatePos s.dev (s.dev.queue b.val qi) r)).opened = true → (gateAt s.dev (gatePos s.dev (s.dev.queue b.val qi) r)).reach.isSome = true →
    exec (.gate b qi) s = .next (s.withDev (moveStream s.ctl (issued s b.val qi (signalRec s.ctl b.val qi (s.dev.queue b.val qi).head r
      ((takeSerial b.val qi s.here).modQueue b.val qi (fun x => { x with gates := x.gates ++
        [(gatePos s.dev (s.dev.queue b.val qi) r, (s.dev.jig b.val).serial)] }))))))) ∧
  (∀ (j : Fin 5) (qi : Nat), Heads s j.val qi r → r.kind = 8 → ∃ u, exec (.phase j qi) s = .next u ∧ u.ctl = s.ctl ∧
    (u.dev.queue j.val qi) = { s.dev.queue j.val qi with state := 4, phases := (s.dev.queue j.val qi).phases + 1 } ∧
    (u.dev.jig j.val).serial = (s.dev.jig j.val).serial + 1 ∧ (u.dev.jig j.val).ptr = qi + 1 ∧ (u.dev.jig j.val).ctr = (s.dev.jig j.val).ctr ∧
    (∀ k, k ≠ j.val → u.dev.jig k = s.dev.jig k) ∧ (∀ k, { u.dev.bench k with gated := (s.dev.bench k).gated } = s.dev.bench k) ∧
    { u.dev with jigs := s.dev.jigs, benches := s.dev.benches } = s.here) ∧
  (∀ (j : Fin 5) (qi : Nat), Heads s j.val qi r → r.kind = 9 →
    let v := (s.dev.queue j.val qi).loopIdx.getD r.loopSel 0 + 1
    exec (.loop j qi) s = .next (s.withDev (moveStream s.ctl (moveHead s.ctl.now j.val qi (if v ≤ r.jumps then bits r.addr 0 16 else (s.dev.queue j.val qi).head + 1)
      (signalRec s.ctl j.val qi (s.dev.queue j.val qi).head r
        ((takeSerial j.val qi s.here).modQueue j.val qi (fun x => { x with loopIdx := setAt x.loopIdx r.loopSel (if v ≤ r.jumps then v else 0) }))))))) ∧
  (∀ (j : Fin 5) (qi : Nat), Heads s j.val qi r → r.kind = 12 →
    exec (.endRec j qi) s = .next (s.withDev (moveStream s.ctl (signalRec s.ctl j.val qi (s.dev.queue j.val qi).head r
      ((takeSerial j.val qi s.here).modQueue j.val qi (fun x => { x with state := 5, gates := x.gates ++
        [((s.dev.life.step.toNat + 1) * strmLen s.dev, (s.dev.jig j.val).serial)] }))))))

/-- R28, R235, R240, R241, R253: an issued record whose tasks have all completed with OK signals and leaves the queue; a wait's limit is
recorded once, and on a tie the wait is reached; a boundary at which every queue waits and every bench is idle is passed; a queue
whose head waits on peers hoists. -/
def Obligations.JigEventsAct : Prop := ∀ s : State, s.Works →
  (∀ (j : Fin 5) (qi : Nat) (x : Issued), (s.dev.queue j.val qi).issued = [x] → x.benches = 0 → x.other = false → x.status = 0 → x.lost = false → x.aborted = false →
    exec (.jigRecordComplete j qi x.serial) s = .next (s.withDev (moveStream s.ctl (signalRec s.ctl j.val qi x.recIdx
      (jigRecOf ((s.dev.queue j.val qi).recs.getD x.recIdx [])) (s.here.modQueue j.val qi (fun q => { q with issued := q.issued.erase x })))))) ∧
  (∀ (j : Fin 5) (qi : Nat), headWaits (s.dev.queue j.val qi) = true →
    exec (.jigWaitTimeoutExpiry j qi false) s = .next (s.withDev (raise s.ctl (s.here.modQueue j.val qi (fun x => { x with timedOut := true }))
      (Fs.jigWaitTimeout j.val) (jigInfo qi (s.dev.queue j.val qi).head 8))) ∧
    exec (.jigWaitTimeoutExpiry j qi true) s = .next (s.withDev ((s.here.modQueue j.val qi (fun x => { x with reached := true, hoisting := false })).modJig j.val
      (fun g => { g with tieCnt := cntInc g.tieCnt })))) ∧
  (boundaryReady s.dev = true → s.dev.life.stopPending = none → exec .jigPhaseBoundaryPass s =
    .next (s.withDev (passQueues s.ctl (usedQueues s.dev) (s.here.modLife (fun l => { l with phaseK := l.phaseK + 1, state := if l.state = .forward ∧ (usedQueues s.dev).any (fun u => bitAt (wordAt (u.2.2.recs.getD u.2.2.head []) 1) 0) then .backward else l.state }))))) ∧
  (boundaryReady s.dev = true → s.dev.life.stopPending.isSome = true → exec .jigPhaseBoundaryPass s = .next (s.withDev (stopAtBoundary s.ctl.now s.here))) ∧
  (∀ (j : Fin 5) (qi : Nat) (r : JigRec), j.val < 4 → headRec (s.dev.queue j.val qi) = some r → r.waitPeer = true → r.waitEn = true →
    (s.dev.queue j.val qi).reached = false → (s.dev.jig j.val).hoistDepth ≠ 0 → exec (.jigHoistIssue j qi) s = .next (s.withDev (hoistScan s.ctl j.val qi (min 64 (s.dev.jig j.val).hoistDepth.toNat)
      ((s.dev.queue j.val qi).head + 1) (s.here.modQueue j.val qi (fun x => { x with hoisting := true })))))

/-- R233, R234: adding to a counter wraps modulo 2^32, changes no other counter and no other jig, and latches the waits it reaches: a queue whose
head waits is released when (C - T) modulo 2^32 is below 2^31, where T = WAIT_VAL + LOOP_IDX[LOOP_SEL] × WAIT_INC + s × WAIT_STEP_INC modulo 2^32 and s
is the step index minus the one at which the program was started; and a wait once reached stays reached, and whether its record may issue does not
depend on the counters any more. -/
def Obligations.SignalsAdd : Prop := ∀ (d : Dev) (j k add : Nat),
  let g := (d.signal j k add).jig j
  tabGet 0 g.ctr k = tabGet 0 (d.jig j).ctr k + BitVec.ofNat 32 add ∧ (∀ n, n ≠ k → tabGet 0 g.ctr n = tabGet 0 (d.jig j).ctr n) ∧
  (∀ n, n ≠ j → (d.signal j k add).jig n = d.jig n) ∧ { d.signal j k add with jigs := d.jigs } = d ∧
  (∀ q : Nat, (d.queue j q).reached = true → ((d.signal j k add).queue j q).reached = true) ∧
  (∀ (q : Queue) (ctr : Tab W32), q.reached = true → headWaits q = false ∧ queueReady (d.modJig j (fun x => { x with ctr := ctr })) j q = queueReady d j q) ∧
  (∀ (q : Nat) (r : List Nat), (d.queue j q).state = 1 → (d.queue j q).recs[(d.queue j q).head]? = some r → bitAt (wordAt r 0) 5 = true → d.life.startStep ≤ d.life.step.toNat →
    let T := bits (wordAt r 3) 32 32 + (d.queue j q).loopIdx.getD (bits (wordAt r 0) 48 2) 0 * bits (wordAt r 4) 0 32 + (d.life.step.toNat - d.life.startStep) * bits (wordAt r 4) 32 32
    let C := tabGet 0 g.ctr (bits (wordAt r 3) 0 12)
    (d.queue j q).reached = false → (((d.signal j k add).queue j q).reached = true ↔ (C - BitVec.ofNat 32 T).toNat < 2 ^ 31))

/-! ## Weight streaming (06) -/

/-- R246, R247, R251: a stager whose next wanted entry has its fill wait reached starts to fill the lowest free slot; a good block of a
far-tier image is written into the slot with its tag; a slot with all blocks in becomes FULL; the watchdog of a reached, closed gate
records STRM_WATCHDOG and a kerf record with KERF −STRM_WATCHDOG, once. -/
def Obligations.StreamFills : Prop := ∀ s : State, s.Works →
  (∀ (b : Fin 4) (pos j : Nat), running s.dev = true → nextFill s.dev b.val = some pos → fillReached s.dev b.val pos = true →
    tabFree (s.dev.stager b.val).slots ((s.dev.stager b.val).lookahead.toNat + 1) = some j → (strmAt s.dev b.val pos).nblocks ≠ 0 →
    (strmAt s.dev b.val pos).remote = false →
    exec (.streamFillStart b) s = .next (s.withDev (s.here.modStager b.val (fun g => { g with slots := tabPut g.slots j { state := 1, pos := pos } })))) ∧
  (∀ (b : Fin 4) (j : Nat) (x : Slot) (bs : List Byte) (dw n : Nat), running s.dev = true → tabFind (s.dev.stager b.val).slots j = some x → x.state = 1 →
    x.stale = false → x.refetched = false → x.done < (strmAt s.dev b.val x.pos).nblocks → (strmAt s.dev b.val x.pos).remote = false →
    spanHeld s.here (slotBlock (s.dev.stager b.val) j x.done) 4096 = false →
    let dest := slotBlock (s.dev.stager b.val) j x.done
    let d := ((countGet b.val n s.here).poke dest bs).setTag dest dw
    ∃ t, exec (.streamBlockArrival b j) s = .next t ∧ t.ctl = s.ctl ∧
      (imageBlock s.here (strmAt s.dev b.val x.pos).source ((strmAt s.dev b.val x.pos).firstBlock + x.done) = .good bs dw n → t.dev.mem = d.mem ∧
        (∀ k, k ≠ b.val → t.dev.stager k = d.stager k) ∧ (t.dev.stager b.val).farRdBytes = (d.stager b.val).farRdBytes ∧ t.dev.benches = s.dev.benches ∧ t.dev.fc = s.dev.fc)) ∧
  (∀ (b : Fin 4) (j : Nat) (x : Slot), tabFind (s.dev.stager b.val).slots j = some x → x.state = 1 → x.stale = false →
    (strmAt s.dev b.val x.pos).nblocks ≤ x.done →
    exec (.streamSlotFull b j) s = .next (s.withDev (noteFull s.ctl.now x.pos (s.here.modStager b.val (fun g => { g with slots := tabPut g.slots j { x with state := 2 } }))))) ∧
  (∀ pos r : Nat, (gateAt s.dev pos).reach = some r → (gateAt s.dev pos).opened = false → (gateAt s.dev pos).watchdog = false →
    exec (.streamWatchdogExpiry pos false) s = .next (s.withDev (raise s.ctl
      (writeKerf pos (r + watchdogLimit s.dev) r ((2 ^ 64 - watchdogLimit s.dev) % 2 ^ 32) (gateAt s.dev pos).reused true
        (modGate pos (fun x => { x with watchdog := true }) s.here)) Fs.strmWatchdog (pos % strmLen s.dev))))

/-! ## The far tier (05) -/

/-- R214: a write to STRM_SUBMIT with room in the queue and an aligned address queues one descriptor; one that finds the queue full, or
is misaligned, is dropped, and STRM_SUBMIT_FULL_CNT increments; one that the tables refuse is dropped and recorded (R66). -/
def Obligations.StagerQueueTakesSubmits : Prop := ∀ (s : State) (b : Fin 4) (p : Fin 16) (v : W64), s.Works →
  (s.CsrOpen p.val (0x3F0007001000 + b.val * 0x100000) 8 → exec (.strmSubmitWrite b p v) s = .next (s.withDev (s.here.modStager b.val (fun g =>
    if bits v.toNat 0 48 % 64 = 0 ∧ g.queue.length < 64 then { g with queue := g.queue ++ [{ addr := bits v.toNat 0 48 }] }
    else { g with submitFullCnt := cntInc g.submitFullCnt })))) ∧
  (s.CsrShut p.val (0x3F0007001000 + b.val * 0x100000) 8 →
    exec (.strmSubmitWrite b p v) s = .next (s.withDev (dropWrite (0x3F0007001000 + b.val * 0x100000) p.val s.ctl s.here))) ∧
  (arrives s.dev p.val = false → exec (.strmSubmitWrite b p v) s = .next (s.withDev s.here))

/-- R153, R165, R182, R209, R210, R211, R212: a GET or PUT at the head of a stager whose check fails keeps its status and moves nothing; one whose descriptor or map
cannot be read ends POISONED; one that passes runs, no block of its span being held for a row repair; a PUT reads its span and fills fresh segments; the oldest filling segment is sealed and its map entry written; a descriptor that
has run writes word 7 with DONE, leaves the queue, and signals only when OK. -/
def Obligations.StagerDescriptorsRun : Prop := ∀ (s : State) (b : Fin 4) (h : StgDesc) (x : StgFields), s.Works → stgHead s.here b.val = some (h, x) →
  (∀ p ∈ [(Instr.get, 0), (.put, 1)], ∀ st, h.ran = false → x.op = p.2 → stgCheck s.here x = some st → st ≠ 4 → spanSick s.here h.addr 64 = false → spanHeld s.here x.nearAddr (x.nblocks * 4096) = false →
    exec (p.1 b) s = .next (s.withDev (modHead s.here b.val (fun y => { y with ran := true, status := st })))) ∧
  (∀ i ∈ [Instr.get b, .put b], headSick s.here h x = true → exec i s = .next (s.withDev (endSick s.ctl b.val h x s.here))) ∧
  (h.ran = false → x.op = 0 → stgCheck s.here x = none → headSick s.here h x = false → spanHeld s.here x.nearAddr (x.nblocks * 4096) = false →
    let r := foldRange x.nblocks ({ dev := modHead s.here b.val (fun y => { y with ran := true }) } : GetRun) (getBlock s.ctl b.val x)
    exec (.get b) s = .next (s.withDev (modRunHead r.dev b.val (fun y => { y with status := r.status, heldBlocks := r.held })))) ∧
  (h.ran = false → x.op = 1 → stgCheck s.here x = none → headSick s.here h x = false → spanHeld s.here x.nearAddr (x.nblocks * 4096) = false → exec (.put b) s = .next (s.withDev (runPut s.ctl b.val x s.here))) ∧
  (∀ (f : Nat) (rest : List Nat), (s.dev.stager b.val).filling = f :: rest → ∃ t, exec (.segmentSeal b f) s = .next t ∧ t.ctl = s.ctl ∧ t.pending = s.pending ∧
    let d := (sealSegment s.ctl.now f s.here).modStager b.val (fun g => { g with filling := rest, lastPort := Dev.segPort f })
    t.dev.mem = (pokeAt s.ctl (9 + b.val) (x.mapAddr + 64 + 8 * (x.entry0 + h.entriesWritten))
      (natLE 8 (f + (d.seg f).gen.toNat % 2048 * 2 ^ 21 + (d.seg f).firstBlock * 2 ^ 32)) d).mem) ∧
  (h.ran = true → h.heldBlocks = 0 → (s.dev.stager b.val).filling = [] → x.op = 0 → h.tag = none → h.status ≠ 0 ∨ x.sigEn = false →
    exec (.stagerDescComplete b) s = .next (s.withDev (pokeAt s.ctl (9 + b.val) (h.addr + 56) (natLE 8 (h.status + h.entriesWritten * 2 ^ 32 + 2 ^ 63))
      (s.here.modStager b.val (fun g => { g with queue := g.queue.drop 1 }))))) ∧
  (h.ran = true → h.heldBlocks = 0 → (s.dev.stager b.val).filling = [] → x.op = 0 → h.tag = none → h.status = 0 → x.sigEn = true →
    exec (.stagerDescComplete b) s = .next (s.withDev ((pokeAt s.ctl (9 + b.val) (h.addr + 56) (natLE 8 (h.entriesWritten * 2 ^ 32 + 2 ^ 63))
      (s.here.modStager b.val (fun g => { g with queue := g.queue.drop 1 }))).signal x.sigTgt x.sigCtr 1)))

/-- R221, R223, R224, R225: a repair fetch that agrees with the local DOWEL fixes the block and releases its consumers, and a bad block that waits takes its place in
the repair table; a failed first attempt
starts the fetch from the next source; a second one poisons the block and records FAR_REPAIR_FAIL; what the fetch's own frames brought
decides; the rewritten segment is sealed and the old one becomes QUARANTINED. `resumeCopy` leaves the device as it is but for a FAR_COPY that
waits for this block (R478). -/
def Obligations.RepairsAct : Prop := ∀ (s : State) (i : Nat) (r : Repair), s.Works → s.dev.far.repairs[i]? = some r →
  (r.fixed = none → r.poisoned = false → r.fetch.ready = none →
    (∀ bs : List Byte, bs.length = 4096 → fetchOk r bs = true → exec (.farRepairFetchDone i (some bs)) s = .next (s.withDev (resumeCopy s.ctl r (admitRepairs s.ctl (repairGood i r bs s.here))))) ∧
    (r.attempts = 0 → exec (.farRepairFetchDone i none) s =
      .next (s.withDev (resumeCopy s.ctl r (startFetch s.ctl r (s.here.modFar (fun f => { f with repairs := modAt (fun x => { x with attempts := 1, firstFetch := [] }) f.repairs i })))))) ∧
    (r.attempts = 1 → r.held = [] →
      let d3 := raise s.ctl ((s.here.modStager r.finder (fun g => { g with repairFailCnt := cntInc g.repairFailCnt })).modFar (fun f =>
        { f with repairs := modAt (fun x => { x with attempts := 2, poisoned := true, held := [] }) f.repairs i })) Fs.farRepairFail (farInfo r.seg r.block)
      exec (.farRepairFetchDone i none) s = .next (s.withDev (resumeCopy s.ctl r (if d3.fc.entering then d3 else admitRepairs s.ctl d3))))) ∧
  (∀ block res, r.fetch.ready = some res → exec (.farRepairFetchDone i block) s = exec (.farRepairFetchDone i res) s) ∧
  (∀ id, (∀ q ∈ s.dev.far.repairs, q.seg = r.seg → q.decided = true) → foundBad s.here r.seg = [] → rewriteTarget s.here r.seg = some id →
    s.dev.far.repairWait = [] → (r.isPage = true ∨ (rangeOf (r.target + 64 + 8 * r.entry) = .near ∧ s.here.homed (r.target + 64 + 8 * r.entry) 8 = true)) →
    ∃ t, exec (.farSegmentRewriteDone i) s = .next t ∧ t.ctl = s.ctl ∧ (t.dev.seg r.seg).state = 3 ∧ (id ≠ r.seg → (t.dev.seg id).state = 2) ∧
      (∀ q ∈ t.dev.far.repairs, q ∈ s.dev.far.repairs ∧ q.seg ≠ r.seg) ∧ t.dev.fc = s.dev.fc ∧ t.dev.benches = s.dev.benches)

/-- R218, R219: a FAR page that is wanted takes the lowest free frame and is PROMOTING; its promotion places its blocks, makes it
NEAR_CLEAN and lets the waiting writes proceed; below the watermark the sweep's victim starts to leave; a demotion makes the page FAR on
a sealed segment; an epoch's end restarts the read counts. -/
def Obligations.PagesMove : Prop := ∀ s : State, s.Works →
  (∀ (n f : Nat) (p : Page), tabFind s.dev.far.pages n = some p → lowestFrame s.here = some f → wantsPromotion s.here n p = true →
    exec (.pagePromoteStart n) s = .next (s.withDev (s.here.modPage n { p with res := .promoting, frame := f }))) ∧
  (∀ (n : Nat) (p : Page), tabFind s.dev.far.pages n = some p → p.res = .promoting → p.waiting = [] →
    (holdOnPages s.ctl s.here (0x200000000000 + n * 0x200000) 0x200000).1 = false →
    exec (.pagePromoteDone n) s = .next (s.withDev (foldRange 8 (((foldRange 512 (noteFarBad s.ctl (0x200000000000 + n * 0x200000) 0x200000 s.here) (placeBlock n p.seg p.frame)).modPage n
      { p with res := .nearClean, waiting := [] }).modStager (pageStager n) (fun g => { g with promoteCnt := cntInc g.promoteCnt })) (fun h x => Dev.represent s.ctl h x)))) ∧
  (∀ (n : Nat) (p : Page) (rest : Tab Page), leavingPage s.here = none → freeFrames s.here < s.dev.far.lowWm.toNat → sweepOrder s.here = (n, p) :: rest →
    sweepable p = true → p.referenced = false → exec .pageDemoteStart s = .next (s.withDev (demote n (s.here.modFar (fun f => { f with sweeping := true }))))) ∧
  (∀ (n : Nat) (p : Page), tabFind s.dev.far.pages n = some p → p.res = .demoting → p.frame * 0x200000 < 0x8000000000 → spanHeld s.here (p.frame * 0x200000) 0x200000 = false →
    (readSpan s.ctl s.here (p.frame * 0x200000) 0x200000).2.1 = false →
    ∃ t, exec (.pageDemoteDone n) s = .next t ∧ t.ctl = s.ctl ∧ t.dev.benches = s.dev.benches ∧ (t.dev.stager (pageStager n)).lastPort = Dev.segPort p.seg ∧
      (t.dev.seg p.seg).state = 2 ∧ ∃ q, tabFind t.dev.far.pages n = some q ∧ q.res = .far ∧ q.seg = p.seg ∧ q.reads = 0 ∧ q.frame = p.frame ∧ q.pinned = p.pinned) ∧
  (exec .strmEpochEnd s = .next (s.withDev (s.here.modFar (fun f => { f with pages := f.pages.map (fun p => (p.1, { p.2 with reads := 0 })) }))))

/-- R190, R226: a link retrain of a root port that is up is recorded and changes nothing else; a link-down with nothing open on the port
unmaps its window and is recorded; a completion that times out answers poison, to the transaction that waits for the line or to the engine that
reads it next, and is recorded, and on a tie the completion wins. -/
def Obligations.RootPortEventsAct : Prop := ∀ (s : State) (n : Fin 4), s.Live → s.ctl.clk.onOsc = false →
  ((s.dev.cxl n.val).role = 0 → (s.dev.cxl n.val).up = true → exec (.cxlLinkRetrain n) s = .next (s.withDev (raise s.ctl s.here (Fs.farLinkRetrain n.val) 0))) ∧
  ((s.dev.cxl n.val).role = 0 → (s.dev.cxl n.val).up = true → (∀ b < 4, touchesPort s.here n.val b = false) → s.dev.far.repairs = [] → s.dev.far.repairWait = [] →
    (∀ q ∈ s.dev.far.pages, q.2.res ≠ .demoting) →
    exec (.cxlLinkDown n) s = .next (s.withDev (raise s.ctl (s.here.modCxl n.val (fun p => { p with up := false })) (Fs.farLinkDown n.val) 0))) ∧
  (∀ a, (s.dev.home (homeOfLine (a.toNat / 64))).txns.find? (fun t => t.req.line == a.toNat / 64 && t.st == .tMem) = none → (s.dev.near.badReads.contains (a.toNat / 64)) = false →
    exec (.farTimeout n a false) s = .next (s.withDev (raise s.ctl (s.here.modNear (fun m => { m with badReads := m.badReads ++ [a.toNat / 64] })) (Fs.farTimeout n.val) a.toNat))) ∧
  (∀ a t, (s.dev.home (homeOfLine (a.toNat / 64))).txns.find? (fun t => t.req.line == a.toNat / 64 && t.st == .tMem) = some t → exec (.farTimeout n a false) s =
    .next (s.withDev (raise s.ctl (deliver s.ctl (homeOfLine (a.toNat / 64)) (a.toNat / 64) t { bytes := List.replicate 64 0, poison := true } s.here) (Fs.farTimeout n.val) a.toNat))) ∧
  (∀ a, exec (.farTimeout n a true) s = .next (s.withDev (s.here.modFc (fun f => { f with tieCnt := cntInc f.tieCnt }))))

/-! ## Near memory (04) -/

/-- R150, R152, R153, R154, R162, R163: the corrected word is written back; a write queued for 2 µs starts a write period of at most
WR_BATCH × 4 KiB; a due refresh is postponed behind demand accesses at most 8 times, else issued; the scrub passes a sound line, books a
corrected error, and marks an uncorrectable line poisoned. -/
def Obligations.NearControllersRun : Prop := ∀ s : State, s.Works →
  (∀ (h : Fin 8) (l : Nat), exec (.nearCeWriteback h l) s = .next (s.withDev (s.here.modNearCtl h.val (fun n => { n with ceWb := n.ceWb.filter (fun x => x != l) })))) ∧
  (∀ n : Fin 512, (s.dev.pc n.val).writeQ ≠ [] → ∃ t, exec (.writeQueueAgeExpiry n) s = .next t ∧ t.ctl = s.ctl ∧
    (t.dev.pc n.val).writeQ = (s.dev.pc n.val).writeQ.drop ((s.dev.nearCtl (n.val / 64)).wrBatch.toNat * 64) ∧
    (t.dev.pc n.val).writing = !readsQueued s.here n.val ∧ (∀ k, k ≠ n.val → t.dev.pc k = s.dev.pc k) ∧ { t.dev with near := s.dev.near } = s.here) ∧
  (∀ (n : Fin 512) (busy : Bool), exec (.refreshDue n busy) s = .next (s.withDev (s.here.modPc n.val (fun p =>
    { p with postponed := if busy = true ∧ p.postponed < 8 then p.postponed + 1 else 0 })))) ∧
  (∀ l : Nat, inStack l = true → (s.dev.nearCtl (s.dev.stackOf l)).scrubEn = true →
    (s.dev.mem.poisoned s.dev.era l = false → exec (.scrubRead l 0) s = .next (s.withDev (readServed l (queueRead l s.here))) ∧
      exec (.scrubRead l 1) s = .next (s.withDev (noteCe s.ctl l (readServed l (queueRead l s.here))))) ∧
    { readServed l (queueRead l s.here) with near := s.dev.near } = s.here ∧
    (∃ d, exec (.scrubRead l 2) s = .next (s.withDev (raise s.ctl d (Fs.nearScrubUe (s.dev.stackOf l)) (l * 64))) ∧
      d.mem = s.dev.mem.poisonLine l ∧ { d with near := s.dev.near, mem := s.dev.mem } = s.here)) ∧
  (∀ l : Nat, (s.dev.pc (s.dev.pcOfLine l)).burst.length < 1023 → ∃ d, noteCe s.ctl l s.here = raise s.ctl d (Fs.nearCe (s.dev.stackOf l)) (l * 64) ∧ d.mem = s.dev.mem ∧
    (d.nearCtl (s.dev.stackOf l)).ceCnt = cntInc (s.dev.nearCtl (s.dev.stackOf l)).ceCnt ∧ l ∈ (d.nearCtl (s.dev.stackOf l)).ceWb)

/-- R164 to R167, R453: a stack's oldest candidate row is held for repair while a spare row and room in the log are left, and else
exhausts the spares, which degrades its pseudo-channel; a repair uses one spare row, starts the row's history anew and is logged,
and the accesses that waited for the row go on. -/
def Obligations.RowRepairsRun : Prop := ∀ (s : State) (h : Fin 8) (k : Nat), s.Works →
  (∀ rest, (s.dev.nearCtl h.val).candidates = k :: rest → (s.dev.nearCtl h.val).ppr = none → tabGet 0 s.dev.near.sparesUsed (keyBank k) < s.dev.near.sparesAtTraining →
    s.dev.flash.log.length < 28544 → ∃ t, exec (.softPprStart h) s = .next t ∧ t.ctl = s.ctl ∧ (t.dev.nearCtl h.val).candidates = rest ∧
      (t.dev.nearCtl h.val).ppr = some k ∧ { t.dev with near := s.dev.near } = s.here) ∧
  (∀ rest, (s.dev.nearCtl h.val).candidates = k :: rest → (s.dev.nearCtl h.val).ppr = none → s.dev.near.sparesAtTraining ≤ tabGet 0 s.dev.near.sparesUsed (keyBank k) →
    (s.dev.pc (keyPc k)).st = .active → ∃ d, exec (.softPprStart h) s = .next (s.withDev (raise s.ctl d (Fs.nearRepairExhausted h.val) (keyPc k))) ∧
      (d.pc (keyPc k)).st = .degraded ∧ (d.nearCtl h.val).candidates = rest ∧ { d with near := s.dev.near } = s.here) ∧
  ((s.dev.nearCtl h.val).ppr = some k → s.dev.flash.log.length < 28672 → ∃ d, exec (.softPprDone h) s = .next (s.withDev (foldRange 8 (raise s.ctl d (Fs.nearRepair h.val) (rowFirst s.here k * 64)) (letIn s.ctl))) ∧
    tabGet 0 d.near.sparesUsed (keyBank k) = tabGet 0 s.dev.near.sparesUsed (keyBank k) + 1 ∧ tabFind d.near.rows k = none ∧ (d.nearCtl h.val).ppr = none ∧
    d.flash.log.length = s.dev.flash.log.length + 1 ∧ { d with near := s.dev.near, flash := s.dev.flash } = s.here)

/-- R168 to R176: what each end of a pseudo-channel's staging, retraining, restoring and retirement changes. -/
def Obligations.PseudoChannelsMove : Prop := ∀ (s : State) (n : Fin 512), s.Works →
  ((s.dev.pc n.val).st = .stagingRt → exec (.pcStagingDone n) s = .next (s.withDev (s.here.modPc n.val (fun p => { p with st := .retraining, fromGddr := true, pos := 262144 })))) ∧
  ((s.dev.pc n.val).st = .stagingRet → exec (.pcStagingDone n) s = .next (s.withDev (s.here.modPc n.val (fun p => { p with st := .staged, fromGddr := true, pos := 262144 })))) ∧
  ((s.dev.pc n.val).st = .retraining → exec (.pcRetrainDone n true) s = .next (s.withDev (s.here.modPc n.val (fun p => { p with st := .restoring, pos := 0 }))) ∧
    exec (.pcRetrainDone n false) s = .next (s.withDev (raise s.ctl (s.here.modPc n.val (fun p => { p with st := .degraded, retrainWanted := false })) (Fs.nearRetrainFail (n.val / 64)) n.val))) ∧
  ((s.dev.pc n.val).st = .restoring → exec (.pcRestoreDone n) s = .next (s.withDev (nextRetrain (raise s.ctl
    (s.here.modPc n.val (fun p => { p with st := .active, fromGddr := false, pos := 0, burst := [] })) (Fs.nearRetrain (n.val / 64)) n.val)))) ∧
  ((s.dev.pc n.val).st = .degraded → otherStaged s.here n.val = false →
    (mayRetire s.here n.val = true → ∃ t, exec (.pcRetirementStart n) s = .next t ∧ t.dev.near.retiring = some (n.val, s.dev.near.retired.length + 1) ∧
      (t.dev.pc n.val).st = (if (s.dev.pc n.val).fromGddr then .staged else .stagingRet) ∧ (t.dev.pc n.val).k = s.dev.near.retired.length + 1 ∧
      (∀ k, k ≠ n.val → t.dev.pc k = s.dev.pc k) ∧ { t.dev with near := s.dev.near, mem := s.dev.mem, era := s.dev.era } = s.here ∧
      ((s.dev.pc n.val).fromGddr = true → t.dev.mem = s.dev.mem ∧ t.dev.era = s.dev.era) ∧
      (∀ a, a < 0x80100000000 ∨ 0x80200000000 ≤ a → tabFind t.dev.mem.cells a = tabFind s.dev.mem.cells a)) ∧
    (mayRetire s.here n.val = false → exec (.pcRetirementStart n) s = .next (s.withDev (raise s.ctl s.here (Fs.nearRetireLimit (n.val / 64)) n.val)))) ∧
  (∀ k, s.dev.near.retiring = some (n.val, k) → (s.dev.pc n.val).st = .staged → sacrificedEmpty s.here k = true →
    exec .pcSacrificedRangeEmpty s = .next (s.withDev (s.here.modPc n.val (fun p => { p with st := .retiring })))) ∧
  ((s.dev.pc n.val).st = .retiring → ∃ d, exec (.pcRetirementCopyDone n) s = .next (s.withDev (nextRetrain (raise s.ctl (flashLog s.ctl 1 n.val (s.dev.pc n.val).k 0 d) (Fs.nearRetired (n.val / 64)) n.val))) ∧
    (d.pc n.val).st = .retired ∧ (d.pc n.val).fromGddr = false ∧ d.near.retired = s.dev.near.retired ++ [n.val] ∧ d.near.retiring = none ∧
    d.near.redirect = retireEntries s.dev.near.retired n.val (s.dev.pc n.val).k s.dev.near.redirect ∧ { d with near := s.dev.near, mem := s.dev.mem } = s.here)

/-- R181: BC_EN written 0 starts the invalidation of a half that was enabled, whose end drops its lines; BC_EN written 1 to a half
that is off starts it empty, and to one that is on changes nothing. -/
def Obligations.BayCacheSwitches : Prop := ∀ (s : State) (h : Fin 8), s.Live → s.ctl.clk.onOsc = false →
  (exec (.bayCacheDisable h) s = .next (s.withDev (s.here.modNearCtl h.val (fun n => { n with bcEn := false, bcInvalidating := n.bcInvalidating || n.bcEn })))) ∧
  ((s.dev.nearCtl h.val).bcInvalidating = true → ∃ t, exec (.bayCacheInvalidateDone h) s = .next t ∧ t.ctl = s.ctl ∧
    t.dev.nearCtl h.val = { s.dev.nearCtl h.val with bcLines := [], bcInvalidating := false } ∧ (∀ k, k ≠ h.val → t.dev.nearCtl k = s.dev.nearCtl k) ∧
    { t.dev with near := s.dev.near } = s.here) ∧
  (∃ t, exec (.bayCacheEnable h) s = .next t ∧ t.ctl = s.ctl ∧ (t.dev.nearCtl h.val).bcEn = true ∧
    ((s.dev.nearCtl h.val).bcEn = false → (t.dev.nearCtl h.val).bcLines = []) ∧ ((s.dev.nearCtl h.val).bcEn = true → t.dev.nearCtl h.val = s.dev.nearCtl h.val) ∧
    { t.dev with near := s.dev.near } = s.here)

/-! ## The optimiser planes (07) -/

/-- R264, R276, R283, R284, R286, R288: a plane takes its next update due of a panel it is not stopped for; an owner's computes from its slot, one already committed goes
on from there; with every chunk written the commit word is one aligned 8-byte write of the new set, time step and APPLIED; then the
image is published, a twin having told its owner, the other set and the slot are released, and with the twin's acknowledgement the update ends; without it the update
waits beside the plane, which is free for the next panel; a twin that does not acknowledge in time is lost, and on a tie has acknowledged. What is committed completes in the safe
state too, until the stacks are in self-refresh. R273: a CLOSED slot of a panel that seals is put into its image. An update that ends in
a plane that a stop holds leaves the plane IDLE, counted with its parameters; its signal is owed and nothing in memory changes. -/
def Obligations.PlaneUpdatesAdvance : Prop := ∀ (s : State) (h : Fin 8), s.Live →
  (s.dev.fc.entering = false →
    (∀ (i step : Nat), (s.dev.plane h.val).halted = false → (s.dev.plane h.val).state = .idle ∨ (s.dev.plane h.val).state = .stopped → nextDue (s.dev.plane h.val) = some (i, step) →
      (s.dev.plane h.val).parked.any (fun u => u.idx == i) = false →
      ((panelAt s.here i).committed step = true → exec (.planeUpdateStart h) s = .next (s.withDev (s.here.modPlane h.val (fun y => { y with
        state := .committed, cur := some { idx := i, step := step, mirror := (panelAt s.here i).role != 0, computed := true }, due := (s.dev.plane h.val).due.erase (i, step) })))) ∧
      ((panelAt s.here i).committed step = false → (panelAt s.here i).role = 0 → slotReady s.here (panelAt s.here i) step = true →
        exec (.planeUpdateStart h) s = .next (s.withDev (computeOwner s.ctl h.val (panelAt s.here i) step s.here)))) ∧
    (∀ u : Update, (s.dev.plane h.val).cur = some u → (s.dev.plane h.val).state = .computing → u.computed = true → u.mirror = true ∨ twinSent s.here h.val (panelAt s.here u.idx) = true →
      exec (.planeCommit h) s = .next (s.withDev (updatesDone s.ctl ((s.here.poke64 (panelAddr s.here u.idx)
        ((1 - (panelAt s.here u.idx).sel) + 2 + ((panelAt s.here u.idx).t + 1) % 2 ^ 32 * 2 ^ 8 + u.step % 2 ^ 24 * 2 ^ 40)).modPlane h.val (fun y => { y with state := .committed }))))) ∧
    (∀ (i : Nat) (j : Fin 5), (tabFind s.dev.opt.panels i).isSome = true → (panelAt s.here i).role = 0 → (panelAt s.here i).sealOn = true →
      j.val < (panelAt s.here i).slots → (slotAt s.here (panelAt s.here i) j.val).state = 2 →
      exec (.sealPutDone i j) s = .next (s.withDev (sealSlot s.ctl (panelAt s.here i) j.val s.here)))) ∧
  (s.dev.fc.entering = false ∨ s.dev.near.selfRefresh = false → ∀ u : Update, (s.dev.plane h.val).cur = some u →
    let p := panelAt s.here u.idx
    ((s.dev.plane h.val).state = .committed → u.mirror = false →
      exec (.planeCommitAck h) s = .next (s.withDev ((publish s.ctl p s.here).modPlane h.val (fun y => { y with state := .publishing })))) ∧
    ((s.dev.plane h.val).state = .committed → u.mirror = true → exec (.planeCommitAck h) s =
      .next (s.withDev ((publish s.ctl p (endTransfer s.ctl h.val (sendTwinDone s.ctl h.val p u.step s.here))).modPlane h.val (fun y => { y with state := .publishing })))) ∧
    ((s.dev.plane h.val).state = .publishing → p.far = false → p.role = 0 → (slotAt s.here p (p.slotOf u.step)).step = u.step →
      exec (.planePublishAck h) s = .next (s.withDev ((freeSlot p (p.slotOf u.step) s.here).modPlane h.val (fun y => { y with state := .releasing })))) ∧
    ((s.dev.plane h.val).state = .releasing → u.mirror = true ∨ u.twinAck = true ∨ p.twinHdr = 0 ∨ p.untwinned = true →
      exec (.planeReleaseAck h) s = .next (s.withDev (finishUpdate s.ctl h.val u s.here))) ∧
    ((s.dev.plane h.val).state = .releasing → u.mirror = false → u.twinAck = false → u.twinFailed = false → p.twinHdr ≠ 0 → p.untwinned = false →
      exec (.planeReleaseAck h) s = .next (s.withDev (s.here.modPlane h.val (fun y => { y with state := .idle, cur := none, parked := y.parked ++ [u] })))) ∧
    ((s.dev.plane h.val).state = .releasing → u.mirror = false → u.twinAck = false → p.twinHdr ≠ 0 → p.untwinned = false →
      exec (.planeTwinTimeoutExpiry h false) s = .next (s.withDev (finishUpdate s.ctl h.val u (loseTwin s.ctl h.val u s.here))) ∧
      (∃ t, exec (.planeTwinTimeoutExpiry h true) s = .next t ∧ (t.dev.plane h.val).tieCnt = cntInc (s.dev.plane h.val).tieCnt ∧
        (t.dev.plane h.val).cur = some { u with twinAck := true } ∧ (t.dev.plane h.val).state = .releasing ∧ { t.dev with planes := s.dev.planes } = s.here))) ∧
  (∀ (c : Ctl) (n : Nat) (u : Update) (d : Dev), (d.plane n).halted = true → d.life.starting = false →
    ((finishUpdate c n u d).plane n).updateCnt = cntInc (d.plane n).updateCnt ∧ ((finishUpdate c n u d).plane n).paramCnt = cntAdd (d.plane n).paramCnt (panelAt d u.idx).nparam ∧
    ((finishUpdate c n u d).plane n).state = .idle ∧ ((finishUpdate c n u d).plane n).cur = none ∧ ((finishUpdate c n u d).plane n).owed = (d.plane n).owed ++ [u.idx] ∧
    (finishUpdate c n u d).mem = d.mem)

/-! ## The fabric: frames received (08) -/

/-- The rows of sequenced frames with their OPC (R304, R348). -/
def Sys2Proof.SeqRow (p : (Fin 64 → Frame → Instr) × Nat) : Prop := p ∈
  ([(.write, 0x01), (.readReq, 0x02), (.readResp, 0x03), (.atomicAdd, 0x04), (.fetchAdd, 0x05), (.cmpSwap, 0x06), (.atomicResp, 0x07), (.signal, 0x08),
   (.panelAdd, 0x09), (.mirror, 0x0A), (.mirrorCredit, 0x0B), (.twinDone, 0x0C), (.status, 0x11), (.collData, 0x20), (.clampPart, 0x21),
   (.clampResult, 0x22), (.clampAck, 0x23), (.clampQuery, 0x24), (.clampNone, 0x25), (.barrierUp, 0x26), (.barrierDown, 0x27), (.dovePull, 0x28)] : List ((Fin 64 → Frame → Instr) × Nat))

/-- A frame with this OPC finds room in its port's receive buffer (R295) and passes checks 1 to 4 of R306, on a part that has joined. -/
def Sys2Proof.Arrives (s : State) (port opc : Nat) (f : Frame) : Prop :=
  s.Works ∧ (bufferFrame port f.prio f.queued s.here).isSome = true ∧ s.dev.fab.joined = true ∧ (f.srcNode = s.dev.fab.node.toNat ∨ (s.dev.eth port).up = true) ∧ f.sound = true ∧ f.ver = 1 ∧ f.resv = 0 ∧
  f.len = f.payload.length ∧ f.len ≤ 4096 ∧ f.icrc = frameIcrc { f with opc := opc } ∧ nodeLive s.dev f.srcNode = true

/-- The device once the frame lies in the receive buffer of its port (R295). -/
def Sys2Proof.buffered (s : State) (port : Nat) (f : Frame) : Dev := (bufferFrame port f.prio f.queued s.here).getD s.here

/-- The device once the sender has been seen (R334). -/
def Sys2Proof.seen (s : State) (port : Nat) (f : Frame) : Dev :=
  if (s.dev.node f.srcNode).live then (buffered s port f).modNode f.srcNode (fun x => { x with lastSeen := s.ctl.now }) else buffered s port f

/-- The device once a sequenced frame is in the books of its context (R311). -/
def Sys2Proof.booked (s : State) (port : Nat) (f : Frame) : Dev :=
  ((seen s port f).modFlow f.dstFlow (fun x => { x with rxCnt := x.rxCnt + 1, ceCnt := x.ceCnt + b2n f.ce })).modAux (fun x => { x with ceCnt := cntIf f.ce x.ceCnt })

/-- R306, R310, R311, R315: a sequenced frame that passes the checks on receipt and is the next in order is performed by its OPC: its PSN
is marked as received, FAB_RX_FRAME_CNT counts it, the rotating pointer of its home passes its flow, and it is to be acknowledged, at once if it
carries CE. -/
def Obligations.FramesArePerformed : Prop := ∀ (s : State) (p : (Fin 64 → Frame → Instr) × Nat) (port : Fin 64) (f : Frame) (e : Dev), SeqRow p →
  Arrives s port.val p.2 f → contextOk s.dev f = true → f.psn = (s.dev.flow f.dstFlow).rxCum → f.psn.toNat ∉ (s.dev.flow f.dstFlow).received →
  (∀ x ∈ (s.dev.flow f.dstFlow).fenced, x.psn ≠ f.psn) → (e.flow f.dstFlow).fenced = [] →
  let g := { f with opc := p.2 }
  let taken := fun (x : Dev) => noteAck s.ctl f.dstFlow g (f.ce ||
      decide ((((x.modFlow f.dstFlow (markReceived f.psn)).flow f.dstFlow).rxCum - f.psn).toNat = 0) ||
      decide (2 ^ 31 ≤ (((x.modFlow f.dstFlow (markReceived f.psn)).flow f.dstFlow).rxCum - f.psn).toNat))
    ((x.modFlow f.dstFlow (markReceived f.psn)).modAux (fun y => { y with rxFrameCnt := cntInc y.rxFrameCnt, homePtr := ptrAfter f.dstFlow g y.homePtr }))
  performFrame s.ctl f.dstFlow g (booked s port.val f) = (.done, e) → exec (p.1 port f) s = .next (s.withDev (taken e))

/-- R310, R313, R315: of sequenced frames out of order: a duplicate is counted, acknowledged and changes no memory; one beyond the window is
dropped and counted; one that carries FENCE waits for the lower ones, and the gap below it is acknowledged at once. -/
def Obligations.FramesOutOfOrder : Prop := ∀ (s : State) (p : (Fin 64 → Frame → Instr) × Nat) (port : Fin 64) (f : Frame), SeqRow p →
  Arrives s port.val p.2 f → contextOk s.dev f = true →
  let fl := s.dev.flow f.dstFlow
  let delta := (f.psn - fl.rxCum).toNat
  let g := { f with opc := p.2 }
  (2 ^ 31 ≤ delta ∨ f.psn.toNat ∈ fl.received → ∃ t, exec (p.1 port f) s = .next t ∧ t.ctl = s.ctl ∧ t.dev.mem = s.dev.mem ∧
    t.dev.aux.dupCnt = cntInc s.dev.aux.dupCnt ∧ (t.dev.flow f.dstFlow).rxCum = fl.rxCum ∧ t.dev.jigs = s.dev.jigs ∧ t.dev.planes = s.dev.planes) ∧
  (1024 ≤ delta → delta < 2 ^ 31 → f.psn.toNat ∉ fl.received →
    exec (p.1 port f) s = .next (s.withDev ((booked s port.val f).modAux (fun x => { x with windowDropCnt := cntInc x.windowDropCnt })))) ∧
  (0 < delta → delta < 1024 → f.psn.toNat ∉ fl.received → (∀ x ∈ fl.fenced, x.psn ≠ f.psn) → fenced g = true →
    exec (p.1 port f) s = .next (s.withDev (sendAck s.ctl f.dstFlow ((booked s port.val f).modFlow f.dstFlow (fun x => { x with fenced := x.fenced ++ [g] })))))

/-- R159, R238, R323 to R327, R330, R452: what the memory frames do at their target. WRITE writes its payload, with its tag when TAG is set and
matches, and is refused with 4 when it does not, which is recorded; one that carries POISON leaves its lines poisoned; READ_REQ answers; FETCH_ADD adds modulo 2^64, CMP_SWAP exchanges, and both answer the old
value; ATOMIC_ADD adds element by element; SIGNAL adds to its counter in its own epoch, is held when early and dropped when stale; a
misaligned CMP_SWAP is refused with 5, an ATOMIC_ADD outside the ranges with 1, and an opcode that is none with 5. -/
def Obligations.MemoryFramesAct : Prop := ∀ (c : Ctl) (fl : Nat) (f : Frame) (d : Dev), attrOk d f = true →
  let a := f.addr.toNat
  (f.opc = 0x01 → f.payload ≠ [] → f.poison = false → spanCheck c d (fun r => r.fabWr) 2 a f.payload.length = none →
    (f.tag = false → rangeOf a = .near → d.spanMapped .fabric a f.payload.length = true → performFrame c fl f d = (.done, d.poke a f.payload)) ∧
    (f.tag = true → crc32c f.payload = f.aux.toNat → d.spanMapped .fabric a f.payload.length = true → performFrame c fl f d = (.done, (d.poke a f.payload).setTag a f.aux.toNat)) ∧
    (f.tag = true → crc32c f.payload ≠ f.aux.toNat → performFrame c fl f d = (.bad 4, dowelFault c 3 0 a d))) ∧
  (f.opc = 0x01 → f.payload ≠ [] → f.poison = true → spanCheck c d (fun r => r.fabWr) 2 a f.payload.length = none → f.tag = false → rangeOf a = .near →
    d.spanMapped .fabric a f.payload.length = true → performFrame c fl f d = (.done, poisonSpan a f.payload.length (d.poke a f.payload))) ∧
  (f.opc = 0x02 → f.attr ≠ 0 → spanCheck c d (fun r => r.fabRd) 1 a f.attr.toNat = none →
    performFrame c fl f d = (.done, answerRead c fl f.msgId a f.attr.toNat f.tag d)) ∧
  (f.opc = 0x05 → spanCheck c d (fun r => r.fabAtom) 3 a 8 = none → a % 8 = 0 → rangeOf a = .near → (readSpanBy true c d a 8).2.1 = false → f.poison = false →
    (readSpanBy true c d a 8).2.2.spanMapped .fabric a 8 = true → performFrame c fl f d = (.done, respond c fl f.msgId
      [{ opc := 0x07, addr := f.addr, attr := f.attr, aux := f.aux, payload := (readSpanBy true c d a 8).1, poison := false }]
      ((readSpanBy true c d a 8).2.2.poke a (natLE 8 (leNat (readSpanBy true c d a 8).1 + leNat (f.payload.take 8)))))) ∧
  (f.opc = 0x06 → spanCheck c d (fun r => r.fabAtom) 3 a 8 = none → a % 8 = 0 → rangeOf a = .near → (readSpanBy true c d a 8).2.1 = false → f.poison = false →
    let old := (readSpanBy true c d a 8).1
    let left := if old = f.payload.take 8 then (f.payload.drop 8).take 8 else old
    (readSpanBy true c d a 8).2.2.spanMapped .fabric a left.length = true → performFrame c fl f d = (.done, respond c fl f.msgId
      [{ opc := 0x07, addr := f.addr, attr := f.attr, aux := f.aux, payload := old, poison := false }] ((readSpanBy true c d a 8).2.2.poke a left))) ∧
  (f.opc = 0x04 → let n := atomLen (.add f.attr.toNat) f.payload
    n ≠ 0 → spanCheck c d (fun r => r.fabAtom) 3 a n = none → a % atomDst f.attr.toNat = 0 → rangeOf a = .near → (readSpanBy true c d a n).2.1 = false → f.poison = false →
    (readSpanBy true c d a n).2.2.spanMapped .fabric a (addElems f.attr.toNat (readSpanBy true c d a n).1 f.payload).length = true →
    performFrame c fl f d = (.done, (readSpanBy true c d a n).2.2.poke a (addElems f.attr.toNat (readSpanBy true c d a n).1 f.payload))) ∧
  (f.opc = 0x06 → spanCheck c d (fun r => r.fabAtom) 3 a 8 = none → a % 8 ≠ 0 → performFrame c fl f d = (.bad 5, d)) ∧
  (f.opc = 0x04 → f.payload ≠ [] → spanCheck c d (fun r => r.fabAtom) 3 a (atomLen (.add f.attr.toNat) f.payload) = some 1 → performFrame c fl f d = (.bad 1, d)) ∧
  (f.opc = 0x08 → a < 0x5000 → a / 4096 = 4 ∨ a % 4096 < 1024 →
    (f.epoch = d.life.epoch → performFrame c fl f d = (.done, d.signal (a / 4096) (a % 4096) f.aux.toNat)) ∧
    (32768 ≤ (f.epoch - d.life.epoch).toNat → performFrame c fl f d = (.done, d.modJig (a / 4096) (fun g => { g with staleSigCnt := cntInc g.staleSigCnt }))) ∧
    (0 < (f.epoch - d.life.epoch).toNat → (f.epoch - d.life.epoch).toNat < 32768 → (d.jig (a / 4096)).early.length < 64 →
      performFrame c fl f d = (.done, d.modJig (a / 4096) (fun g =>
        { g with early := g.early ++ [{ ctr := a % 4096, add := f.aux.toNat, epoch := f.epoch }], earlySigCnt := cntInc g.earlySigCnt })))) ∧
  (f.opc ∉ [0x01, 0x02, 0x03, 0x04, 0x05, 0x06, 0x07, 0x08, 0x09, 0x0A, 0x0B, 0x0C, 0x11, 0x20, 0x21, 0x22, 0x23, 0x24, 0x25, 0x26, 0x27, 0x28] →
    performFrame c fl f d = (.bad 5, d))

/-- R268 to R271, R283, R314, R317, R323, R328, R329, R332, R338, R344, R348, R352, R356: what the other sequenced frames do. A response brings its bytes to whoever asked and the message owes so
many fewer; STATUS ends the message it answers, with what its issuer does of a failure; a contribution joins the ledger slot of its step, or is late, or waits; an ordered one is
added, stored or refused as its index is the cursor's, above it or below; a half-chunk of a mirror is written to the inbox, or waits for its turn; credits
come back and chunks go out; TWIN_DONE acknowledges the update; each is DENIED for no panel or plane of the part; the frames of collectives,
of the clamp and of a dovetail reach the engine they name. -/
def Obligations.EngineFramesAct : Prop := ∀ (c : Ctl) (fl : Nat) (f : Frame) (d : Dev), attrOk d f = true →
  let a := f.addr.toNat
  let group := bits f.attr.toNat 0 16
  let hi := bits f.attr.toNat 16 16
  (f.opc = 0x03 → performFrame c fl f d = (.done, takeResp c fl f d)) ∧ (f.opc = 0x07 → performFrame c fl f d = (.done, takeAtomResp c fl f d)) ∧
  (∀ m : OpenMsg, (d.flow fl).msgs = [m] → m.msgId = f.msgId → bitAt m.addr 63 = false → f.payload.length < m.respDue →
    let d1 := d.modFlow fl (fun x => { x with msgs := [{ m with respDue := m.respDue - f.payload.length }] })
    (∀ port, m.issuer = .window port → takeResp c fl f d = d1.emit (.bytes port (m.dest % 2 ^ 48 + (a - m.addr)) f.payload f.poison)) ∧
    (∀ b, m.issuer = .bench b → takeResp c fl f d = d1.modBench b (fun y => { y with dma := { y.dma with slots := modAt (fun t =>
      if f.poison then { t with res := if t.res = 0 then 4 else t.res } else { t with buf := cellsPut t.buf (m.dest + (a - m.addr)) f.payload }) y.dma.slots 0 } }))) ∧
  (∀ (m : OpenMsg) (port : Nat), (d.flow fl).msgs = [m] → m.msgId = f.msgId → m.respDue ≠ 0 → m.issuer = .window port → bitAt m.dest 61 = false → (d.flow fl).unacked = [] → (d.flow fl).waiting = [] →
    let fin := fun (t : Dev) => (t.flow fl).msgs = [] ∧ (t.flow fl).state = (if (d.flow fl).state = .draining then .closed else (d.flow fl).state) ∧ { t with fab := d.fab, out := d.out } = d
    (f.payload.length = m.respDue → bitAt m.addr 63 = false → fin (takeResp c fl f d) ∧ (takeResp c fl f d).out = d.out ++ [.bytes port (m.dest % 2 ^ 48 + (a - m.addr)) f.payload f.poison]) ∧
    (f.poison = false → fin (takeAtomResp c fl f d) ∧ (takeAtomResp c fl f d).out = d.out ++ [.value port (m.dest % 2 ^ 48) (leNat f.payload)])) ∧
  (f.opc = 0x11 → performFrame c fl f d = (.done, statusArrive c fl f.msgId (bits f.attr.toNat 0 4) d)) ∧
  (∀ (w : Nat) (m : OpenMsg), (d.flow fl).msgs.find? (fun x => x.msgId == f.msgId) = some m →
    statusArrive c fl f.msgId w d = drainFlow fl (failMsg c fl w (d.modFlow fl (fun x => { x with msgs := x.msgs.erase m })) m)) ∧
  (∀ (w : Nat) (m : OpenMsg),
    (m.issuer = .none → failMsg c fl w d m = d) ∧ (m.issuer = .engine → failMsg c fl w d m = fabError c w (d.flow fl).peerNode fl d) ∧
    (∀ port, m.issuer = .window port → m.respDue = 0 → failMsg c fl w d m = fabError c w (d.flow fl).peerNode fl (raise c d Fs.addrDecode (dropInfo (m.dest % 2 ^ 48) port true)))) ∧
  (∀ st node flow : Nat, d.aux.errValid = false → fabError c st node flow d = raise c (d.modAux (fun x =>
    { x with errStatus := BitVec.ofNat 4 st, errNode := BitVec.ofNat 16 node, errFlow := BitVec.ofNat 16 flow, errValid := true })) Fs.fabRemoteErr (fabInfo node flow st)) ∧
  (f.opc = 0x09 → ownerPanel d (bits a 28 20) = none → performFrame c fl f d = (.bad 1, d)) ∧
  (f.opc = 0x09 → f.payload ≠ [] → f.ordered = d.opt.ordered → ∀ p, ownerPanel d (bits a 28 20) = some p →
    bits a 0 28 + f.payload.length / atomSrc (bits f.attr.toNat 0 4) ≤ p.nparam →
    performFrame c fl f d = perfOf (contribute c p (nearestStep d f.aux.toNat) (bits a 0 28) (bits f.attr.toNat 0 4) hi fl f.payload f.ordered f.poison d f.psn.toNat)) ∧
  (∀ (p : Panel) (step off fmt mb psn : Nat) (bs : List Byte) (ordered bad : Bool), d.aux.holds.contains (fl, psn) = false →
    (∀ r, d.aux.resultStep = some r → step ≤ r → contribute c p step off fmt mb fl bs ordered bad d psn = (.late, d.modPlane (p.id % 8) (fun x => { x with lateAddCnt := cntInc x.lateAddCnt }))) ∧
    (d.aux.resultStep = none → d.aux.frozen = some step → contribute c p step off fmt mb fl bs ordered bad d psn = (.held, d)) ∧
    (d.aux.resultStep = none → d.aux.frozen ≠ some step →
      (openSlot p step d = none → contribute c p step off fmt mb fl bs ordered bad d psn = (.held, holdAt p step fl psn d)) ∧
      (∀ d1, openSlot p step d = some d1 → ordered = false → contribute c p step off fmt mb fl bs ordered bad d psn = (.applied, addToSlot c p (p.slotOf step) off fmt bs bad d1)) ∧
      (∀ d1, openSlot p step d = some d1 → ordered = true → mb < cursorOf d1 p (p.slotOf step) (off / 1024) →
        contribute c p step off fmt mb fl bs ordered bad d psn = (.denied, raise c d1 Fs.fabOrderDup ((d1.flow fl).peerNode + fl * 2 ^ 16))) ∧
      (∀ d1, openSlot p step d = some d1 → ordered = true → mb = cursorOf d1 p (p.slotOf step) (off / 1024) →
        let e := modRun p (p.slotOf step) (off / 1024) (fun r => { r with cursor := mb + 1 }) (addToSlot c p (p.slotOf step) (off / 1024 * 1024) fmt bs bad d1)
        contribute c p step off fmt mb fl bs ordered bad d psn = (.applied, drainRun c p (p.slotOf step) step (off / 1024) (e.aux.ors.length + 1) e)))) ∧
  (f.opc = 0x0A → performFrame c fl f d = perfOf (mirrorArrive c a (nearestStep d f.aux.toNat) (bits f.attr.toNat 0 17) (bits f.attr.toNat 17 1) f.srcNode fl f.payload f.poison d)) ∧
  (∀ (step chunk half node : Nat) (bs : List Byte) (bad : Bool),
    (panelIdxAt d a = none → mirrorArrive c a step chunk half node fl bs bad d = (.denied, d)) ∧
    (∀ i, panelIdxAt d a = some i →
      let p := panelAt d i
      let pl := d.plane (p.id % 8)
      let m : MirrorAsk := { idx := i, step := step, node := node, flow := fl }
      (p.role = 0 → mirrorArrive c a step chunk half node fl bs bad d = (.denied, d)) ∧
      (∀ t, p.role ≠ 0 → pl.transfer = some t → t.idx ≠ i ∨ t.step ≠ step ∨ t.node ≠ node → m ∉ pl.asks →
        mirrorArrive c a step chunk half node fl bs bad d = (.held, d.modPlane (p.id % 8) (fun y => { y with asks := y.asks ++ [m] }))) ∧
      (p.role = 1 → pl.transfer = none → pl.asks = [] → pl.cur = none → bad = false → p.committed step = false →
        mirrorArrive c a step chunk half node fl bs bad d = (.applied, (((d.modPlane (p.id % 8) (fun y => { y with asks := [] })).poke (inboxAddr pl chunk half) bs).modPlane (p.id % 8) (fun y =>
          { y with transfer := some { idx := i, step := step, node := node, flow := fl }, inbox := putHalf chunk half bs false y.inbox })))))) ∧
  (f.opc = 0x0B → a < 8 → performFrame c fl f d = (.done, creditArrive c a f.attr.toNat f.srcNode d)) ∧
  (∀ h n node : Nat, (d.plane h).outq = [] → creditArrive c h n node d = d.modPlane h (fun y => { y with creditUsed := tabSet 0 y.creditUsed node (tabGet 0 y.creditUsed node - n) })) ∧
  (f.opc = 0x0B → 8 ≤ a → performFrame c fl f d = (.bad 1, d)) ∧
  (f.opc = 0x0C → panelIdxAt d a = none → performFrame c fl f d = (.bad 1, d)) ∧
  (f.opc = 0x0C → ∀ i, panelIdxAt d a = some i → (panelAt d i).role = 0 →
    let h := (panelAt d i).id % 8
    (∀ u, (d.plane h).cur = some u → u.idx = i → u.step % 2 ^ 32 = f.aux.toNat → u.mirror = false →
      performFrame c fl f d = (.done, d.modPlane h (fun y => { y with cur := some { u with twinAck := true } }))) ∧
    (∀ u, (d.plane h).cur = none → (d.plane h).parked = [u] → u.idx = i → u.step % 2 ^ 32 = f.aux.toNat → u.mirror = false → performFrame c fl f d = (.done, finishParked c h u d)) ∧
    ((d.plane h).cur = none → (d.plane h).parked = [] → performFrame c fl f d = (.done, d))) ∧
  (f.opc = 0x20 → performFrame c fl f d = (.done, collDataArrive c group hi f.aux.toNat a f.payload f.poison d)) ∧
  (f.opc = 0x21 → performFrame c fl f d = (.done, partArrive c group hi (recOfBytes f.payload) d)) ∧
  (f.opc = 0x22 → performFrame c fl f d = (.done, resultArrive c group f.srcNode (recOfBytes f.payload) d)) ∧
  (f.opc = 0x23 → performFrame c fl f d = (.done, ackArrive c f.srcNode f.aux.toNat d)) ∧
  (f.opc = 0x24 → performFrame c fl f d = (.done, queryArrive c group f.srcNode f.aux.toNat d)) ∧
  (f.opc = 0x25 → performFrame c fl f d = (.done, noneArrive c f.srcNode d)) ∧
  (f.opc = 0x26 → performFrame c fl f d = (.done, barrierUpArrive c group hi f.aux.toNat (bitAt (leNat f.payload) 0) d)) ∧
  (f.opc = 0x27 → performFrame c fl f d = (.done, barrierDownArrive c group f.aux.toNat (bitAt (leNat f.payload) 0) d)) ∧
  (f.opc = 0x28 → f.attr ≠ 0 →
    (spanCheck c d (fun r => r.fabRd) 1 (pullSource d a) (f.attr.toNat * 4096) = none →
      performFrame c fl f d = (.done, answerRead c fl f.msgId (pullSource d a) (f.attr.toNat * 4096) true d)) ∧
    (spanCheck c d (fun r => r.fabRd) 1 (pullSource d a) (f.attr.toNat * 4096) ≠ none → performFrame c fl f d = (.bad 1, d)))

/-- R308, R309, R311, R313, R334, R425, R295: the frames without a sequence number. ACK and RNR reach their context, a heartbeat is
seen; FLOW_OPEN opens a context that waits for it; a PFC frame pauses a priority, or resumes it and lets out what waited; another frame goes to
the raw ring, but for one that uses what the MACs do not support, which is dropped and counted. -/
def Obligations.UnsequencedFramesAct : Prop := ∀ (s : State) (port : Fin 64) (f : Frame),
  let counted := (seen s port.val f).modAux (fun x => { x with rxFrameCnt := cntInc x.rxFrameCnt })
  (Arrives s port.val 0x10 f → contextOk s.dev f = true → exec (.ack port f) s = .next (s.withDev (ackArrive2 s.ctl f.dstFlow { f with opc := 0x10 } counted))) ∧
  (Arrives s port.val 0x12 f → contextOk s.dev f = true → exec (.rnr port f) s = .next (s.withDev (rnrArrive f.dstFlow (BitVec.ofNat 32 f.addr.toNat) counted))) ∧
  (Arrives s port.val 0x13 f → exec (.heartbeat port f) s = .next (s.withDev counted)) ∧
  (Arrives s port.val 0x14 f → f.srcNode = (s.dev.flow f.dstFlow).peerNode → bits f.addr.toNat 0 16 = (s.dev.flow f.dstFlow).peerFlow →
    (s.dev.flow f.dstFlow).state = .opening → exec (.flowOpen port f) s = .next (s.withDev (sendOpen s.ctl f.dstFlow true (counted.modFlow f.dstFlow (fun x =>
      { x with state := .opn, peerGen := BitVec.ofNat 8 (bits f.addr.toNat 16 8), rate := pathRate counted (counted.flow f.dstFlow), rtts := [] }))))) ∧
  (s.Works → (s.dev.eth port.val).up = true → ∀ (prio : Fin 8), exec (.pfcFrameReceive port prio true) s =
    .next (s.withDev (s.here.modEth port.val (fun q => { q with paused := BitVec.ofNat 8 (setBit q.paused.toNat prio.val true) }))) ∧
    ∃ t, exec (.pfcFrameReceive port prio false) s = .next t ∧ bitAt (t.dev.eth port.val).paused.toNat prio.val = false ∧
      (∀ x ∈ (t.dev.eth port.val).txHeld, x.1 ≠ prio.val) ∧ t.dev.mem = s.dev.mem) ∧
  (∀ (bs : List Byte) (queued : Nat) (d : Dev), s.Works → (s.dev.eth port.val).up = true → bufferFrame port.val (rawPrio bs) queued s.here = some d →
    let ring := d.aux.rawRx
    let slots := d.peek32 ring
    let head := d.peek32 (ring + 8)
    (rawSupported bs = false → exec (.rawFrameReceive port bs queued) s = .next (s.withDev (dropRx d))) ∧
    (s.dev.fab.joined = true → ring ≠ 0 → rawSupported bs = true → slots ≠ 0 → (head + 1) % slots ≠ d.peek32 (ring + 16) →
      exec (.rawFrameReceive port bs queued) s = .next (s.withDev ((d.poke (ring + 64 + head * 10240)
        (natLE 2 bs.length ++ [BitVec.ofNat 8 port.val] ++ List.replicate 5 0 ++ bs)).poke32 (ring + 8) ((head + 1) % slots)))))

/-! ## The fabric: timers, links, windows (08) -/

/-- R299, R307, R311, R312, R313, R318, R334, R335: what the timers of a flow and of its peers do: the acknowledgement that was held goes out; a
lost frame penalises its path and is sent again; a period's rate follows its acknowledgements; FLOW_OPEN is sent again; heartbeats go to
every watched node, lost or not; a silent peer is lost; a penalty ends; the frames held under RNR are sent again. -/
def Obligations.FlowTimersAct : Prop := ∀ (s : State) (k : Fin 65536), s.Works →
  let fl := s.dev.flow k.val
  (fl.state = .opn → fl.ackPend ≠ 0 → exec (.ackDelayExpiry k) s = .next (s.withDev (sendAck s.ctl k.val s.here))) ∧
  (∀ (psn : W32) (t : TxFrame), fl.unacked.find? (fun x => x.frame.psn == psn) = some t → psn ∉ fl.rnrHeld →
    exec (.frameLossTimeout k psn false) s = .next (s.withDev (loseFrame s.ctl k.val (s.here.modFlow k.val (fun x =>
      { x with penalties := tabPut x.penalties (t.port * 16 + t.ent) (s.ctl.now + s.dev.fab.pathPenalty.toNat) })) t)) ∧
    exec (.frameLossTimeout k psn true) s = .next (s.withDev (s.here.modAux (fun x => { x with tieCnt := cntInc x.tieCnt })))) ∧
  (∀ delay : Nat, fl.state = .opn → fl.ccDelay = some delay → fl.ccCe = 0 ∨ fl.ccRx = 0 → delay - baseRtt s.ctl.now fl ≤ s.dev.fab.ccTarget.toNat →
    exec (.ccPeriodTick k) s = .next (s.withDev (s.here.modFlow k.val (fun y =>
      { y with ccCe := 0, ccRx := 0, ccDelay := none, ccRun := fl.ccRun + 1, rate := min (pathRate s.here fl) (fl.rate + s.dev.fab.ccAiStep.toNat * if s.dev.fab.ccHai.toNat < fl.ccRun + 1 then 8 else 1) })))) ∧
  (∀ delay : Nat, fl.state = .opn → fl.ccDelay = some delay → 0 < fl.ccCe → 0 < fl.ccRx → ∃ t, exec (.ccPeriodTick k) s = .next t ∧ (t.dev.flow k.val).ccRun = 0 ∧
    s.dev.fab.ccRateMin.toNat ≤ (t.dev.flow k.val).rate ∧ (t.dev.flow k.val).rate ≤ max s.dev.fab.ccRateMin.toNat fl.rate ∧ t.dev.mem = s.dev.mem) ∧
  (fl.state = .opening → exec (.flowOpenResend k) s = .next (s.withDev (sendOpen s.ctl k.val false s.here))) ∧
  (s.dev.fab.joined = true → exec .heartbeatSend s = .next (s.withDev ((s.dev.fab.nodes.filter (fun p =>
    p.2.watched && p.1 != s.dev.fab.node.toNat)).foldl (fun x p => sendBeat s.ctl x p.1) s.here))) ∧
  (∀ n : Fin 65536, (s.dev.node n.val).watched = true → (s.dev.node n.val).lost = false → (∀ p ∈ s.dev.fab.flows, p.2.peerNode ≠ n.val) →
    exec (.peerLossExpiry n false) s = .next (s.withDev (clampPeerLost s.ctl n.val (raise s.ctl (s.here.modNode n.val (fun y => { y with lost := true })) Fs.fabPeerLost (fabInfo n.val 0 0)))) ∧
    ∃ t, exec (.peerLossExpiry n true) s = .next t ∧ (t.dev.node n.val).lastSeen = s.ctl.now ∧ (t.dev.node n.val).lost = false ∧ t.dev.aux.tieCnt = cntInc s.dev.aux.tieCnt) ∧
  (∀ path : Nat, exec (.pathPenaltyExpiry k path) s = .next (s.withDev (s.here.modFlow k.val (fun x => { x with penalties := tabDel x.penalties path })))) ∧
  (exec (.rnrRetransmit k) s = .next (s.withDev ((fl.unacked.filter (fun t => fl.rnrHeld.contains t.frame.psn)).foldl (fun x t => resend s.ctl k.val t x) s.here)))

/-- R292, R294, R297, R425, R430: a lane's failure takes its port down and is recorded; a port comes up after its retraining, at the lanes it
kept, or stays down until a cold reset; a link partner's training brings a port up; the raw transmit ring is sent up to HEAD. -/
def Obligations.LinkEventsAct : Prop := ∀ s : State, s.Works →
  (∀ (l : Fin 64), let p := l.val / cfgWidthOf s.here
    bitAt s.dev.fab.laneFail.toNat l.val = false → bitAt (s.dev.eth p).lanes.toNat l.val = false →
    exec (.ethLaneFail l) s = .next (s.withDev (raise s.ctl (s.here.modFab (fun g => { g with laneFail := BitVec.ofNat 64 (setBit g.laneFail.toNat l.val true) }))
      (Fs.ethLaneFail l.val) (portInfo p (s.dev.eth p).width)))) ∧
  (∀ (l : Fin 64), let p := l.val / cfgWidthOf s.here
    bitAt s.dev.fab.laneFail.toNat l.val = false → bitAt (s.dev.eth p).lanes.toNat l.val = true → (s.dev.eth p).dead = false →
    ∃ d rs, exec (.ethLaneFail l) s = .next (s.withDev (raiseAll s.ctl d rs)) ∧ (d.eth p).up = false ∧ bitAt d.fab.laneFail.toNat l.val = true ∧
      (Fs.ethLaneFail l.val, 0, portInfo p (goodHalf (s.here.modFab (fun g => { g with laneFail := BitVec.ofNat 64 (setBit g.laneFail.toNat l.val true) })) (s.dev.eth p)).length) ∈ rs ∧
      { d with fab := s.dev.fab } = s.here) ∧
  (∀ p : Fin 64, (s.dev.eth p.val).retraining = true → (s.dev.eth p.val).dead = false →
    exec (.ethPortRetrainDone p false) s = .next (s.withDev (raise s.ctl (capRates (s.here.modEth p.val (fun x => { x with retraining := false, dead := true, up := false, width := 0 })))
      Fs.ethPortDown (portInfo p.val 0))) ∧
    ((s.dev.eth p.val).width ≤ popcount (s.dev.eth p.val).lanes.toNat 64 → exec (.ethPortRetrainDone p true) s = .next (s.withDev (capRates (s.here.modEth p.val (fun x =>
      { x with retraining := false, up := true, width := popcount (s.dev.eth p.val).lanes.toNat 64 })))))) ∧
  (∀ p : Fin 64, s.ctl.boot.ready = true → s.ctl.clk.ethRefclkOk = true → (s.dev.eth p.val).up = false → (s.dev.eth p.val).dead = false →
    (s.dev.eth p.val).retraining = false → (s.dev.eth p.val).lanes ≠ 0 → exec (.ethPortLinkUp p) s = .next (s.withDev (s.here.modEth p.val (fun x =>
      { x with up := true, width := popcount (s.dev.eth p.val).lanes.toNat 64 })))) ∧
  (s.dev.fab.joined = true → s.dev.aux.rawTx ≠ 0 → let ring := s.dev.aux.rawTx
    let slots := s.here.peek32 ring
    slots ≠ 0 → exec .rawTxPoll s = .next (s.withDev (sendRaw ring slots (s.here.peek32 (ring + 8) % slots) slots (s.here.peek32 (ring + 16) % slots) s.here)))

/-- R61, R320, R321, R322: a load, store, fetch-and-add or compare-and-swap that the tables permit and an entry translates goes out as one message
of the entry's flow; an access the entry does not permit is refused with status 1; a write of a window entry changes that half alone, unless it does not
reach the block, when it is dropped and recorded. -/
def Obligations.WindowAccessesGoOut : Prop := ∀ s : State,
  (∀ (p : Fin 16) (a : BitVec 48) (t : Translated) (dat : List Byte) (len : Nat), s.Works → rangeOf a.toNat = .fabric → arrives s.dev p.val = true → s.here.mapped (portAsker p.val) a.toNat = true →
    (∀ n : Nat, n ≠ 0 → ptPermits s.ctl (portAsker p.val) 1 a.toNat n = true → translate s.here 1 a.toNat n = some t →
      exec (.fabricWindowAccess p 0 a dat n) s = .next (s.withDev (startMsg s.ctl t.flow (.window p.val) (readFrames t.addr n false) n t.addr a.toNat s.here))) ∧
    (∀ bs : List Byte, bs ≠ [] → ptPermits s.ctl (portAsker p.val) 2 a.toNat bs.length = true → translate s.here 2 a.toNat bs.length = some t →
      exec (.fabricWindowAccess p 1 a bs len) s = .next (s.withDev (startMsg s.ctl t.flow (.window p.val) (writeFrames t.addr bs false) 0 t.addr (a.toNat + 2 ^ 61) s.here))) ∧
    (∀ bs : List Byte, bs.length = 8 → ptPermits s.ctl (portAsker p.val) 3 a.toNat 8 = true → translate s.here 3 a.toNat 8 = some t →
      exec (.fabricWindowAccess p 2 a bs len) s = .next (s.withDev (startMsg s.ctl t.flow (.window p.val) [{ opc := 0x05, addr := BitVec.ofNat 64 t.addr, payload := bs }] 8 t.addr a.toNat s.here))) ∧
    (∀ bs : List Byte, bs.length = 16 → ptPermits s.ctl (portAsker p.val) 3 a.toNat 8 = true → translate s.here 3 a.toNat 8 = some t →
      exec (.fabricWindowAccess p 3 a bs len) s = .next (s.withDev (startMsg s.ctl t.flow (.window p.val) [{ opc := 0x06, addr := BitVec.ofNat 64 t.addr, payload := bs }] 8 t.addr a.toNat s.here))) ∧
    (∀ bs : List Byte, bs ≠ [] → ptPermits s.ctl (portAsker p.val) 2 a.toNat bs.length = true → translate s.here 2 a.toNat bs.length = none →
      exec (.fabricWindowAccess p 1 a bs len) s = .next (s.withDev (windowRefused s.ctl p.val 1 a.toNat bs.length s.here)))) ∧
  (∀ (i : Fin 4096) (hi : Bool) (v : W64) (p : Fin 16), s.Live → s.CsrShut p.val (0x3F0004100000 + i.val * 16 + (if hi then 8 else 0)) 8 →
    exec (.fabWinWrite i hi v p) s = .next (s.withDev (dropWrite (0x3F0004100000 + i.val * 16 + (if hi then 8 else 0)) p.val s.ctl s.here))) ∧
  (∀ (i : Fin 4096) (hi : Bool) (v : W64) (p : Fin 16), s.Live → s.CsrOpen p.val (0x3F0004100000 + i.val * 16 + (if hi then 8 else 0)) 8 → ∃ t, exec (.fabWinWrite i hi v p) s = .next t ∧ t.ctl = s.ctl ∧
    tabGet (0, 0) t.dev.fab.win i.val = (if hi then ((tabGet (0, 0) s.dev.fab.win i.val).1, v &&& 0x0000FFFFFFFFFFFF) else (v &&& 0x0000FFFFFFFF000F, (tabGet (0, 0) s.dev.fab.win i.val).2)) ∧
    (∀ k, k ≠ i.val → tabGet (0, 0) t.dev.fab.win k = tabGet (0, 0) s.dev.fab.win k) ∧ { t.dev with fab := s.dev.fab } = s.here)

/-! ## Collectives and the clamp (09) -/

/-- R338 to R345, R357, R360, R362: an operation whose turn it is and whose checks pass takes the next sequence number of its group and starts: GRAD_SEND
sends its shards; poison met in a source is recorded and will end the operation with POISONED; a reduction sends its first partial to the next rank; ALL_GATHER stores and sends its own block; BROADCAST's root
stores and spreads its bytes; BARRIER and DOVETAIL arrive at their barrier; CLAMP takes its ring and loss cell, or completes with a result that is held for it. -/
def Obligations.CollectivesStart : Prop := ∀ (s : State) (o : CollOp) (g : Group), s.Works →
  let x := collDescOf o.words
  let b := beginOp o s.here
  let k := myRank s.here g
  let n := g.members.length
  (nextColl s.here 1 = some o → exec .gradSend s = .next (s.withDev ((shardMap b.2 x).foldl (fun y e =>
      sourcePoison s.ctl o.seq (x.src + bits (wordAt e 0) 0 32 * 1024 * collWidth x.fmt) (bits (wordAt e 0) 32 32 * 1024 * collWidth x.fmt) y)
    (finishOp o.seq 0 ((shardMap b.2 x).foldl (fun y e =>
      let frs := shardFrames y x o.step e
      if frs.isEmpty then y else startMsg s.ctl (bits (wordAt e 1) 16 16) (.coll o.seq) frs 0 0 0 y) b.2))))) ∧
  (tabFind b.2.coll.groups x.group = some g → n ≠ 1 →
    (∀ q ∈ [(Instr.reduceScatter, 2), (.allReduce, 4)], nextColl s.here q.2 = some o →
      let blk := ringBlock x.len n ((k + n - 1) % n)
      exec q.1 s = .next (s.withDev (sourcePoison s.ctl o.seq x.src (x.len * collWidth x.fmt) (ringGo s.ctl o.seq (2 * n) (collSend s.ctl o.seq g ((k + 1) % n)
        (dataFrames x.group b.1.gseq 1 (ownBad s.here x blk.1 blk.2) ((ownBlock s.here x blk.1 blk.2).flatMap (natLE 4)))
        (modOp o.seq (fun y => { y with bad := ownBad s.here x blk.1 blk.2 }) b.2)))))) ∧
    (nextColl s.here 3 = some o → exec .allGather s = .next (s.withDev (sourcePoison s.ctl o.seq x.src x.len (ringGo s.ctl o.seq (2 * n) (collSend s.ctl o.seq g ((k + 1) % n)
      (dataFrames x.group b.1.gseq 1 (s.here.peekPoison x.src x.len) (s.here.peekBytes x.src x.len))
      (modOp o.seq (fun y => { y with bad := s.here.peekPoison x.src x.len }) (b.2.poke (x.dst + k * x.len) (s.here.peekBytes x.src x.len))))))))) ∧
  (tabFind b.2.coll.groups x.group = some g → n = 1 →
    (∀ q ∈ [(Instr.reduceScatter, 2), (.allReduce, 4)], nextColl s.here q.2 = some o →
      exec q.1 s = .next (s.withDev (sourcePoison s.ctl o.seq x.src (x.len * collWidth x.fmt)
        (ringResult s.ctl b.1 g x k (ownBlock s.here x 0 x.len) (ownBad s.here x 0 x.len) b.2))))) ∧
  (tabFind b.2.coll.groups x.group = some g → nextColl s.here 5 = some o →
    (k = x.root → exec .broadcast s = .next (s.withDev (sourcePoison s.ctl o.seq x.src x.len
      (spread s.ctl b.1 g x (s.here.peekBytes x.src x.len) (s.here.peekPoison x.src x.len) b.2)))) ∧
    (k ≠ x.root → exec .broadcast s = .next (s.withDev (broadcastGo s.ctl o.seq b.2)))) ∧
  (nextColl s.here 6 = some o → exec .barrier s = .next (s.withDev (barrierGo s.ctl o.seq (modOp o.seq (fun y => { y with selfDone := true }) b.2)))) ∧
  (nextColl s.here 7 = some o →
    let d1 := b.2.modColl (fun m => { m with ring := some (x.dst, x.auxLen) })
    (∀ r, d1.coll.heldResult = some r → exec .clamp s = .next (s.withDev (endClamp s.ctl (some o.seq) (landHeld s.ctl x.dst x.auxLen r d1)))) ∧
    (∀ run, d1.coll.heldResult = none → (d1.coll.clamp = some run ∨ (d1.coll.clamp = none ∧ run = newRun x.group d1)) → exec .clamp s = .next (s.withDev (tryPartial s.ctl
      (d1.modColl (fun m => { m with clamp := some { run with op := some o.seq, cell := some x.aux }, earlyParts := if m.clamp.isSome then m.earlyParts else [] })))))) ∧
  (nextColl s.here 8 = some o → exec .dovetail s = .next (s.withDev (barrierGo s.ctl o.seq (modOp o.seq (fun y =>
    { y with selfDone := true, failed := !doveOk s.here x.group (doveAt s.here x.aux) }) (b.2.modColl (fun m => { m with doveWave := BitVec.ofNat 8 o.stage }))))))

/-- R41, R47, R49, R153, R340, R344, R351 to R359, R361 to R363, R365: a finished operation with no message open writes its word 7 and completes, unless the poison met before it began has
brought it down; a missing part times it out; the barrier of a wave over, the next wave starts or the dovetail ends; the own clamp record becomes ready, or does after FAB_CLAMP_WAIT, and is
formed and sent once the children allow; the child deadline makes silent children absent; a result that does not come is asked for. What arrives: data and arrivals at a barrier
are kept for their operation; a partial joins its run, or is early, or stale and counted; a result is taken once: written to the ring, kept in
the registers, passed on, and its outcome is that the step commits, is skipped or aborts; a straggler holds it until its work is done; an acknowledgement lets the
root go on; a query is answered by the result held, or by none. -/
def Obligations.CollectiveEventsAct : Prop := ∀ s : State, s.Works →
  (∀ (o : CollOp) (st : Nat), opAt s.here o.seq = some o → completing s.here o = some st → o.own = false →
    exec (.collOpComplete o.seq) s = .next (s.withDev (completeUnlessGone s.ctl o st (noteEarly s.ctl o st s.here))) ∧
    (st ≠ 4 → exec (.collOpComplete o.seq) s = .next (s.withDev (completeOp s.ctl o st s.here)))) ∧
  (∀ o : CollOp, opAt s.here o.seq = some o → o.started = true → o.finished = false → (collDescOf o.words).op ≠ 1 → (collDescOf o.words).op ≠ 7 →
    exec (.collectivePartTimeout o.seq false) s = .next (s.withDev (finishOp o.seq 7 s.here)) ∧
    exec (.collectivePartTimeout o.seq true) s = .next (s.withDev (s.here.modColl (fun m => { m with tieCnt := cntInc m.tieCnt })))) ∧
  (∀ o : CollOp, s.dev.coll.ops.find? (fun o => o.started && o.released && !o.finished && (collDescOf o.words).op == 8) = some o →
    (o.failed = true → exec .doveWaveBarrierDone s = .next (s.withDev (finishOp o.seq (if o.checked then 7 else 1) s.here))) ∧
    (o.failed = false → ∀ e, e = (modOp o.seq (fun y => { y with checked := true }) s.here).modColl (fun m => { m with doveWave := BitVec.ofNat 8 o.stage }) →
      exec .doveWaveBarrierDone s = .next (s.withDev (if (doveAt s.here (collDescOf o.words).aux).waves ≤ o.stage then finishOp o.seq 0 e else startWave s.ctl o.seq (o.stage + 1) e)))) ∧
  (∀ run : ClampRun, s.dev.life.held = none → dueRun s.here = some run →
    (s.dev.life.state = .backward → backwardDone s.here = true → gradsDone s.here = true →
      (slotsFull s.here = true → exec .clampRecordReady s = .next (s.withDev (sendOwn s.ctl run s.here))) ∧ exec (.clampWaitExpiry false) s = .next (s.withDev (sendOwn s.ctl run s.here)) ∧
      exec (.clampWaitExpiry true) s = .next (s.withDev (s.here.modColl (fun m => { m with tieCnt := cntInc m.tieCnt })))) ∧
    (s.dev.life.state = .aborted → exec .clampRecordReady s = .next (s.withDev (sendOwn s.ctl run s.here)))) ∧
  (∀ r : ClampRec, s.dev.life.held = some r → heldDue s.here = true → exec .clampRecordReady s = .next (s.withDev (takeHeld s.ctl r s.here))) ∧
  (∀ (run : ClampRun) (g : Group), s.dev.coll.clamp = some run → tabFind s.dev.coll.groups run.group = some g → run.ready = true → run.sent = false → run.done = false →
    missingKids s.here g run ≠ [] →
    exec (.clampChildDeadline false) s = .next (s.withDev (tryPartial s.ctl ((missingKids s.here g run).foldl (declareAbsent s.ctl run.group g) s.here))) ∧
    exec (.clampChildDeadline true) s = .next (s.withDev (s.here.modColl (fun m => { m with tieCnt := cntInc m.tieCnt })))) ∧
  (∀ (run : ClampRun) (g : Group), awaiting s.here = some (run, g) → run.queried = 0 →
    exec (.clampResultWaitExpiry false) s = .next (s.withDev (askNext2 s.ctl run g s.here)) ∧
    exec (.clampResultWaitExpiry true) s = .next (s.withDev (s.here.modColl (fun m => { m with tieCnt := cntInc m.tieCnt })))) ∧
  (∀ (c : Ctl) (d : Dev) (group gseq off ring rank : Nat) (bs : List Byte) (bad : Bool),
    ((∀ o ∈ d.coll.ops, o.started = false ∨ o.grp ≠ group) →
      collDataArrive c group ring gseq off bs bad d = d.modColl (fun m => { m with inData := m.inData ++ [{ group := group, gseq := gseq, ring := ring, off := off, data := bs, bad := bad }] }) ∧
      barrierUpArrive c group rank gseq bad d = d.modColl (fun m => { m with inUps := m.inUps ++ [{ group := group, gseq := gseq, rank := rank, failed := bad }] }) ∧
      barrierDownArrive c group gseq bad d = d) ∧
    (∀ (o : CollOp) (g : Group), d.coll.ops = [o] → tabFind d.coll.groups group = some g → o.started = true → o.grp = group → o.gseq = gseq → o.upSent = true → o.released = false →
      kidsOf g (myRank d g) = [] → (collDescOf o.words).op = 6 → o.own = false →
      barrierDownArrive c group gseq bad d = d.modColl (fun m => { m with ops := [{ o with released := true, failed := bad, finished := true, status := o.status }] }))) ∧
  (∀ (c : Ctl) (d : Dev) (g : Group) (group rank node : Nat) (r : ClampRec), tabFind d.coll.groups group = some g →
    (rank ∉ kidsOf g (myRank d g) → partArrive c group rank r d = d) ∧
    (rank ∈ kidsOf g (myRank d g) →
      (staleRec d r = true → partArrive c group rank r d = d.modColl (fun m => { m with lateCnt := cntInc m.lateCnt })) ∧
      (staleRec d r = false → d.coll.clamp = none → d.life.held = none → partArrive c group rank r d =
        d.modColl (fun m => { m with earlyParts := m.earlyParts.filter (fun p => p.1 != rank) ++ [(rank, r)] })) ∧
      (∀ run, staleRec d r = false → d.coll.clamp = some run → run.sent = false → run.done = false →
        ((run.parts.any (fun p => p.1 == rank) || run.absentKids.contains rank) = true → partArrive c group rank r d = d.modColl (fun m => { m with lateCnt := cntInc m.lateCnt })) ∧
        ((run.parts.any (fun p => p.1 == rank) || run.absentKids.contains rank) = false → run.ready = false → (∀ n, (d.node n).lost = false) →
          partArrive c group rank r d = d.modColl (fun m => { m with clamp := some { run with parts := run.parts ++ [(rank, r)] } })))) ∧
    (d.coll.valid = true → d.coll.lastRes.step = r.step → d.coll.lastRes.epoch = r.epoch → myRank d g ≠ 1 → resultArrive c group node r d = d) ∧
    (d.coll.valid = false → staleRec d r = true → resultArrive c group node r d = d.modColl (fun m => { m with lateCnt := cntInc m.lateCnt })) ∧
    (d.coll.valid = false → staleRec d r = false → myRank d g ≠ 1 → resultArrive c group node r d = spreadResult c group g r (kidsOf g (myRank d g)) (takeResult c group g r d)) ∧
    (∀ (run : ClampRun) (a n : Nat), d.coll.clamp = some run → run.op = none → d.coll.ring = some (a, n) → andNot (maskAt g (myRank d g)) r.bitmap = 0 →
      let kept := fun (x : Dev) => (x.modColl (fun m => { m with valid := true, lastRes := r })).modAux (fun x => { x with resultStep := some r.step, frozen := none })
      (run.sent = true → takeResult c group g r d = outcome c r ((kept ((d.poke (a + d.coll.ringIdx % n * 1088) (recBytes r)).modColl (fun m => { m with ringIdx := (m.ringIdx + 1) % n }))).modColl
        (fun m => { m with clampBusy := false }))) ∧
      (run.sent = false → r.abort = false → d.life.state = .forward ∨ d.life.state = .backward → takeResult c group g r d =
        (((kept d).modColl (fun m => { m with clampBusy := false })).modLife (fun l => { l with held := some r })).modColl (fun m => { m with clamp := none, earlyParts := [], heldResult := some r })))) ∧
  (∀ (c : Ctl) (d : Dev) (r : ClampRec),
    let d1 := (d.modLife (fun l => { l with held := none })).modColl (fun m => { m with clamp := none })
    (r.abort = false → d.life.state = .clamp ∨ d.life.state = .forward ∨ d.life.state = .backward →
      ((applyResult c r d1).life.stopPending = none → outcome c r d = enterForward c.now ((applyResult c r d1).modLife (fun l => { l with step := BitVec.ofNat 64 (r.step + 1) }))) ∧
      ((applyResult c r d1).life.stopPending.isSome = true → (applyResult c r d1).life.update = true →
        outcome c r d = (applyResult c r d1).modLife (fun l => { l with state := .clamp, nextStep := some (r.step + 1), interrupted := none }))) ∧
    (r.abort = false → d.life.state = .aborted → outcome c r d = (applyResult c r d1).modLife (fun l =>
      { l with step := BitVec.ofNat 64 (r.step + 1), reload := true, carryAbort := true, nextStep := some (r.step + 1) })) ∧
    (r.abort = true → d.life.state = .clamp →
      (outcome c r d).life.state = (if d.life.stopPending.isSome then .idle else .aborted) ∧ (outcome c r d).life.epoch = d.life.epoch + 1 ∧ (outcome c r d).life.held = none) ∧
    (let e := d.modOpt (fun o => { o with results := keepResult { res := r, scale := d.opt.lossScale } o.results, lossScale := BitVec.ofNat 32 r.sNext, goodSteps := BitVec.ofNat 32 r.gOkNext })
      let due := fun (x : Dev) => (dueAll r.step x).modLife (fun l => { l with update := l.update || (dueAll r.step x).planes.any (fun p => !p.2.due.isEmpty) })
      (r.skip = true → applyResult c r d = due (freeStep r.step e)) ∧ (r.skip = false → applyResult c r d = due (settleStep c r.step r.bitmap r.d e))) ∧
    (∀ now, (enterForward now d).life.state = .forward ∧ (enterForward now d).life.step = d.life.step ∧ (enterForward now d).life.phaseK = 0 ∧ (enterForward now d).life.epoch = d.life.epoch ∧
      (enterForward now d).life.attemptEpoch = d.life.epoch ∧ (enterForward now d).coll.clamp = none ∧ (enterForward now d).aux.frozen = none)) ∧
  (∀ (c : Ctl) (d : Dev) (g : Group) (node step : Nat) (run : ClampRun), d.coll.clamp = some run → tabFind d.coll.groups run.group = some g →
    (∀ r, run.pending = some r → g.members.getD 1 0 = node → run.step % 2 ^ 32 = step →
      ackArrive c node step d = takeResult c run.group g r (spreadResult c run.group g r (kidsOf g 0) (d.modColl (fun m => { m with clamp := some { run with pending := none } })))) ∧
    (run.pending = none → ackArrive c node step d = d) ∧
    (run.sent = true → run.done = false → run.pending = none → run.queried = 0 ∨ g.members.getD (2 - run.queried) 0 ≠ node → noneArrive c node d = d) ∧
    (run.sent = true → run.done = false → run.pending = none → run.queried = 2 → g.members.getD 0 0 = node → d.life.state = .aborted → noneArrive c node d = raise c
      ((d.modColl (fun m => { m with clamp := none, clampBusy := false })).modLife (fun l => { l with carryAbort := true })) Fs.clampNoResult (clampInfo run.group d.fab.node.toNat))) ∧
  (∀ (c : Ctl) (d : Dev) (g : Group) (group node step k : Nat), tabFind d.coll.groups group = some g → rankOf g node = some k →
    (∀ r, (heldResults d).find? (answersQuery d step) = some r → queryArrive c group node step d = clampSend c g k (clampFrame 0x22 group 0 r.step (recBytes r)) d) ∧
    ((heldResults d).find? (answersQuery d step) = none → queryArrive c group node step d = clampSend c g k (clampFrame 0x25 group 0 step []) d) ∧
    (∀ fr, (d.node (g.members.getD k 0)).lost = false → openTo d (g.flows.getD k 0) (g.members.getD k 0) = true → clampSend c g k fr d = startMsg c (g.flows.getD k 0) .engine [fr] 0 0 0 d))

/-! ## Coherence (10) -/

/-- Nothing waits or is in flight at a home. -/
abbrev Sys2Proof.Quiet (m : Home) : Prop := m.txns = [] ∧ m.chain = [] ∧ m.wb = [] ∧ m.evicts = [] ∧ m.overflow = [] ∧ m.ingress = []

/-- A request for a line of a placed range arrives, exists and is permitted at its home, and the line's block is not held for a repair (R57, R165, R366, R368, R386,
R394, R432, R436). -/
abbrev Sys2Proof.Admitted (s : State) (r : Req) : Prop :=
  s.Live ∧ s.ctl.clk.onOsc = false ∧ s.dev.fc.entering = false ∧ (s.ctl.boot.failed && r.port == 8) = false ∧ arrives s.dev r.port = true ∧ readHeld s.here r.line = false ∧ portMay r.port r.kind = true ∧ coherent (r.line * 64) = true ∧ rangeOf (r.line * 64) ≠ .unified ∧
  s.here.spanMapped (portAsker r.port) (r.line * 64) 64 = true ∧ ptPermits s.ctl (portAsker r.port) (reqAccess r) (r.line * 64) 64 = true

/-- R370, R373, R379, R380, R383: a request for a line that no cache holds, at a home where nothing waits and a way is free. RdShared, RdOwn and
Upgrade (which is counted and handled as RdOwn) take a directory entry and wait for memory's data; RdCur and an atomic wait for it
without an entry; WrFull and WrPart write their bytes to memory, nothing else there, and are acknowledged at once. -/
def Obligations.UncachedRequestsRun : Prop := ∀ (s : State) (p : Fin 16) (l : Nat),
  let m := s.dev.home (homeOfLine l)
  Quiet m → Dev.dirFind m l = none → (Dev.setWays m l).any (fun w => w.2.isNone) = true →
  (∀ q ∈ [(Instr.rdshared, ReqKind.rdShared), (.rdown, .rdOwn), (.upgrade, .upgrade)], Admitted s { port := p.val, kind := q.2, line := l } →
    ∃ t x w e, exec (q.1 p l []) s = .next t ∧ t.ctl = s.ctl ∧ t.pending = s.pending ∧ (t.dev.home (homeOfLine l)).txns = [x] ∧
      x.req = { port := p.val, kind := q.2, line := l } ∧ x.st = .tMem ∧ x.asOwn = (q.2 == .upgrade) ∧ Dev.dirFind (t.dev.home (homeOfLine l)) l = some (w, e) ∧
      (t.dev.home (homeOfLine l)).upgRdownCnt = cntIf (q.2 == .upgrade) m.upgRdownCnt ∧ t.dev.mem = s.dev.mem ∧ t.dev.caches = s.dev.caches ∧ t.dev.out = []) ∧
  (Admitted s { port := p.val, kind := .rdCur, line := l } → ∃ t x, exec (.rdcur p l []) s = .next t ∧ (t.dev.home (homeOfLine l)).txns = [x] ∧
      x.req = { port := p.val, kind := .rdCur, line := l } ∧ x.st = .tMem ∧ (t.dev.home (homeOfLine l)).dir = m.dir ∧ t.dev.mem = s.dev.mem ∧ t.dev.caches = s.dev.caches) ∧
  (∀ (off : Fin 64) (op : AtomOp) (bs : List Byte), Admitted s { port := p.val, kind := .atomic, line := l, off := off.val, data := bs, op := op } →
    ∃ t x, exec (.atomic p l off op bs []) s = .next t ∧ (t.dev.home (homeOfLine l)).txns = [x] ∧
      x.req = { port := p.val, kind := .atomic, line := l, off := off.val, data := bs, op := op } ∧ x.st = .tMem ∧ (t.dev.home (homeOfLine l)).dir = m.dir ∧ t.dev.mem = s.dev.mem) ∧
  (∀ bs : List Byte, bs.length = 64 → rangeOf (l * 64) = .near → Admitted s { port := p.val, kind := .wrFull, line := l, data := bs } →
    ∃ t, exec (.wrfull p l bs []) s = .next t ∧ t.dev.out = [.ack p.val l] ∧ (t.dev.home (homeOfLine l)).txns = [] ∧ (t.dev.home (homeOfLine l)).dir = m.dir ∧
      (∀ a, t.dev.mem.byte t.dev.era a = if l * 64 ≤ a ∧ a < l * 64 + 64 then bs.getD (a - l * 64) 0 else s.dev.mem.byte s.dev.era a) ∧ t.dev.caches = s.dev.caches) ∧
  (∀ (off : Fin 64) (bs : List Byte), off.val + bs.length ≤ 64 → rangeOf (l * 64) = .near → Admitted s { port := p.val, kind := .wrPart, line := l, off := off.val, data := bs } →
    ∃ t, exec (.wrpart p l off bs []) s = .next t ∧ t.dev.out = [.ack p.val l] ∧ (t.dev.home (homeOfLine l)).txns = [] ∧ (t.dev.home (homeOfLine l)).dir = m.dir ∧
      (∀ a, t.dev.mem.byte t.dev.era a =
        if l * 64 + off.val ≤ a ∧ a < l * 64 + off.val + bs.length then bs.getD (a - (l * 64 + off.val)) 0 else s.dev.mem.byte s.dev.era a) ∧ t.dev.caches = s.dev.caches)

/-- R370, R372, R380, R381, R392, R396: what a home does with what comes back: memory's data or a holder's response moves its transaction on; the
GrantAck of a granted request closes it; a writeback that nothing waits for is buffered, then applied; a clean eviction drops the
sharer; a probe answers the entry; the orphan log is cleared; an unanswered snoop of a cluster is raised, and on a tie answered; a
conflict is acknowledged. -/
def Obligations.HomeEventsAct : Prop := ∀ s : State,
  (∀ (h : Fin 8) (l : Nat) (ecc : Fin 7) (x : Txn), s.Works → s.ctl.clk.onOsc = false → (s.dev.home h.val).txns.find? (fun t => t.req.line == l && t.st == .tMem) = some x → rangeOf (l * 64) ≠ .unified →
    readHeld s.here l = false →
    let r := memoryData s.ctl h.val ecc.val x (bcCheck s.ctl l ecc.val (copyOnRead l s.here))
    r.2.fc.entering = false →
    exec (.memoryDataReturn h l ecc) s = .next (s.withDev (deliver s.ctl h.val l x r.1 r.2)) ∧
    deliver s.ctl h.val l x r.1 r.2 = leaveQueue l (Dev.represent s.ctl h.val (Dev.runChain s.ctl h.val l (Dev.toAck s.ctl h.val { x with memory := some r.1 } r.2)))) ∧
  (∀ (h : Fin 8) (l : Nat) (ecc : Fin 7), s.Works → s.ctl.clk.onOsc = false → readHeld s.here l = true → exec (.memoryDataReturn h l ecc) s = .next (s.withDev s.here)) ∧
  (∀ (p : Fin 9) (l : Nat) (x : Txn), s.Works → p ≠ 8 → (s.dev.home (homeOfLine l)).txns.find? (fun t => t.req.line == l && t.st == .tAck && t.req.port == p.val) = some x →
    exec (.grantack p l []) s = .next (s.withDev (Dev.represent s.ctl (homeOfLine l) (Dev.runChain s.ctl (homeOfLine l) l (Dev.closeTxn (homeOfLine l) x s.here))))) ∧
  (∀ (a : Fin 9) (l : Nat) (rsp : SnoopRsp) (bs : List Byte) (bad : Bool) (x : Txn), s.Works →
    (s.dev.home (homeOfLine l)).txns.find? (fun t => t.req.line == l && t.waiting.contains a.val) = some x →
    exec (.snoopResponse a l rsp bs bad) s = .next (s.withDev (Dev.represent s.ctl (homeOfLine l) (Dev.runChain s.ctl (homeOfLine l) l
      (Dev.respondTxn s.ctl (homeOfLine l) x a.val rsp { bytes := (bs ++ List.replicate 64 0).take 64, poison := bad } s.here))))) ∧
  (∀ (a : Fin 9) (l : Nat) (bs : List Byte), s.Works → s.ctl.clk.onOsc = false → a ≠ 8 ∨ hostUp s.dev = true → Quiet (s.dev.home (homeOfLine l)) →
    exec (.wbdirty a l bs []) s = .next (s.withDev (Dev.represent s.ctl (homeOfLine l) (Dev.runChain s.ctl (homeOfLine l) l (s.here.modHome (homeOfLine l) (fun m =>
      { m with wb := m.wb ++ [{ agent := a.val, line := l, data := { bytes := (bs ++ List.replicate 64 0).take 64, poison := decide (a.val < 8) && (s.here.cacheLine a.val l).data.poison } }] }))))) ) ∧
  (∀ (l w : Nat) (e : DirEntry), s.Works → Quiet (s.dev.home (homeOfLine l)) → Dev.dirFind (s.dev.home (homeOfLine l)) l = some (w, e) → e.st = .ds →
    exec (.memclnevct l) s = .next (s.withDev (s.here.modHome (homeOfLine l) (fun m => Dev.putEntry m l (Dev.withoutAgents e [8]))))) ∧
  (∀ (h : Fin 8) (p : Fin 16) (v : W64), s.Live → s.ctl.clk.onOsc = false →
    (s.CsrOpen p.val (0x3F0005000010 + h.val * 0x100000) 8 → exec (.cohDirProbeWrite h p v) s = .next (s.withDev (s.here.modHome h.val (fun m =>
      { m with probe := BitVec.ofNat 64 (Dev.probeLine m (v.toNat % 2 ^ 48 / 64)) })))) ∧
    (s.CsrShut p.val (0x3F0005000010 + h.val * 0x100000) 8 → exec (.cohDirProbeWrite h p v) s = .next (s.withDev (dropWrite (0x3F0005000010 + h.val * 0x100000) p.val s.ctl s.here)))) ∧
  (s.Live → exec .cohOrphanClear s = .next (s.withDev (s.here.modHost (fun h => { h with orphans := [] })))) ∧
  (∀ (a : Fin 9) (l : Nat) (x : Txn), s.Works → x ∈ (s.dev.home (homeOfLine l)).txns → x.req.line = l → a.val ∈ x.waiting →
    (a ≠ 8 → exec (.cohSnoopTimeoutExpiry a l false) s = .next (s.withDev (raise s.ctl s.here (Fs.cohSnoopTimeout (homeOfLine l)) (l * 64 % 2 ^ 48 + a.val * 2 ^ 48)))) ∧
    (a = 8 → exec (.cohSnoopTimeoutExpiry a l false) s = .next (s.withDev (hostLoss s.ctl s.here)) ∧ exec (.biconflict l) s = .next (s.withDev { s.dev with out := [.biConflictAck l] })) ∧
    exec (.cohSnoopTimeoutExpiry a l true) s = .next (s.withDev (s.here.modHome (homeOfLine l) (fun m => { m with timeoutTieCnt := cntInc m.timeoutTieCnt }))))

/-- R57, R374, R378, R381, R432: what each event does at a cluster's cache. Cores that do not run make no access; one of a reserved range ends with poison and is recorded. A load or store that may be made hits, or asks its home and waits; a replacement
drops a clean line and, with a writeback credit at its home, writes back a dirty one; a snoop is answered from the line's state; a grant installs the line and performs the
waiting stores; a RETRY backs off, and the request goes again. -/
def Obligations.CacheEventsAct : Prop := ∀ (s : State) (k : Fin 8), s.Works →
  (puwellUp s.dev = false → ∀ (a : BitVec 48) (bs : List Byte) (amo : Bool), exec (.coreLoad k a) s = .next (s.withDev s.here) ∧ exec (.coreStore k a bs amo) s = .next (s.withDev s.here)) ∧
  (∀ a : BitVec 48, puwellUp s.dev = true → rangeOf a.toNat = .reserved → coherent (a.toNat / 64 * 64) = false → hostLine (a.toNat / 64) = false → exec (.coreLoad k a) s =
    .next (s.withDev (raise s.ctl { (s.here.emit (.data k.val (a.toNat / 64) (poisonData s.here))) with free := s.dev.free + 1 } Fs.addrDecode (dropInfo a.toNat k.val false)))) ∧
  (∀ a : BitVec 48, puwellUp s.dev = true → coherent (a.toNat / 64 * 64) = true → coreMay s.ctl s.here 1 a.toNat = true →
    let x := s.dev.cacheLine k.val (a.toNat / 64)
    (x.st = .inv → hostLine (a.toNat / 64) = false → exec (.coreLoad k a) s =
      .next (s.withDev ((s.here.setLine k.val (a.toNat / 64) { x with st := .isP }).emit (.request k.val .rdShared (a.toNat / 64))))) ∧
    (x.st ∈ [LineState.shr, .exc, .own, .mod] → exec (.coreLoad k a) s = .next (s.withDev { s.dev with out := [.data k.val (a.toNat / 64) x.data] }))) ∧
  (∀ (a : BitVec 48) (bs : List Byte) (amo : Bool), puwellUp s.dev = true → coherent (a.toNat / 64 * 64) = true → coreMay s.ctl s.here (if amo then 3 else 2) a.toNat = true →
    let x := s.dev.cacheLine k.val (a.toNat / 64)
    (x.st ∈ [LineState.exc, .mod] → exec (.coreStore k a bs amo) s =
      .next (s.withDev (s.here.setLine k.val (a.toNat / 64) { x with st := .mod, data := mergeLine x.data (a.toNat % 64) (bs.take (64 - a.toNat % 64)) }))) ∧
    (x.st = .shr → exec (.coreStore k a bs amo) s = .next (s.withDev ((s.here.setLine k.val (a.toNat / 64)
      { x with st := .smP, stores := [(a.toNat % 64, bs.take (64 - a.toNat % 64))] }).emit (.request k.val .upgrade (a.toNat / 64)))))) ∧
  (∀ a : BitVec 48, hostLine (a.toNat / 64) = false → let x := s.dev.cacheLine k.val (a.toNat / 64)
    (puwellUp s.dev = true → x.st ∈ [LineState.exc, .shr] → exec (.cacheReplacement k a) s = .next (s.withDev (s.here.setLine k.val (a.toNat / 64) {}))) ∧
    (puwellUp s.dev = true → mayWriteBack s.here k.val (a.toNat / 64) = true → x.st ∈ [LineState.mod, .own] → exec (.cacheReplacement k a) s = .next (s.withDev ((s.here.setLine k.val (a.toNat / 64) { x with st := .wbP }).emit
      (.writeback k.val (a.toNat / 64) x.data)))) ∧
    (∀ q, x.backoff = true → pendingKind x.st = some q → exec (.retryBackoffExpiry k a) s =
      .next (s.withDev ((s.here.setLine k.val (a.toNat / 64) { x with backoff := false }).emit (.request k.val q (a.toNat / 64)))))) ∧
  (∀ l : Nat, let x := s.dev.cacheLine k.val l
    (∀ p ∈ [(Instr.snpinv, 0), (.snpdata, 1), (.snpcur, 2)], exec (p.1 k l) s = .next (s.withDev ((s.here.setLine k.val l (clusterSnoop p.2 false x).1).emit
      (.response k.val l (clusterSnoop p.2 false x).2 (if (clusterSnoop p.2 false x).2 = .data then x.data else {}))))) ∧
    (hostLine l = false → x.st = .wbP → exec (.wback k l) s = .next (s.withDev (s.here.setLine k.val l {}))) ∧
    ((pendingKind x.st).isSome = true → exec (.retry k l) s = .next (s.withDev (s.here.setLine k.val l { x with retries := x.retries + 1, backoff := true }))) ∧
    (∀ (bs : List Byte) (bad : Bool), hostLine l = false → let y : LineData := { bytes := (bs ++ List.replicate 64 0).take 64, poison := bad }
      (x.st = .isP → exec (.grant k l 0 (some bs) bad) s = .next (s.withDev ((s.here.setLine k.val l { st := .shr, data := y }).emit (.grantAck k.val l)))) ∧
      (x.st = .isP → exec (.grant k l 1 (some bs) bad) s = .next (s.withDev ((s.here.setLine k.val l { st := .exc, data := y }).emit (.grantAck k.val l)))) ∧
      (x.st = .imP → exec (.grant k l 2 (some bs) bad) s =
        .next (s.withDev ((s.here.setLine k.val l { st := .mod, data := x.stores.foldl (fun z w => mergeLine z w.1 w.2) y }).emit (.grantAck k.val l))))))

/-- R387, R388, R389, R391, R393, R394, R395, R431, R432, R446, R460: the host's side. While port 0 is up every host snoop is answered: a miss for a line that the base does not reach or no cluster
holds, else what the clusters that the filter names make of it. A read through the alias answers memory's bytes, or those read ahead, without a snoop, errors recorded; one that the tables or the decode
refuse, or of the safe state, answers poison. The oldest access of a direction completes, a read's bytes at whoever asked; in the cycle of a host loss it still counts. A configuration
request is answered with retry until READY, and served then, or by a part that has halted, and the MSI-X capability is written by it. -/
def Obligations.HostEventsAct : Prop := ∀ s : State,
  (∀ (hl : Nat) (kind : Fin 3), s.Works →
    (∃ t, exec (.hostH2dSnoop hl kind) s = .next t ∧ t.ctl = s.ctl ∧ t.pending = s.pending ∧ t.dev.mem = s.dev.mem ∧ t.dev.homes = s.dev.homes ∧ t.dev.fc = s.dev.fc) ∧
    (hostUp s.dev = false → exec (.hostH2dSnoop hl kind) s = .next (s.withDev s.here)) ∧
    (hostUp s.dev = true → deviceLine s.here hl = none → exec (.hostH2dSnoop hl kind) s = .next (s.withDev { s.dev with out := [.hostSnoop hl .miss {}] })) ∧
    (∀ l, hostUp s.dev = true → deviceLine s.here hl = some l →
      (s.dev.host.filter.find? (fun p => p.1 == l) = none → exec (.hostH2dSnoop hl kind) s = .next (s.withDev { s.dev with out := [.hostSnoop hl .miss {}] })) ∧
      (∀ p, s.dev.host.filter.find? (fun p => p.1 == l) = some p →
        let r := (setBitsOf p.2.toNat 8).foldl (hostSnoopOne kind.val l) (s.here, .miss, {})
        exec (.hostH2dSnoop hl kind) s = .next (s.withDev (r.1.emit (.hostSnoop hl r.2.1 r.2.2)))))) ∧
  (∀ (a : BitVec 39) (n : Nat), s.Live → s.ctl.clk.onOsc = false →
    ((s.dev.cxl 0).role ≠ 1 ∨ n = 0 ∨ s.ctl.boot.failed = true → exec (.aliasRead a n) s = .next (s.withDev s.here)) ∧
    ((s.dev.cxl 0).role = 1 → n ≠ 0 → s.ctl.boot.failed = false →
      (s.dev.fc.entering = true → exec (.aliasRead a n) s = .next (s.withDev { s.dev with out := [.bytes 8 a.toNat (Dev.undefBytes s.dev.free n) true], free := s.dev.free + 1 })) ∧
      (s.dev.fc.entering = false → (s.here.spanMapped .hostCls a.toNat n && ptPermits s.ctl .hostCls 1 a.toNat n) = false → exec (.aliasRead a n) s = .next (s.withDev (raise s.ctl
        { s.dev with out := [.bytes 8 a.toNat (Dev.undefBytes s.dev.free n) true], free := s.dev.free + 1 } Fs.addrDecode (dropInfo a.toNat 8 false)))) ∧
      (s.dev.fc.entering = false → s.here.spanMapped .hostCls a.toNat n = true → ptPermits s.ctl .hostCls 1 a.toNat n = true →
        let r := (Memory.linesOf a.toNat n).foldl aliasLine (s.here, [], false)
        let bad := (Memory.linesOf a.toNat n).filter (fun l => !(s.dev.host.ahead.any (fun p => p.1 == l)) && (s.here.backing l).poison)
        exec (.aliasRead a n) s = .next (s.withDev (bad.foldl (noteUeLine s.ctl) (r.1.emit (.bytes 8 a.toNat ((r.2.1.drop (a.toNat % 64)).take n) r.2.2)))) ∧
        (bad = [] → ∃ t, exec (.aliasRead a n) s = .next t ∧ t.ctl = s.ctl ∧ t.pending = s.pending ∧ { t.dev with host := s.dev.host, out := [] } = s.here) ∧
        (bad = [] → s.dev.host.ahead = [] → Memory.linesOf a.toNat n = [a.toNat / 64] → ∃ t, exec (.aliasRead a n) s = .next t ∧
          t.dev.out = [.bytes 8 a.toNat (((s.here.backing (a.toNat / 64)).bytes.drop (a.toNat % 64)).take n) (s.here.backing (a.toNat / 64)).poison])))) ∧
  (∀ (wr : Bool) (bs : List Byte), s.Works →
    (∀ x : HostAcc, s.dev.host.flight.find? (fun y => y.write == wr) = some x →
      let d1 := s.here.modHost (fun h => { h with flight := h.flight.erase x })
      let d2 := match x.bench with
        | some b => d1.arriveTask b x.dest (if x.write then [] else (bs ++ List.replicate x.len 0).take x.len)
        | none => if x.write then d1 else d1.emit (.bytes x.port x.addr ((bs ++ List.replicate x.len 0).take x.len) false)
      exec (.hostCompletion wr bs false) s = .next (s.withDev d2) ∧ exec (.hostCompletion wr bs true) s = .next (s.withDev (hostLoss s.ctl d2))) ∧
    (s.dev.host.flight.find? (fun y => y.write == wr) = none →
      exec (.hostCompletion wr bs false) s = .next (s.withDev s.here) ∧ exec (.hostCompletion wr bs true) s = .next (s.withDev (hostLoss s.ctl s.here)))) ∧
  (∀ (wr : Bool) (reg : BitVec 12) (v : W32), s.Live →
    ((s.dev.cxl 0).role ≠ 1 → exec (.configurationRequest wr reg v) s = .next (s.withDev s.here)) ∧
    ((s.dev.cxl 0).role = 1 → s.ctl.boot.ready = false → s.ctl.boot.failed = false → exec (.configurationRequest wr reg v) s = .next (s.withDev { s.dev with out := [.config true reg.toNat] })) ∧
    ((s.dev.cxl 0).role = 1 → s.ctl.boot.ready = true ∨ s.ctl.boot.failed = true →
      (wr = false ∨ reg ≠ Config.msixCap → exec (.configurationRequest wr reg v) s = .next (s.withDev { s.dev with out := [.config false reg.toNat] })) ∧
      (wr = true → reg = Config.msixCap → exec (.configurationRequest wr reg v) s = .next (s.withDev
        ({ s.dev with out := [.config false reg.toNat] }.modSilkai (fun m => { m with msixEn := bitAt v.toNat 31 }))))))

/-! ## Silkai's mailboxes and the Ndeler commands (11) -/

/-- R402, R403, R405, R407, R410, R411, R404, R439, R440: writes of the owning class reach MBX_CMD, the doorbell and MBX_JIG_GO; one pending command is
taken; a waiting command whose event has occurred ends, a flash update that runs as its write does; one past its limit, which an update has not, ends with TIMEOUT; telemetry is rewritten; an SPDM
request is answered once, and a private read in the halted state too, with eight bytes that are free (log 173). While a command is in hand a write or a ring is dropped and counted. -/
def Obligations.MailboxEventsAct : Prop := ∀ (s : State) (k : Fin 16), s.Live →
  (∀ (p : Fin 16), arrives s.dev p.val = true → mbxOwner s.ctl k.val p.val = true →
    (∀ (off : Fin 4096) (bs : List Byte), inHand (s.dev.mbx k.val) = false → ∃ t, exec (.mbxCmdWrite k p off bs) s = .next t ∧ t.ctl = s.ctl ∧
      (∀ i, tabGet 0 (t.dev.mbx k.val).area i = if off.val ≤ i ∧ i < 4096 ∧ i < off.val + bs.length then bs.getD (i - off.val) 0 else tabGet 0 (s.dev.mbx k.val).area i) ∧
      (∀ j, j ≠ k.val → t.dev.mbx j = s.dev.mbx j) ∧ (t.dev.mbx k.val).st = (s.dev.mbx k.val).st ∧ { t.dev with silkai := s.dev.silkai } = s.here) ∧
    (∀ (off : Fin 4096) (bs : List Byte), inHand (s.dev.mbx k.val) = true → exec (.mbxCmdWrite k p off bs) s = .next (s.withDev (s.here.modMbx k.val (fun m =>
      { m with writeDropCnt := cntInc m.writeDropCnt })))) ∧
    (∀ v : W32, bitAt v.toNat 0 = true → (s.dev.mbx k.val).st ≠ .notReady →
      (inHand (s.dev.mbx k.val) = false → exec (.mbxDoorbell k p v) s = .next (s.withDev (s.here.modMbx k.val (fun m => { m with st := .pending })))) ∧
      (inHand (s.dev.mbx k.val) = true → exec (.mbxDoorbell k p v) s = .next (s.withDev (s.here.modMbx k.val (fun m => { m with doorbellDropCnt := cntInc m.doorbellDropCnt }))))) ∧
    (∀ step : W64, (s.dev.mbx k.val).st ≠ .notReady → (s.dev.mbx k.val).goPending = false → (List.range 32).any (waitingAt s.dev) = true →
      exec (.mbxJigGo k p step) s = .next (s.withDev (s.here.modMbx k.val (fun m => { m with goPending := true, goStep := step })))) ∧
    (∀ step : W64, (s.dev.mbx k.val).goPending = true → (s.dev.mbx k.val).st ≠ .notReady →
      exec (.mbxJigGo k p step) s = .next (s.withDev (s.here.modMbx k.val (fun m => { m with doorbellDropCnt := cntInc m.doorbellDropCnt }))))) ∧
  (firmwareRuns s.ctl s.dev = true →
    ((∀ i ∈ List.range 32, waitingAt s.dev i = decide (i = 2 * k.val)) → exec .mbxCommandTake s = .next (s.withDev (takeMailbox .done k.val s.ctl
      (s.here.modSilkai (fun m => { m with ptr := BitVec.ofNat 5 (2 * k.val + 1) }))))) ∧
    (∀ (w : Waiting) (r : Nat × List Byte × Dev), (s.dev.mbx k.val).waiting = some w → waitEnds w s.here = some r → exec (.mbxWaitingCommandEnd k) s =
      .next (s.withDev (endCommand k.val (s.dev.mbx k.val).waitOp.toNat (s.dev.mbx k.val).waitSeq.toNat r.1 r.2.1 s.ctl r.2.2))) ∧
    (∀ f : Nat, (s.dev.mbx k.val).waiting = some (.flowClose f) → (s.dev.flow f).state ≠ .closed → exec (.mbxWaitLimitExpiry k false) s =
      .next (s.withDev (endCommand k.val (s.dev.mbx k.val).waitOp.toNat (s.dev.mbx k.val).waitSeq.toNat 8 [] s.ctl s.here))) ∧
    (∀ (cfg : Bool) (img : List Byte), (s.dev.mbx k.val).waiting = some (.fwUpdate cfg img) →
      let ends := fun (st : Nat) (reply : List Byte) (d : Dev) => endCommand k.val (s.dev.mbx k.val).waitOp.toNat (s.dev.mbx k.val).waitSeq.toNat st reply s.ctl d
      exec (.mbxWaitingCommandEnd k .done) s = .next (s.withDev (ends 0 (flashDone s.ctl cfg img s.here).1 (flashDone s.ctl cfg img s.here).2)) ∧
      exec (.mbxWaitingCommandEnd k .fails) s = .next (s.withDev (ends 0xD [] (flashFailed s.ctl cfg img.length s.here))) ∧
      exec (.mbxWaitingCommandEnd k .runs) s = .next (s.withDev s.here) ∧ ∀ tie, exec (.mbxWaitLimitExpiry k tie) s = .next (s.withDev s.here)) ∧
    (∀ w, (s.dev.mbx k.val).waiting = some w → (∀ cfg img, w ≠ .fwUpdate cfg img) → exec (.mbxWaitLimitExpiry k true) s = .next (s.withDev (s.here.modSilkai (fun m => { m with tieCnt := cntInc m.tieCnt })))) ∧
    (∃ t, exec .telemetryRewrite s = .next t ∧ t.dev.silkai.tel.seq = s.dev.silkai.tel.seq + 2 ∧ t.dev.silkai.tel.time = s.ctl.clk.timebase ∧ t.dev.silkai.tel.step = s.dev.life.step ∧
      t.dev.silkai.tel.powerMw = s.dev.pwr.inputMw ∧ t.dev.silkai.tel.stalls = s.dev.stream.stallCnt - s.dev.silkai.tel.stallsAt ∧ t.dev.stream.kerfMin = none ∧ t.dev.mem = s.dev.mem) ∧
    (∀ (code p1 p2 : BitVec 8) (bs : List Byte), ∃ t, exec (.spdmRequest code p1 p2 bs) s = .next t ∧ t.dev.out = [.mgmt (spdmAnswer code.toNat p1.toNat p2.toNat bs s.ctl s.here)] ∧
      t.dev.silkai.spdmVersion = (s.dev.silkai.spdmVersion || code == 0x84) ∧ { t.dev with silkai := s.dev.silkai, free := s.dev.free, out := [] } = s.here)) ∧
  (∀ (code p1 p2 : BitVec 8) (bs : List Byte), 4 ≤ s.ctl.boot.stage.toNat ∨ s.ctl.boot.failed = true →
    exec (.spdmRequest code p1 p2 bs true) s = .next (s.withDev { s.dev with out := [.mgmt (natLE 4 (bootStatus s.ctl.boot) ++ natLE 4 s.dev.silkai.heartbeat.toNat ++ Dev.undefBytes s.dev.free 8 ++
      (if s.ctl.boot.failed then List.replicate 48 0 else (telemetryBytes s.dev.silkai.tel).take 48))], free := s.dev.free + 1 }))

/-- The SEQ that the next command of a mailbox carries (R405). -/
def Sys2Proof.nextSeq (s : State) (k : Nat) : Nat := ((s.dev.mbx k).last.toNat + 1) % 65536

/-- The device once mailbox `k` has been given a command and Silkai has taken it, the pointer passing it (R410). -/
def Sys2Proof.taken (s : State) (k op : Nat) (bs : List Byte) : Dev :=
  ((s.here.modMbx k (fun m => { putArea 0 (sealed op (nextSeq s k) 0 bs) m with st := .pending })).modSilkai (fun m => { m with ptr := BitVec.ofNat 5 (2 * k + 1) })).modMbx k
    (fun m => { m with last := BitVec.ofNat 16 (nextSeq s k) })

/-- The firmware runs, the mailbox is free, nothing else waits for Silkai, and the header and payload pass their checks (R405, R408, R410); no result that an aborted step
left held waits for its outcome (the model's choice, log 167). -/
abbrev Sys2Proof.Takes (s : State) (k op : Nat) (bs : List Byte) : Prop :=
  s.Live ∧ firmwareRuns s.ctl s.dev = true ∧ inHand (s.dev.mbx k) = false ∧ (s.dev.mbx k).st ≠ .notReady ∧ bs.length ≤ 4080 ∧ layoutCheck op bs = none ∧
    (s.dev.fc.entering = true → op ∈ safeOps) ∧ (∀ i ∈ List.range 32, i ≠ 2 * k → waitingAt s.dev i = false) ∧ (s.dev.life.held.isNone || !stepCut s.dev) = true

/-- The rows of the Ndeler commands: each row with its opcode and the payload it carries (R415, R417 to R429). -/
def Sys2Proof.ndRows (k : Fin 16) (p : List Byte) : List (Instr × Nat × List Byte) :=
  [(.ndHello k p, 0x0001, p), (.ndQuerySummary k p, 0x0002, withByte 0 0 p), (.ndQueryBenches k p, 0x0002, withByte 0 1 p), (.ndQueryNear k p, 0x0002, withByte 0 2 p),
   (.ndQueryFar k p, 0x0002, withByte 0 3 p), (.ndQueryEthernet k p, 0x0002, withByte 0 4 p), (.ndTierMode k p, 0x0100, p), (.ndAlloc k p, 0x0101, p), (.ndFree k p, 0x0102, p),
   (.ndRegionRegister k p, 0x0103, withByte 0 0 p), (.ndRegionUnregister k p, 0x0103, withByte 0 1 p), (.ndJigLoad k p, 0x0200, p), (.ndJigStart k p, 0x0201, p), (.ndJigStop k p, 0x0202, p),
   (.ndPanelDefineTable k p, 0x0300, withByte 0 0 p), (.ndPanelDefineDefine k p, 0x0300, withByte 0 1 p), (.ndOptConfigJob k p, 0x0301, withByte 0 0 p),
   (.ndOptConfigEntry k p, 0x0301, withByte 0 1 p), (.ndFabJoin k p, 0x0400, p), (.ndFabLeave k p, 0x0401, p), (.ndFlowOpen k p, 0x0402, p), (.ndFlowClose k p, 0x0403, p),
   (.ndCollGroupDefine k p, 0x0404, withByte 0 0 p), (.ndCollGroupDelete k p, 0x0404, withByte 0 1 p), (.ndReshardBuild k p, 0x0405, withByte 0 0 p),
   (.ndReshardBuildRun k p, 0x0405, withByte 0 1 p), (.ndReshardRun k p, 0x0405, withByte 0 2 p), (.ndSnapshot k p, 0x0500, if leAt p 20 1 = 0 then withByte 20 0xF p else p),
   (.ndSnapshotUnpin k p, 0x0500, withByte 20 0 p), (.ndRestore k p, 0x0501, p), (.ndReplayVerify k p, 0x0502, p), (.ndFaultCfgSource k p, 0x0600, withByte 0 0 p),
   (.ndFaultCfgPin k p, 0x0600, withByte 0 1 p), (.ndFaultLogFaults k p, 0x0601, withByte 0 0 p), (.ndFaultLogOrphans k p, 0x0601, withByte 0 1 p),
   (.ndFaultLogRepairs k p, 0x0601, withByte 0 2 p), (.ndRetireBench k p, 0x0602, withByte 0 0 p), (.ndRetirePcRetrain k p, 0x0602, withByte 0 1 p),
   (.ndRetirePcRetire k p, 0x0602, withByte 0 2 p), (.ndRetireEthLane k p, 0x0602, withByte 0 3 p), (.ndPowerLimit k p, 0x0700, p), (.ndFwUpdateFirmware k p, 0x0701, withByte 0 0 p),
   (.ndFwUpdateConfig k p, 0x0701, withByte 0 1 p), (.ndTelemetryKerf k p, 0x0702, withByte 0 0 p), (.ndTelemetryPeriod k p, 0x0702, withByte 0 1 p),
   (.ndTelemetryRewrite k p, 0x0702, withByte 0 2 p)]

/-- R405 to R410, R412, R415: every Ndeler command, written with its CRC and the next SEQ into a free mailbox, is taken in its turn; a mailbox with a command in hand takes none. With nothing else
waiting it ends with the status of
the first check that fails, or with HOST_LOST, or runs and ends or waits as its own rules say. The end of a command writes the reply
with its CRC into MBX_CMD, then STATUS DONE and the result, and touches nothing but that mailbox and its interrupt. -/
def Obligations.NdCommandsRun : Prop := ∀ (s : State) (k : Fin 16) (p : List Byte),
  (∀ r ∈ ndRows k p, s.Live →
    (firmwareRuns s.ctl s.dev = false ∨ inHand (s.dev.mbx k.val) = true ∨ (s.dev.mbx k.val).st = .notReady → exec r.1 s = .next (s.withDev s.here)) ∧
    (firmwareRuns s.ctl s.dev = true → inHand (s.dev.mbx k.val) = false → (s.dev.mbx k.val).st ≠ .notReady → exec r.1 s = .next (s.withDev (takeUntil .done k.val s.ctl 32
      (s.here.modMbx k.val (fun m => { putArea 0 (sealed r.2.1 (nextSeq s k.val) 0 r.2.2) m with st := .pending })))))) ∧
  (∀ r ∈ ndRows k p, Takes s k.val r.2.1 r.2.2 →
    (∀ st, notAccepted r.2.1 r.2.2 (taken s k.val r.2.1 r.2.2) = some st → exec r.1 s = .next (s.withDev (endCommand k.val r.2.1 (nextSeq s k.val) st [] s.ctl (taken s k.val r.2.1 r.2.2)))) ∧
    (notAccepted r.2.1 r.2.2 (taken s k.val r.2.1 r.2.2) = none → hostGone r.2.1 r.2.2 (taken s k.val r.2.1 r.2.2) = true →
      exec r.1 s = .next (s.withDev (endCommand k.val r.2.1 (nextSeq s k.val) 9 [] s.ctl (taken s k.val r.2.1 r.2.2)))) ∧
    (notAccepted r.2.1 r.2.2 (taken s k.val r.2.1 r.2.2) = none → hostGone r.2.1 r.2.2 (taken s k.val r.2.1 r.2.2) = false →
      exec r.1 s = .next (s.withDev (settleCommand k.val r.2.1 (nextSeq s k.val) (runOpcode .done k.val r.2.1 r.2.2 s.ctl (taken s k.val r.2.1 r.2.2)) s.ctl)))) ∧
  (∀ (op seq st : Nat) (reply : List Byte) (d : Dev), reply.length ≤ 4080 →
    let t := endCommand k.val op seq st reply s.ctl d
    (t.mbx k.val).st = .done ∧ (t.mbx k.val).result = BitVec.ofNat 4 st ∧ (t.mbx k.val).seq = BitVec.ofNat 16 seq ∧ (t.mbx k.val).irqPend = true ∧
    areaBytes (t.mbx k.val) 0 (16 + reply.length) = sealed op seq st reply ∧ (∀ j, j ≠ k.val → t.mbx j = d.mbx j) ∧ { t with silkai := d.silkai, out := d.out } = d)

/-- Row `i` ends with a status and a reply, and leaves the device it was taken in changed to `f` of it. -/
def Sys2Proof.Ends (s : State) (k : Fin 16) (i : Instr) (op : Nat) (bs : List Byte) (st : Nat) (reply : List Byte) (f : Dev → Dev) : Prop :=
  exec i s = .next (s.withDev (endCommand k.val op (nextSeq s k.val) st reply s.ctl (f (taken s k.val op bs))))

/-- R417 to R419, R426, R429, R510, R512: what the Ndeler commands of identity, tiers, buffers, regions, fabric, faults, retirement, power and telemetry do when
their checks pass. -/
def Obligations.NdSetupCommandsAct : Prop := ∀ (s : State) (k : Fin 16) (p : List Byte),
  (Takes s k.val 1 p → leAt p 0 1 = 3 → leAt p 1 1 ≤ 2 → ∃ reply, Ends s k (.ndHello k p) 1 p 0 reply id ∧ reply.length = 32 ∧ leAt reply 0 2 = 0xC096 ∧ leAt reply 4 1 = 3 ∧ leAt reply 5 1 = 2 ∧
    leAt reply 8 4 = s.ctl.boot.fwVersion.toNat ∧ leAt reply 12 1 = s.ctl.boot.fwSlot.toNat ∧ leAt reply 16 8 = s.ctl.fuses.serial.toNat ∧ leAt reply 24 1 = k.val) ∧
  (Takes s k.val 0x0100 p → s.dev.silkai.allocs = [] → s.dev.life.loaded = false → leAt p 0 1 < 2 → leAt p 1 1 ≤ 3 → Ends s k (.ndTierMode k p) 0x0100 p 0 [] (fun d =>
    d.modFar (fun f => { f with unified := leAt p 0 1 == 1, peers := (List.range (leAt p 1 1)).map (fun i => leAt p (4 + 2 * i) 2) }))) ∧
  (∀ h a : Nat, Takes s k.val 0x0101 p → leAt p 0 8 ≠ 0 → leAt p 8 1 = 0 → leAt p 9 1 = 0 → leAt p 10 1 ≤ 30 → s.dev.far.unified = false → freeHandle s.dev = some h →
    findPlace s.dev.free 0 0x7FE0000000 (2 ^ max 12 (leAt p 10 1)) (roundUp (leAt p 0 8) 4096) (nearTaken s.dev) = some a →
    Ends s k (.ndAlloc k p) 0x0101 p 0 (payloadOf 32 [(0, 4, h), (8, 8, a), (16, 8, roundUp (leAt p 0 8) 4096), (24, 4, 0)]) (fun d => ({ d with free := d.free + 2 }).modSilkai (fun m =>
      { m with allocs := tabPut m.allocs h { tier := 0, addr := a, size := roundUp (leAt p 0 8) 4096, extent := roundUp (leAt p 0 8) 4096 } }))) ∧
  (∀ a : Alloc, Takes s k.val 0x0102 p → tabFind s.dev.silkai.allocs (leAt p 0 4) = some a → a.tier ≠ 1 → a.addr < 0x200000000000 →
    (s.dev.silkai.regions.all (fun r => !overlaps a.addr a.extent r.2.base r.2.len)) = true → Ends s k (.ndFree k p) 0x0102 p 0 [] (fun d =>
      d.modSilkai (fun m => { m with allocs := tabDel m.allocs (leAt p 0 4) }))) ∧
  (∀ i : Nat, let b := withByte 0 0 p;
    Takes s k.val 0x0103 b → leAt b 1 1 < 16 → leAt b 16 8 ≠ 0 → registrable s.dev (leAt b 8 8) (leAt b 16 8) = true →
    findFree s.dev.free 0 4096 (fun i => (tabFind s.dev.silkai.regions i).isSome) = some i → Ends s k (.ndRegionRegister k p) 0x0103 b 0 (payloadOf 8 [(0, 4, i)]) (fun d =>
      ({ d with free := d.free + 1 }).modSilkai (fun m => { m with regions := tabPut m.regions i { base := leAt b 8 8, len := leAt b 16 8, engine := bitAt (leAt b 1 1) 0, fabRd := bitAt (leAt b 1 1) 1, fabWr := bitAt (leAt b 1 1) 2, fabAtom := bitAt (leAt b 1 1) 3 } }))) ∧
  (let b := withByte 0 1 p;
    Takes s k.val 0x0103 b → leAt b 1 1 < 16 → (tabFind s.dev.silkai.regions (leAt b 4 4)).isSome = true → Ends s k (.ndRegionUnregister k p) 0x0103 b 0 (payloadOf 8 []) (fun d =>
      d.modSilkai (fun m => { m with regions := tabDel m.regions (leAt b 4 4) }))) ∧
  (Takes s k.val 0x0401 p → s.dev.life.loaded = false → s.dev.fab.flows = [] → Ends s k (.ndFabLeave k p) 0x0401 p 0 [] (fun d =>
    d.modFab (fun f => { f with joined := false, leaving := false }))) ∧
  (Takes s k.val 0x0403 p → (s.dev.flow (leAt p 0 2)).state = .failed → Ends s k (.ndFlowClose k p) 0x0403 p 0 [] (fun d => d.modFlow (leAt p 0 2) (fun x => { x with state := .closed }))) ∧
  (∀ g : Group, let b := withByte 0 1 p;
    Takes s k.val 0x0404 b → s.dev.fab.joined = true → leAt b 4 4 = 0 → leAt b 9 1 < 4 → tabFind s.dev.coll.groups (leAt b 2 2) = some g → s.dev.life.loaded = false → ∃ t,
      exec (.ndCollGroupDelete k p) s = .next t ∧ t.dev.coll.groups = tabDel s.dev.coll.groups (leAt b 2 2) ∧ (t.dev.mbx k.val).st = .done ∧ (t.dev.mbx k.val).result = 0) ∧
  (let b := withByte 0 1 p;
    Takes s k.val 0x0600 b → s.ctl.cfg.faultCfgLock = false → leAt b 4 1 = 1 → leAt b 5 1 ≤ 3 → 20 ≤ leAt b 8 4 → leAt b 8 4 ≤ 10000 → Ends s k (.ndFaultCfgPin k p) 0x0600 b 0 [] (fun d =>
      d.modFc (fun f => setPinMode false { f with threshold := BitVec.ofNat 2 (leAt b 5 1), pulseMinUs := BitVec.ofNat 14 (leAt b 8 4) }))) ∧
  (let b := withByte 0 0 p;
    Takes s k.val 0x0600 b → s.ctl.cfg.faultCfgLock = false → leAt b 2 2 < 480 → (s.dev.fc.src (leAt b 2 2)).lock = false → sevFixed (leAt b 2 2) = false → leAt b 4 1 ≤ 3 → leAt b 5 1 = 0 →
      Ends s k (.ndFaultCfgSource k p) 0x0600 b 0 [] (fun d => d.modFc (writeSeverity false (leAt b 2 2) (leAt b 4 1 + 256)))) ∧
  (∀ q ∈ [(Instr.ndFaultLogFaults k p, 0), (.ndFaultLogOrphans k p, 1), (.ndFaultLogRepairs k p, 2)], let b := withByte 0 q.2 p;
    Takes s k.val 0x0601 b → leAt b 12 1 = 0 → leAt b 8 4 ≤ 4064 / (logEntries q.2 s.dev).1 →
    Ends s k q.1 0x0601 b 0 (entriesReply (logEntries q.2 s.dev).1 (leAt b 4 4) (leAt b 8 4) (logEntries q.2 s.dev).2.length (logEntries q.2 s.dev).2) id) ∧
  (let b := withByte 0 1 p;
    Takes s k.val 0x0602 b → leAt b 4 4 < 512 → (s.dev.pc (leAt b 4 4)).st = .active → s.dev.near.pcs.any (fun p => pcStaged p.2) = false →
    Ends s k (.ndRetirePcRetrain k p) 0x0602 b 0 [] (wantRetrain (leAt b 4 4))) ∧
  (let b := withByte 0 2 p;
    Takes s k.val 0x0602 b → leAt b 4 4 < 512 → (s.dev.pc (leAt b 4 4)).st ≠ .retired → s.dev.near.pcs.any (fun p => pcStaged p.2) = false →
    Ends s k (.ndRetirePcRetire k p) 0x0602 b 0 [] (degrade (leAt b 4 4))) ∧
  (let b := withByte 0 3 p;
    Takes s k.val 0x0602 b → leAt b 4 4 < 64 → bitAt s.dev.fab.laneFail.toNat (leAt b 4 4) = false →
    Ends s k (.ndRetireEthLane k p) 0x0602 b 0 [] (fun d => flashLog s.ctl 4 (leAt b 4 4) 0 0 (failLane (leAt b 4 4) s.ctl d))) ∧
  (Takes s k.val 0x0700 p → 400 ≤ leAt p 0 4 → leAt p 0 4 ≤ 1600 → leAt p 4 4 = 0 → Ends s k (.ndPowerLimit k p) 0x0700 p 0 [] (fun d =>
    d.modPwr (fun w => { w with limit := BitVec.ofNat 11 (leAt p 0 4) }))) ∧
  (let b := withByte 0 1 p;
    Takes s k.val 0x0702 b → 100 ≤ leAt b 4 4 → leAt b 4 4 ≤ 1000000 → Ends s k (.ndTelemetryPeriod k p) 0x0702 b 0 [] (fun d =>
      d.modSilkai (fun m => { m with period := BitVec.ofNat 32 (leAt b 4 4) }))) ∧
  (let b := withByte 0 2 p;
    Takes s k.val 0x0702 b → Ends s k (.ndTelemetryRewrite k p) 0x0702 b 0 [] (rewriteTelemetry s.ctl))

/-- R415, R420 to R423, R429, R439, R484: what the Ndeler commands of the schedule, parameters, benches, snapshots and firmware do when their checks pass: a load copies the
program, a start enters FORWARD, a stop with nothing running ends at once and with a program running waits; an opened flow waits for
its peer; TABLE discards the definitions; JOB and ENTRY configure the optimiser; a bench is retired; pins are dropped. -/
def Obligations.NdJobCommandsAct : Prop := ∀ (s : State) (k : Fin 16) (p : List Byte),
  (Takes s k.val 0x0200 p → s.dev.life.loaded = false → leAt p 8 4 ≠ 0 → loadCheck (taken s k.val 0x0200 p) (leAt p 0 8) (leAt p 8 4) = none →
    Ends s k (.ndJigLoad k p) 0x0200 p 0 (List.replicate 16 0) (doLoad (leAt p 0 8) (leAt p 8 4))) ∧
  (Takes s k.val 0x0201 p → s.dev.life.loaded = true → s.dev.life.starting = false → s.dev.life.state = .idle → s.dev.life.reload = false →
    s.dev.life.nextStep = none ∨ s.dev.life.nextStep = some (leAt p 0 8) → ∃ t, exec (.ndJigStart k p) s = .next t ∧ (t.dev.mbx k.val).st = .done ∧ (t.dev.mbx k.val).result = 0 ∧
      (s.dev.planes = [] → t.dev.life.state = .forward ∧ t.dev.life.step = BitVec.ofNat 64 (leAt p 0 8))) ∧
  (Takes s k.val 0x0202 p → leAt p 0 4 < 2 → s.dev.life.loaded = true → s.dev.life.state = .forward → ∃ t, exec (.ndJigStop k p) s = .next t ∧ (t.dev.mbx k.val).st = .busy ∧
    (t.dev.mbx k.val).waiting = some (.jigStop (bitAt (leAt p 0 4) 0)) ∧ t.dev.life = { s.dev.life with stopPending := some (s.dev.life.stopPending.getD false || bitAt (leAt p 0 4) 0) }) ∧
  (Takes s k.val 0x0202 p → leAt p 0 4 < 2 → s.dev.life.loaded = true → s.dev.life.state = .idle → Ends s k (.ndJigStop k p) 0x0202 p 0 [] (stopNow (bitAt (leAt p 0 4) 0))) ∧
  (Takes s k.val 0x0402 p → s.dev.fab.joined = true → leAt p 6 1 ≤ 15 → leAt p 7 1 ≤ 7 → (s.dev.node (leAt p 2 2)).live = true → (s.dev.node (leAt p 2 2)).lost = false →
    (s.dev.flow (leAt p 0 2)).state = .closed → ∃ t, exec (.ndFlowOpen k p) s = .next t ∧ (t.dev.mbx k.val).st = .busy ∧ (t.dev.mbx k.val).waiting = some (.flowOpen (leAt p 0 2) ((s.dev.flow (leAt p 0 2)).gen + 1).toNat) ∧
      (t.dev.flow (leAt p 0 2)).state = .opening ∧ (t.dev.flow (leAt p 0 2)).peerNode = leAt p 2 2 ∧ (t.dev.flow (leAt p 0 2)).gen = (s.dev.flow (leAt p 0 2)).gen + 1) ∧
  (let b := withByte 0 0 p;
    Takes s k.val 0x0300 b → s.dev.life.loaded = false → leAt b 8 8 % 256 = 0 → 1 ≤ leAt b 16 4 → leAt b 16 4 ≤ 65536 → s.dev.engineSpan (leAt b 8 8) (256 * leAt b 16 4) = true →
    s.dev.isNear (leAt b 8 8) (256 * leAt b 16 4) = true → stageAreas s.dev b = true → ∃ t, exec (.ndPanelDefineTable k p) s = .next t ∧ t.dev.opt.panels = [] ∧ t.dev.silkai.panelTable = true ∧
      ∀ h : Fin 8, (t.dev.plane h.val).panelBase = BitVec.ofNat 48 (leAt b 8 8) ∧ (t.dev.plane h.val).panelCount = BitVec.ofNat 17 (leAt b 16 4) ∧ (t.dev.plane h.val).cur = none) ∧
  (let b := withByte 0 1 p;
    Takes s k.val 0x0300 b → s.dev.life.loaded = false → s.dev.silkai.panelTable = true → leAt b 4 4 = 0 → leAt b 16 4 ≤ (s.dev.plane 0).panelCount.toNat → ((panels s.dev).map areaOf).sum ≤ s.dev.aux.oraLen - 0x8000000 →
      Ends s k (.ndPanelDefineDefine k p) 0x0300 b 0 [] id) ∧
  (let b := withByte 0 0 p;
    Takes s k.val 0x0301 b → s.dev.life.loaded = false → leAt b 1 1 = 0 ∨ leAt b 1 1 = 1 → signedByte (leAt b 7 1) ≤ signedByte (leAt b 6 1) → signedByte (leAt b 6 1) ≤ signedByte (leAt b 8 1) →
    leAt b 4 2 ≤ leAt b 2 2 → 0 < leAt b 2 2 → leAt b 2 2 ≤ 8192 → leAt b 16 8 = 0 → s.dev.coll.groups = [] → ∃ t, exec (.ndOptConfigJob k p) s = .next t ∧ t.dev.opt.configured = true ∧
      t.dev.opt.mbCount = leAt b 2 2 ∧ t.dev.opt.mbMin = leAt b 4 2 ∧ t.dev.opt.seed = BitVec.ofNat 64 (leAt b 24 8) ∧ t.dev.opt.ordered = (leAt b 1 1 == 1) ∧ (t.dev.mbx k.val).result = 0) ∧
  (let b := withByte 0 1 p;
    Takes s k.val 0x0301 b → leAt b 1 1 < 16 → leAt b 2 1 < 3 → leAt b 3 1 = 0 → tabGet [] s.dev.opt.sets (leAt b 1 1) = [] → s.dev.life.started = false → s.dev.planes = [] →
      Ends s k (.ndOptConfigEntry k p) 0x0301 b 0 [] (fun d => d.modOpt (fun o => { o with sets := tabPut o.sets (leAt b 1 1) [optEntryOf b] }))) ∧
  (∀ u : Nat, let b := withByte 0 0 p;
    Takes s k.val 0x0602 b → leAt b 4 4 = u → u < 132 → s.dev.life.loaded = false → bitAt (s.dev.active.getD (u / 33) 0).toNat (u % 33) = true → benchRetired s.dev u = false →
    s.dev.active.length = 4 → spareUnused s.ctl s.dev (u / 33) = true → u % 33 ≠ s.ctl.fuses.spare.getD (u / 33) 32 → s.ctl.fuses.spare.getD (u / 33) 32 < 33 → ∃ t, exec (.ndRetireBench k p) s = .next t ∧
      bitAt (t.dev.active.getD (u / 33) 0).toNat (u % 33) = false ∧ bitAt (t.dev.active.getD (u / 33) 0).toNat (s.ctl.fuses.spare.getD (u / 33) 32) = true ∧
      tabFind t.dev.benches u = none ∧ (t.dev.mbx k.val).st = .done) ∧
  (let b := withByte 20 0 p;
    Takes s k.val 0x0500 b → snapBusy s.dev = false → Ends s k (.ndSnapshotUnpin k p) 0x0500 b 0 (payloadOf 16 [(0, 4, 0), (8, 8, s.dev.life.step.toNat)]) unpinAll) ∧
  (∀ (fl : FlashRun), ∀ q ∈ [(Instr.ndFwUpdateFirmware k p fl, false), (.ndFwUpdateConfig k p fl, true)], let b := withByte 0 (b2n q.2) p;
    Takes s k.val 0x0701 b → s.ctl.cfg.fwUpdateLock = false →
    (updateRuns s.dev = true → rangeOf (leAt b 8 8) ≠ .host → Ends s k q.1 0x0701 b 1 [] id) ∧
    (updateRuns s.dev = false → leAt b 16 4 ≠ 0 → rangeOf (leAt b 8 8) ≠ .host → leAt b 16 4 ≤ (if q.2 then 65536 else 0x800000) → s.dev.engineSpan (leAt b 8 8) (leAt b 16 4) = true →
      s.dev.peekPoison (leAt b 8 8) (leAt b 16 4) = false → let img := s.dev.peekBytes (leAt b 8 8) (leAt b 16 4);
      ((if q.2 then cfgValid img else imageSigned s.ctl.fuses img && svnOk s.ctl.fuses img) = true →
        (fl = .done → Ends s k q.1 0x0701 b 0 (flashDone s.ctl q.2 img s.here).1 (fun d => (flashDone s.ctl q.2 img d).2)) ∧
        (fl = .fails → Ends s k q.1 0x0701 b 0xD [] (flashFailed s.ctl q.2 (leAt b 16 4))) ∧
        (fl = .runs → ∃ t, exec q.1 s = .next t ∧ (t.dev.mbx k.val).st = .busy ∧ (t.dev.mbx k.val).waiting = some (.fwUpdate q.2 img) ∧ t.dev.flash.records = s.dev.flash.records)) ∧
      ((if q.2 then cfgValid img else imageSigned s.ctl.fuses img && svnOk s.ctl.fuses img) = false →
        Ends s k q.1 0x0701 b (if q.2 || !imageSigned s.ctl.fuses img then 0xD else 6) [] id)))

/-! ## Registers (12, R16 to R21, R524) -/

/-- R16, R19, R20, R21, R524: a write of a requester that reaches a register of its width writes it whole, a read of its width answers it; a write to an address without a register is
dropped and recorded, and a read of it, or of a width that is neither 4 nor 8, answers zero and is recorded. A counter loads the written value; a 64-bit counter written by its low half keeps its high half, and a read of its low
half answers it and latches the high half for that requester. A write to JIG_CTR_ADD adds, and by halves it acts with the high one. -/
def Obligations.RegistersTakeWrites : Prop := ∀ (s : State) (p : Fin 16), s.Live → arrives s.dev p.val = true →
  (∀ (a : BitVec 48) (v : W64) (r : Reg), isCsr a.toNat = true → 8 ≤ p.val ∨ ptPermits s.ctl .puwell 2 a.toNat 4 = true → a.toNat % 4 = 0 → regAt s.ctl s.here p.val a.toNat = some r →
    r.width = 32 → exec (.registerWrite p a 4 v) s = .next (s.withBoth (writeWhole r a.toNat p.val (v.toNat % 2 ^ 32) s.ctl s.here).1 (writeWhole r a.toNat p.val (v.toNat % 2 ^ 32) s.ctl s.here).2)) ∧
  (∀ (a : BitVec 48) (r : Reg), isCsr a.toNat = true → 8 ≤ p.val ∨ ptPermits s.ctl .puwell 1 a.toNat 4 = true → a.toNat % 4 = 0 → regAt s.ctl s.here p.val a.toNat = some r →
    r.width = 32 → exec (.counterLowHalfRead p a) s = .next (s.withDev (s.here.emit (.value p.val a.toNat (r.read s.ctl s.here % 2 ^ 32))))) ∧
  (∀ (a : BitVec 48) (r : Reg), isCsr a.toNat = true → 8 ≤ p.val ∨ ptPermits s.ctl .puwell 1 a.toNat 8 = true → a.toNat % 8 = 0 → regAt s.ctl s.here p.val a.toNat = some r →
    r.width = 64 → exec (.counterLowHalfRead p a 8) s = .next (s.withDev (s.here.emit (.value p.val a.toNat (r.read s.ctl s.here % 2 ^ 64))))) ∧
  (∀ (a : BitVec 48) (n : Nat), isCsr a.toNat = true → n ≠ 4 → n ≠ 8 → exec (.counterLowHalfRead p a n) s =
    .next (s.withDev ((dropRead a.toNat p.val s.ctl s.here).emit (.value p.val a.toNat 0)))) ∧
  (∀ a : BitVec 48, isCsr a.toNat = true → regAt s.ctl s.here p.val a.toNat = none → regAt s.ctl s.here p.val (a.toNat - 4) = none →
    exec (.counterLowHalfRead p a) s = .next (s.withDev ((dropRead a.toNat p.val s.ctl s.here).emit (.value p.val a.toNat 0)))) ∧
  (∀ (a : BitVec 48) (v : W64) (r : Reg), isCsr a.toNat = true → 8 ≤ p.val ∨ ptPermits s.ctl .puwell 2 a.toNat 8 = true → a.toNat % 8 = 0 → regAt s.ctl s.here p.val a.toNat = some r →
    r.width = 64 → exec (.registerWrite p a 8 v) s = .next (s.withBoth (writeWhole r a.toNat p.val v.toNat s.ctl s.here).1 (writeWhole r a.toNat p.val v.toNat s.ctl s.here).2)) ∧
  (∀ (a : BitVec 48) (v : W64), isCsr a.toNat = true → 8 ≤ p.val ∨ ptPermits s.ctl .puwell 2 a.toNat 8 = true → regAt s.ctl s.here p.val a.toNat = none →
    exec (.registerWrite p a 8 v) s = .next (s.withDev (dropWrite a.toNat p.val s.ctl s.here))) ∧
  (p = 15 → ∀ i : Fin 132, s.dev.benchActive i.val = true →
    (∀ v : W64, exec (.registerWrite p (0x3F0100004018 + BitVec.ofNat 48 (0x10000 * i.val)) 8 v) s = .next (s.withDev (s.here.modBench i.val (fun b => { b with mx := { b.mx with busyClk := v } })))) ∧
    (∀ v : W32, exec (.registerLowHalfWrite p (0x3F0100004018 + BitVec.ofNat 48 (0x10000 * i.val)) v) s =
      .next (s.withDev (s.here.modBench i.val (fun b => { b with mx := { b.mx with busyClk := (s.dev.bench i.val).mx.busyClk.extractLsb' 32 32 ++ v } })))) ∧
    (∃ t, exec (.counterLowHalfRead p (0x3F0100004018 + BitVec.ofNat 48 (0x10000 * i.val))) s = .next t ∧
      t.dev.out = [.value 15 (0x3F0100004018 + 0x10000 * i.val) ((s.dev.bench i.val).mx.busyClk.toNat % 2 ^ 32)] ∧
      tabGet 0 t.dev.hiLatch (latchKey 15 (0x3F0100004018 + 0x10000 * i.val)) = (s.dev.bench i.val).mx.busyClk.extractLsb' 32 32 ∧
      (∀ q, q ≠ latchKey 15 (0x3F0100004018 + 0x10000 * i.val) → tabFind t.dev.hiLatch q = tabFind s.dev.hiLatch q) ∧ { t.dev with hiLatch := s.dev.hiLatch, out := [] } = s.here) ∧
    (∀ h : W32, tabFind s.dev.hiLatch (latchKey 15 (0x3F0100004018 + 0x10000 * i.val)) = some h → ∃ t,
      exec (.counterLowHalfRead p (0x3F010000401C + BitVec.ofNat 48 (0x10000 * i.val))) s = .next t ∧
      t.dev.out = [.value 15 (0x3F010000401C + 0x10000 * i.val) h.toNat] ∧ tabFind t.dev.hiLatch (latchKey 15 (0x3F0100004018 + 0x10000 * i.val)) = none)) ∧
  (∀ (j : Fin 5) (v : W64), reachesCsr s.ctl p.val 2 (jigBase j.val + 0x40) 8 = true → s.dev.fc.entering = false → bits v.toNat 0 12 < ctrCount j.val →
    exec (.jigCtrAddWrite j p v) s = .next (s.withDev (s.here.signal j.val (bits v.toNat 0 12) (bits v.toNat 32 32)))) ∧
  (∀ lo hi : W32, p = 15 → s.dev.fc.entering = false → bits lo.toNat 0 12 < 4096 → ∃ t u, exec (.registerLowHalfWrite p 0x3F0002000040 lo) s = .next t ∧ t.dev.jigs = s.dev.jigs ∧
    exec (.registerLowHalfWrite p 0x3F0002000044 hi) t = .next u ∧ u.dev.jigs = (s.dev.signal 4 (bits lo.toNat 0 12) hi.toNat).jigs)

/-! ## The whole block -/

/-- Each command waits in the queue until it is at the front; then step is exec of it on the state with the queue's rest. With none waiting one
tick of the timebase passes (the model's choice, log entry 2). No table word spells a command. -/
def Obligations.StepRunsTheFrontCommand : Prop :=
  (∀ (i : Instr) (rest : List Instr) (s : State), step { s with pending := i :: rest } = exec i { s with pending := rest }) ∧
  (∀ s : State, s.pending = [] → step s = .next s.tick) ∧ (∀ n w : Nat, decodeTableWord n w = none) ∧ ∀ (s : State) (n w : Nat), s.withFetchWord n w = s

/-- Every command goes on, in every state: neither a fault nor a refusal; and no command touches the queue of those that wait. -/
def Obligations.EveryCommandGoesOn : Prop := (∀ (i : Instr) (s : State), ∃ t, exec i s = .next t ∧ t.pending = s.pending) ∧ ∀ s : State, s.goesOn

/-- R460: the commands of the blocks that the safe state stops: jigs, benches, stagers, planes, collective and fabric engines, caches, links, and the
host's snoops and accesses in flight. -/
def Sys2Proof.StoppedWhenSafe : Instr → Prop
  | .wakeRequest .. | .wakeAdmit .. | .wakeRampStep .. | .spadOwnerWrite .. | .spadOwnerSetWrite .. | .spadPairWrite .. | .spadStatOwnerWrite .. | .spadHandoverEnd ..
  | .spadAccess .. | .spadAccessAccept .. | .spadWaitLimitExpiry .. | .spadWindowAccess .. | .strmSubmitWrite .. | .mxTaskIssue .. | .mxPartialWaitRelease .. | .mxTaskComplete .. | .load .. | .store .. | .statSave .. | .statLoad .. | .dmaDescComplete ..
  | .copy .. | .fill .. | .bcast .. | .add .. | .sub .. | .mul .. | .fma .. | .min .. | .max .. | .abs .. | .neg .. | .colAdd .. | .rowMul .. | .cmpGt .. | .select ..
  | .div .. | .recip .. | .sqrt .. | .rsqrt .. | .log .. | .func .. | .dfunc .. | .rowSum .. | .rowMax .. | .rowTopk .. | .compress .. | .expand .. | .gather ..
  | .vecTaskComplete .. | .lnFwd .. | .rmsFwd .. | .smFin .. | .lnBwd .. | .rmsBwd .. | .smBwd .. | .rowTaskComplete .. | .nop .. | .jigMx .. | .jigVec .. | .jigRow ..
  | .jigDma .. | .handover .. | .stager .. | .gate .. | .phase .. | .loop .. | .release .. | .coll .. | .endRec .. | .jigRecordComplete .. | .jigWaitTimeoutExpiry ..
  | .jigPhaseBoundaryPass .. | .jigHoistIssue .. | .streamFillStart .. | .streamBlockArrival .. | .streamSlotFull .. | .streamWatchdogExpiry .. | .get .. | .put ..
  | .segmentSeal .. | .stagerDescComplete .. | .farRepairFetchDone .. | .farSegmentRewriteDone .. | .pagePromoteStart .. | .pagePromoteDone .. | .pageDemoteStart ..
  | .pageDemoteDone .. | .strmEpochEnd .. | .nearCeWriteback .. | .writeQueueAgeExpiry .. | .refreshDue .. | .scrubRead .. | .softPprStart ..
  | .softPprDone .. | .pcStagingDone .. | .pcRetrainDone .. | .pcRestoreDone .. | .pcRetirementStart .. | .pcSacrificedRangeEmpty .. | .pcRetirementCopyDone ..
  | .planeUpdateStart .. | .planeCommit .. | .sealPutDone .. | .write ..
  | .readReq .. | .readResp .. | .atomicAdd .. | .fetchAdd .. | .cmpSwap .. | .atomicResp .. | .signal .. | .panelAdd .. | .mirror .. | .mirrorCredit .. | .twinDone ..
  | .ack .. | .status .. | .rnr .. | .heartbeat .. | .flowOpen .. | .rawFrameReceive .. | .pfcFrameReceive .. | .frameLossTimeout .. | .ackDelayExpiry ..
  | .ccPeriodTick .. | .flowOpenResend .. | .heartbeatSend .. | .peerLossExpiry .. | .pathPenaltyExpiry .. | .rnrRetransmit .. | .rawTxPoll .. | .fabricWindowAccess ..
  | .ethLaneFail .. | .ethPortRetrainDone .. | .ethPortLinkUp .. | .gradSend .. | .reduceScatter .. | .allGather .. | .allReduce .. | .broadcast .. | .barrier ..
  | .clamp .. | .dovetail .. | .collData .. | .barrierUp .. | .barrierDown .. | .dovePull .. | .doveWaveBarrierDone .. | .collOpComplete .. | .clampRecordReady ..
  | .clampWaitExpiry .. | .clampPart .. | .clampChildDeadline .. | .clampResult .. | .clampAck .. | .clampQuery .. | .clampNone .. | .clampResultWaitExpiry ..
  | .coreLoad .. | .coreStore .. | .cacheReplacement .. | .retryBackoffExpiry .. | .memclnevct .. | .snpinv .. | .snpdata .. | .snpcur .. | .snoopResponse .. | .grant ..
  | .grantack .. | .wback .. | .retry .. | .cohSnoopTimeoutExpiry .. | .biconflict .. | .hostH2dSnoop .. | .collectivePartTimeout .. | .hostCompletion .. => True
  | _ => False

/-- R460: from the start of the entry into the safe state on, none of these does anything. -/
def Obligations.SafeStateStopsTheBlocks : Prop := ∀ (i : Instr) (s : State), StoppedWhenSafe i → s.dev.fc.entering = true → exec i s = .next s

/-- R109: a write to SPAD_PAIR is decided bit by bit: an equal bit is left and not tested; a bit that would change takes effect only with both banks of
its pair owned by NONE and no handover in progress on either; otherwise it keeps its value and SPAD_HANDOVER_FAIL_CNT increments once for it.
Owners, handovers and the contents of every pair whose pairing does not change stay. -/
def Obligations.PairWritesAreDecidedBitByBit : Prop := ∀ (s : State) (i : Fin 132) (v : W32), s.Works → s.dev.benchActive i.val = true →
  let b := s.dev.bench i.val
  let wants := fun (k : Nat) => bitAt v.toNat k != bitAt b.paired.toNat k
  let free := fun (k : Nat) => tabGet 0 b.owner (2 * k) == 7 && tabGet 0 b.owner (2 * k + 1) == 7 && !bitAt b.handover.toNat (2 * k) && !bitAt b.handover.toNat (2 * k + 1)
  ∃ t, exec (.spadPairWrite i v) s = .next t ∧
    (∀ k < 8, bitAt (t.dev.bench i.val).paired.toNat k = if wants k && free k then bitAt v.toNat k else bitAt b.paired.toNat k) ∧
    (t.dev.bench i.val).handoverFailCnt = cntAdd b.handoverFailCnt ((List.range 8).filter (fun k => wants k && !free k)).length ∧
    (t.dev.bench i.val).owner = b.owner ∧ (t.dev.bench i.val).handover = b.handover ∧
    (∀ o, o < 0x200000 → (wants (o / 0x40000) && free (o / 0x40000)) = false → spadRd (t.dev.bench i.val).spad o = spadRd b.spad o) ∧
    (∀ j, j ≠ i.val → t.dev.bench j = s.dev.bench j) ∧ { t.dev with benches := s.dev.benches, free := s.dev.free } = s.here ∧ t.ctl = s.ctl
end

