-- ==== Sys2Proof/Laws/Tab.lean ====
section
/-! SUPPORT. Reading a sparse table after an update, and that every update keeps the canonical form. -/

namespace Sys2Proof.Machine

variable {α : Type}

theorem tabFind_del_same (t : Tab α) (k : Nat) : tabFind (tabDel t k) k = none := by
  induction t with
  | nil => rfl
  | cons p t ih =>
    unfold tabDel at ih ⊢
    by_cases h : p.1 = k
    · simp [h, ih]
    · simp [h, tabFind, ih]

theorem tabFind_del_ne (t : Tab α) {k q : Nat} (h : q ≠ k) : tabFind (tabDel t k) q = tabFind t q := by
  induction t with
  | nil => rfl
  | cons p t ih =>
    unfold tabDel at ih ⊢
    by_cases hk : p.1 = k
    · simp [hk, ih, tabFind, show k ≠ q from fun e => h e.symm]
    · simp [hk, tabFind, ih]

theorem tabFind_ins_same (t : Tab α) (k : Nat) (v : α) (h : tabFind t k = none) : tabFind (tabIns k v t) k = some v := by
  induction t with
  | nil => simp [tabIns, tabFind]
  | cons p t ih =>
    obtain ⟨a, b⟩ := p
    simp only [tabFind] at h
    split at h
    · cases h
    · rename_i hne
      unfold tabIns
      split
      · simp [tabFind]
      · simp [tabFind, hne, ih h]

theorem tabFind_ins_ne (t : Tab α) {k q : Nat} (v : α) (h : q ≠ k) : tabFind (tabIns k v t) q = tabFind t q := by
  induction t with
  | nil => simp [tabIns, tabFind, show k ≠ q from fun e => h e.symm]
  | cons p t ih =>
    obtain ⟨a, b⟩ := p
    unfold tabIns
    split
    · simp [tabFind, show k ≠ q from fun e => h e.symm]
    · simp [tabFind, ih]

@[simp] theorem tabFind_put_same (t : Tab α) (k : Nat) (v : α) : tabFind (tabPut t k v) k = some v :=
  tabFind_ins_same _ _ _ (tabFind_del_same t k)

theorem tabFind_put_ne (t : Tab α) {k q : Nat} (v : α) (h : q ≠ k) : tabFind (tabPut t k v) q = tabFind t q := by
  unfold tabPut
  rw [tabFind_ins_ne _ _ h, tabFind_del_ne _ h]

@[simp] theorem tabGet_set_same [DecidableEq α] (d : α) (t : Tab α) (k : Nat) (v : α) : tabGet d (tabSet d t k v) k = v := by
  unfold tabGet tabSet
  split
  · next h => simp [tabFind_del_same, h]
  · simp

theorem tabGet_set_ne [DecidableEq α] (d : α) (t : Tab α) {k q : Nat} (v : α) (h : q ≠ k) : tabGet d (tabSet d t k v) q = tabGet d t q := by
  unfold tabGet tabSet
  split
  · rw [tabFind_del_ne _ h]
  · rw [tabFind_put_ne _ _ h]

@[simp] theorem tabGet_mod_same [DecidableEq α] (d : α) (t : Tab α) (k : Nat) (f : α → α) : tabGet d (tabMod d t k f) k = f (tabGet d t k) :=
  tabGet_set_same _ _ _ _

theorem tabGet_mod_ne [DecidableEq α] (d : α) (t : Tab α) {k q : Nat} (f : α → α) (h : q ≠ k) : tabGet d (tabMod d t k f) q = tabGet d t q :=
  tabGet_set_ne _ _ _ h

/-! ## Sorted keys -/

/-- Sorted tables as a pairwise statement, which list lemmas speak of. -/
theorem tabSorted_iff (t : Tab α) : tabSorted t = true ↔ t.Pairwise (fun a b => a.1 < b.1) := by
  induction t with
  | nil => simp [tabSorted]
  | cons p t ih =>
    cases t with
    | nil => simp [tabSorted]
    | cons q t =>
      simp only [tabSorted, Bool.and_eq_true, decide_eq_true_eq, ih, List.pairwise_cons (a := p)]
      constructor
      · rintro ⟨h1, h2⟩
        refine ⟨fun x hx => ?_, h2⟩
        rcases List.mem_cons.1 hx with rfl | hx
        · exact h1
        · exact Nat.lt_trans h1 ((List.pairwise_cons.1 h2).1 x hx)
      · rintro ⟨h1, h2⟩
        exact ⟨h1 q (by simp), h2⟩

theorem tabSorted_del (t : Tab α) (k : Nat) (h : tabSorted t = true) : tabSorted (tabDel t k) = true := by
  rw [tabSorted_iff] at h ⊢
  exact h.filter _

theorem mem_tabIns (t : Tab α) (k : Nat) (v : α) (p : Nat × α) (h : p ∈ tabIns k v t) : p = (k, v) ∨ p ∈ t := by
  induction t with
  | nil => simpa [tabIns] using h
  | cons q t ih =>
    unfold tabIns at h
    split at h
    · simpa using h
    · rcases List.mem_cons.1 h with h | h
      · exact .inr (h ▸ .head _)
      · rcases ih h with h | h
        · exact .inl h
        · exact .inr (.tail _ h)

theorem tabSorted_ins (t : Tab α) (k : Nat) (v : α) (h : tabSorted t = true) (hk : ∀ p ∈ t, p.1 ≠ k) : tabSorted (tabIns k v t) = true := by
  rw [tabSorted_iff] at h ⊢
  induction t with
  | nil => simp [tabIns]
  | cons q t ih =>
    obtain ⟨h1, h2⟩ := List.pairwise_cons.1 h
    unfold tabIns
    split
    · next hlt =>
      refine List.pairwise_cons.2 ⟨fun x hx => ?_, h⟩
      rcases List.mem_cons.1 hx with rfl | hx
      · exact hlt
      · exact Nat.lt_trans hlt (h1 x hx)
    · next hge =>
      refine List.pairwise_cons.2 ⟨fun x hx => ?_, ih h2 (fun p hp => hk p (.tail _ hp))⟩
      rcases mem_tabIns t k v x hx with rfl | hx
      · exact Nat.lt_of_le_of_ne (Nat.le_of_not_lt hge) (hk q (.head _))
      · exact h1 x hx

theorem tabSorted_put (t : Tab α) (k : Nat) (v : α) (h : tabSorted t = true) : tabSorted (tabPut t k v) = true := by
  refine tabSorted_ins _ _ _ (tabSorted_del t k h) (fun p hp => ?_)
  simpa using (List.mem_filter.1 hp).2

theorem tabSorted_filter (t : Tab α) (f : Nat × α → Bool) (h : tabSorted t = true) : tabSorted (t.filter f) = true := by
  rw [tabSorted_iff] at h ⊢
  exact h.filter _

theorem tabSorted_set [DecidableEq α] (d : α) (t : Tab α) (k : Nat) (v : α) (h : tabSorted t = true) : tabSorted (tabSet d t k v) = true := by
  unfold tabSet
  split
  · exact tabSorted_del _ _ h
  · exact tabSorted_put _ _ _ h

end Sys2Proof.Machine
end

