-- ==== Sys2Proof/Laws/Bytes.lean ====
section
/-! SUPPORT. Bytes and numbers, the CRC's range, and the bytes of MBX_CMD. -/

namespace Sys2Proof.Machine

open Sys2Proof

@[simp] theorem natLE_length (n v : Nat) : (natLE n v).length = n := by
  induction n generalizing v with
  | zero => rfl
  | succ n ih => simp [natLE, ih]

/-- R12: the little-endian bytes of a number give it back, below the width. -/
theorem leNat_natLE (n v : Nat) : leNat (natLE n v) = v % 256 ^ n := by
  induction n generalizing v with
  | zero => simp [natLE, leNat, Nat.mod_one]
  | succ n ih =>
    simp only [natLE, leNat, ih, BitVec.toNat_ofNat, show (2 : Nat) ^ 8 = 256 from rfl]
    rw [Nat.pow_succ, Nat.mul_comm (256 ^ n) 256, Nat.mod_mul]

theorem leNat_natLE_of_lt {n v : Nat} (h : v < 256 ^ n) : leNat (natLE n v) = v := by rw [leNat_natLE, Nat.mod_eq_of_lt h]

theorem crcBit_lt (r : Nat) (h : r < 2 ^ 32) : crcBit r < 2 ^ 32 := by
  unfold crcBit
  split
  · exact Nat.xor_lt_two_pow (by omega) (by decide)
  · omega

theorem crcByte_lt (r : Nat) (b : Byte) (h : r < 2 ^ 32) : crcByte r b < 2 ^ 32 := by
  unfold crcByte
  have h0 : r ^^^ b.toNat < 2 ^ 32 := Nat.xor_lt_two_pow h (by have := b.isLt; omega)
  repeat (first | exact h0 | refine crcBit_lt _ ?_)

theorem crc32c_lt (bs : List Byte) : crc32c bs < 2 ^ 32 := by
  have h : ∀ (bs : List Byte) (r : Nat), r < 2 ^ 32 → bs.foldl crcByte r < 2 ^ 32 := by
    intro bs
    induction bs with
    | nil => exact fun r h => h
    | cons b bs ih => exact fun r h => ih _ (crcByte_lt r b h)
  exact Nat.xor_lt_two_pow (h bs _ (by decide)) (by decide)

/-- Bytes put into a table read back, and every other place is as it was. -/
theorem tabGet_putBytes (bs : List Byte) (off n : Nat) (t : Tab Byte) (i : Nat) :
    tabGet 0 ((bs.zipIdx n).foldl (fun t p => tabSet 0 t (off + p.2) p.1) t) i =
      if off + n ≤ i ∧ i < off + n + bs.length then bs.getD (i - (off + n)) 0 else tabGet 0 t i := by
  induction bs generalizing n t with
  | nil =>
    rw [if_neg (by simp only [List.length_nil]; omega)]
    rfl
  | cons b bs ih =>
    simp only [List.zipIdx_cons, List.foldl_cons, List.length_cons]
    rw [ih]
    by_cases h : i = off + n
    · subst h
      rw [if_neg (by omega), if_pos (by omega)]
      simp
    · rw [tabGet_set_ne _ _ _ h]
      by_cases h2 : off + (n + 1) ≤ i ∧ i < off + (n + 1) + bs.length
      · rw [if_pos h2, if_pos (by omega)]
        obtain ⟨m, hm⟩ : ∃ m, i - (off + n) = m + 1 := ⟨i - (off + n) - 1, by omega⟩
        rw [hm, show i - (off + (n + 1)) = m by omega]
        simp
      · rw [if_neg h2, if_neg (by omega)]

/-- R405: what a write of MBX_CMD leaves at each offset. -/
theorem putArea_get (off : Nat) (bs : List Byte) (m : Mailbox) (i : Nat) : tabGet 0 (putArea off bs m).area i =
    if off ≤ i ∧ i < off + (bs.take (4096 - off)).length then bs.getD (i - off) 0 else tabGet 0 m.area i := by
  unfold putArea
  simp only
  rw [tabGet_putBytes]
  simp only [Nat.add_zero]
  split
  · next h =>
    simp only [List.length_take] at h
    simp only [List.getD_eq_getElem?_getD, List.getElem?_take]
    rw [if_pos (by omega)]
  · rfl

/-- Bytes written at 0 are read back. -/
theorem areaBytes_putArea (bs : List Byte) (m : Mailbox) (off n : Nat) (h : off + n ≤ bs.length) (hl : bs.length ≤ 4096) :
    areaBytes (putArea 0 bs m) off n = (bs.drop off).take n := by
  unfold areaBytes
  apply List.ext_getElem
  · simp; omega
  · intro i h1 h2
    simp only [List.length_map, List.length_range] at h1
    simp only [List.getElem_map, List.getElem_range, putArea_get, List.getElem_take, List.getElem_drop, List.length_take]
    rw [if_pos (by omega)]
    simp only [List.getD_eq_getElem?_getD, Nat.sub_zero]
    rw [List.getElem?_eq_getElem (by omega)]
    rfl

end Sys2Proof.Machine
end

