-- ==== Sys2Proof/Laws/Memory.lean ====
section
/-! SUPPORT. Memory: a write keeps the canonical form, a read after a write gives the bytes written, and every other byte is as
before. -/

namespace Sys2Proof.Machine

open Sys2Proof

theorem cellRun_keys (a : Nat) (bs : List Byte) (p : Host.Cell) (h : p ∈ cellRun a bs) : a ≤ p.1 ∧ p.1 < a + bs.length := by
  induction bs generalizing a with
  | nil => simp [cellRun] at h
  | cons b bs ih =>
    rcases List.mem_cons.1 h with rfl | h
    · simp
    · have := ih (a + 1) h
      simp only [List.length_cons]
      omega

theorem cellRun_sorted (a : Nat) (bs : List Byte) : (cellRun a bs).Pairwise (fun p q => p.1 < q.1) := by
  induction bs generalizing a with
  | nil => exact .nil
  | cons b bs ih => exact .cons (fun p hp => by have := cellRun_keys _ _ _ hp; simp only; omega) (ih _)

/-- A write keeps the cells' addresses strictly rising. -/
theorem cellsPut_sorted (c : List Host.Cell) (a : Nat) (bs : List Byte) (h : tabSorted c = true) : tabSorted (cellsPut c a bs) = true := by
  rw [tabSorted_iff] at h ⊢
  unfold cellsPut
  refine List.pairwise_append.2 ⟨h.filter _, List.pairwise_append.2 ⟨cellRun_sorted a bs, h.filter _, ?_⟩, ?_⟩
  · intro p hp q hq
    have h1 := cellRun_keys _ _ _ hp
    have h2 := (List.mem_filter.1 hq).2
    simp only [decide_eq_true_eq] at h2
    omega
  · intro p hp q hq
    have h1 := (List.mem_filter.1 hp).2
    simp only [decide_eq_true_eq] at h1
    rcases List.mem_append.1 hq with hq | hq
    · have h2 := cellRun_keys _ _ _ hq
      omega
    · have h2 := (List.mem_filter.1 hq).2
      simp only [decide_eq_true_eq] at h2
      omega

theorem tabFind_append {α : Type} (s t : Tab α) (q : Nat) : tabFind (s ++ t) q = (tabFind s q).or (tabFind t q) := by
  induction s with
  | nil => simp [tabFind]
  | cons p s ih =>
    simp only [List.cons_append, tabFind]
    split
    · simp
    · exact ih

theorem tabFind_filter {α : Type} (t : Tab α) (q : Nat) (f : Nat → Bool) :
    tabFind (t.filter (fun p => f p.1)) q = if f q then tabFind t q else none := by
  induction t with
  | nil => simp [tabFind]
  | cons p t ih =>
    simp only [List.filter_cons]
    by_cases hp : f p.1 = true
    · rw [if_pos hp]
      simp only [tabFind, ih]
      split
      · next h => subst h; simp [hp]
      · rfl
    · rw [if_neg hp, ih]
      simp only [tabFind]
      by_cases h : p.1 = q
      · subst h; simp [hp]
      · rw [if_neg h]

theorem tabFind_cellRun (a q : Nat) (bs : List Byte) : tabFind (cellRun a bs) q = if a ≤ q then bs[q - a]? else none := by
  induction bs generalizing a with
  | nil => simp [cellRun, tabFind]
  | cons b bs ih =>
    simp only [cellRun, tabFind, ih]
    by_cases h : a = q
    · subst h; simp
    · by_cases h' : a ≤ q
      · have e : q - a = (q - (a + 1)) + 1 := by omega
        rw [if_neg h, if_pos (by omega), if_pos h', e, List.getElem?_cons_succ]
      · rw [if_neg h, if_neg (by omega), if_neg h']

/-- What a cell holds after a write: inside the span the byte written, elsewhere what it held. -/
theorem tabFind_cellsPut (c : List Host.Cell) (a q : Nat) (bs : List Byte) :
    tabFind (cellsPut c a bs) q = if a ≤ q ∧ q < a + bs.length then bs[q - a]? else tabFind c q := by
  unfold cellsPut
  rw [tabFind_append, tabFind_append, tabFind_filter c q (fun x => decide (x < a)), tabFind_filter c q (fun x => decide (a + bs.length ≤ x)), tabFind_cellRun]
  by_cases h1 : q < a
  · have e1 : ¬ a ≤ q := by omega
    have e2 : ¬ a + bs.length ≤ q := by omega
    simp [h1, e1, e2]
  · by_cases h2 : q < a + bs.length
    · have e1 : a ≤ q := by omega
      have e2 : ¬ a + bs.length ≤ q := by omega
      have e3 : q - a < bs.length := by omega
      simp [h1, h2, e1, e3]
    · have e1 : a ≤ q := by omega
      have e2 : a + bs.length ≤ q := by omega
      have e3 : bs.length ≤ q - a := by omega
      simp [h1, h2, e1, e2, List.getElem?_eq_none e3]

/-! ## The memory operations keep the canonical form -/

theorem lines_foldl_sorted (ls : List Nat) (t : Tab Bool) (h : tabSorted t = true) : tabSorted (ls.foldl (fun t l => tabPut t l false) t) = true := by
  induction ls generalizing t with
  | nil => exact h
  | cons l ls ih => exact ih _ (tabSorted_put _ _ _ h)

theorem Memory.put_wf (m : Memory) (a : Nat) (bs : List Byte) (h : m.wf = true) : (m.put a bs).wf = true := by
  simp only [Memory.wf, Bool.and_eq_true] at h ⊢
  exact ⟨cellsPut_sorted _ _ _ h.1, lines_foldl_sorted _ _ h.2⟩

theorem Memory.poisonLine_wf (m : Memory) (l : Nat) (h : m.wf = true) : (m.poisonLine l).wf = true := by
  simp only [Memory.wf, Bool.and_eq_true] at h ⊢
  exact ⟨h.1, tabSorted_put _ _ _ h.2⟩

theorem Memory.soundLine_wf (m : Memory) (l : Nat) (h : m.wf = true) : (m.soundLine l).wf = true := by
  simp only [Memory.wf, Bool.and_eq_true] at h ⊢
  exact ⟨h.1, tabSorted_put _ _ _ h.2⟩

theorem Memory.keep_wf (m : Memory) (f : Nat → Bool) (h : m.wf = true) : (m.keep f).wf = true := by
  simp only [Memory.wf, Bool.and_eq_true] at h ⊢
  exact ⟨tabSorted_filter _ _ h.1, tabSorted_filter _ _ h.2⟩

/-- Reading a byte where only some addresses are kept. -/
theorem Memory.byte_keep (m : Memory) (era : Nat × Nat) (f : Nat → Bool) (q : Nat) (h : f q = true) : (m.keep f).byte era q = m.byte era q := by
  simp [Memory.byte, Memory.keep, tabFind_filter, h]

/-- Reading a byte after a write. -/
theorem Memory.byte_put (m : Memory) (era : Nat × Nat) (a q : Nat) (bs : List Byte) :
    (m.put a bs).byte era q = if a ≤ q ∧ q < a + bs.length then bs.getD (q - a) 0 else m.byte era q := by
  simp only [Memory.byte, Memory.put, tabFind_cellsPut]
  split
  · next h =>
    have : q - a < bs.length := by omega
    simp [List.getElem?_eq_getElem this]
  · rfl

@[simp] theorem Memory.byte_poisonLine (m : Memory) (era : Nat × Nat) (l q : Nat) : (m.poisonLine l).byte era q = m.byte era q := rfl

@[simp] theorem Memory.poisoned_poisonLine (m : Memory) (era : Nat × Nat) (l : Nat) : (m.poisonLine l).poisoned era l = true := by
  simp [Memory.poisoned, Memory.poisonLine]

theorem Memory.poisoned_poisonLine_ne (m : Memory) (era : Nat × Nat) {l q : Nat} (h : q ≠ l) : (m.poisonLine l).poisoned era q = m.poisoned era q := by
  simp [Memory.poisoned, Memory.poisonLine, tabFind_put_ne _ _ h]

end Sys2Proof.Machine
end

