-- ==== Sys2Proof/Laws/State.lean ====
section
/-! SUPPORT. What each update of the state leaves: one lemma per field per update, and what reading a unit back gives. -/

namespace Sys2Proof.Machine.Dev

variable (d : Dev)

/-! modBench -/

@[simp] theorem modBench_active (i : Nat) (f : Bench → Bench) : (d.modBench i f).active = d.active := rfl
@[simp] theorem modBench_mem (i : Nat) (f : Bench → Bench) : (d.modBench i f).mem = d.mem := rfl
@[simp] theorem modBench_near (i : Nat) (f : Bench → Bench) : (d.modBench i f).near = d.near := rfl
@[simp] theorem modBench_far (i : Nat) (f : Bench → Bench) : (d.modBench i f).far = d.far := rfl
@[simp] theorem modBench_jigs (i : Nat) (f : Bench → Bench) : (d.modBench i f).jigs = d.jigs := rfl
@[simp] theorem modBench_life (i : Nat) (f : Bench → Bench) : (d.modBench i f).life = d.life := rfl
@[simp] theorem modBench_stagers (i : Nat) (f : Bench → Bench) : (d.modBench i f).stagers = d.stagers := rfl
@[simp] theorem modBench_stream (i : Nat) (f : Bench → Bench) : (d.modBench i f).stream = d.stream := rfl
@[simp] theorem modBench_planes (i : Nat) (f : Bench → Bench) : (d.modBench i f).planes = d.planes := rfl
@[simp] theorem modBench_opt (i : Nat) (f : Bench → Bench) : (d.modBench i f).opt = d.opt := rfl
@[simp] theorem modBench_fab (i : Nat) (f : Bench → Bench) : (d.modBench i f).fab = d.fab := rfl
@[simp] theorem modBench_aux (i : Nat) (f : Bench → Bench) : (d.modBench i f).aux = d.aux := rfl
@[simp] theorem modBench_coll (i : Nat) (f : Bench → Bench) : (d.modBench i f).coll = d.coll := rfl
@[simp] theorem modBench_homes (i : Nat) (f : Bench → Bench) : (d.modBench i f).homes = d.homes := rfl
@[simp] theorem modBench_caches (i : Nat) (f : Bench → Bench) : (d.modBench i f).caches = d.caches := rfl
@[simp] theorem modBench_host (i : Nat) (f : Bench → Bench) : (d.modBench i f).host = d.host := rfl
@[simp] theorem modBench_silkai (i : Nat) (f : Bench → Bench) : (d.modBench i f).silkai = d.silkai := rfl
@[simp] theorem modBench_flash (i : Nat) (f : Bench → Bench) : (d.modBench i f).flash = d.flash := rfl
@[simp] theorem modBench_fc (i : Nat) (f : Bench → Bench) : (d.modBench i f).fc = d.fc := rfl
@[simp] theorem modBench_pwr (i : Nat) (f : Bench → Bench) : (d.modBench i f).pwr = d.pwr := rfl
@[simp] theorem modBench_loLatch (i : Nat) (f : Bench → Bench) : (d.modBench i f).loLatch = d.loLatch := rfl
@[simp] theorem modBench_hiLatch (i : Nat) (f : Bench → Bench) : (d.modBench i f).hiLatch = d.hiLatch := rfl
@[simp] theorem modBench_out (i : Nat) (f : Bench → Bench) : (d.modBench i f).out = d.out := rfl
@[simp] theorem modBench_free (i : Nat) (f : Bench → Bench) : (d.modBench i f).free = d.free := rfl
@[simp] theorem modBench_era (i : Nat) (f : Bench → Bench) : (d.modBench i f).era = d.era := rfl

/-! modJig -/

@[simp] theorem modJig_benches (i : Nat) (f : Jig → Jig) : (d.modJig i f).benches = d.benches := rfl
@[simp] theorem modJig_active (i : Nat) (f : Jig → Jig) : (d.modJig i f).active = d.active := rfl
@[simp] theorem modJig_mem (i : Nat) (f : Jig → Jig) : (d.modJig i f).mem = d.mem := rfl
@[simp] theorem modJig_near (i : Nat) (f : Jig → Jig) : (d.modJig i f).near = d.near := rfl
@[simp] theorem modJig_far (i : Nat) (f : Jig → Jig) : (d.modJig i f).far = d.far := rfl
@[simp] theorem modJig_life (i : Nat) (f : Jig → Jig) : (d.modJig i f).life = d.life := rfl
@[simp] theorem modJig_stagers (i : Nat) (f : Jig → Jig) : (d.modJig i f).stagers = d.stagers := rfl
@[simp] theorem modJig_stream (i : Nat) (f : Jig → Jig) : (d.modJig i f).stream = d.stream := rfl
@[simp] theorem modJig_planes (i : Nat) (f : Jig → Jig) : (d.modJig i f).planes = d.planes := rfl
@[simp] theorem modJig_opt (i : Nat) (f : Jig → Jig) : (d.modJig i f).opt = d.opt := rfl
@[simp] theorem modJig_fab (i : Nat) (f : Jig → Jig) : (d.modJig i f).fab = d.fab := rfl
@[simp] theorem modJig_aux (i : Nat) (f : Jig → Jig) : (d.modJig i f).aux = d.aux := rfl
@[simp] theorem modJig_coll (i : Nat) (f : Jig → Jig) : (d.modJig i f).coll = d.coll := rfl
@[simp] theorem modJig_homes (i : Nat) (f : Jig → Jig) : (d.modJig i f).homes = d.homes := rfl
@[simp] theorem modJig_caches (i : Nat) (f : Jig → Jig) : (d.modJig i f).caches = d.caches := rfl
@[simp] theorem modJig_host (i : Nat) (f : Jig → Jig) : (d.modJig i f).host = d.host := rfl
@[simp] theorem modJig_silkai (i : Nat) (f : Jig → Jig) : (d.modJig i f).silkai = d.silkai := rfl
@[simp] theorem modJig_flash (i : Nat) (f : Jig → Jig) : (d.modJig i f).flash = d.flash := rfl
@[simp] theorem modJig_fc (i : Nat) (f : Jig → Jig) : (d.modJig i f).fc = d.fc := rfl
@[simp] theorem modJig_pwr (i : Nat) (f : Jig → Jig) : (d.modJig i f).pwr = d.pwr := rfl
@[simp] theorem modJig_loLatch (i : Nat) (f : Jig → Jig) : (d.modJig i f).loLatch = d.loLatch := rfl
@[simp] theorem modJig_hiLatch (i : Nat) (f : Jig → Jig) : (d.modJig i f).hiLatch = d.hiLatch := rfl
@[simp] theorem modJig_out (i : Nat) (f : Jig → Jig) : (d.modJig i f).out = d.out := rfl
@[simp] theorem modJig_free (i : Nat) (f : Jig → Jig) : (d.modJig i f).free = d.free := rfl
@[simp] theorem modJig_era (i : Nat) (f : Jig → Jig) : (d.modJig i f).era = d.era := rfl

/-! modQueue -/

@[simp] theorem modQueue_benches (i k : Nat) (f : Queue → Queue) : (d.modQueue i k f).benches = d.benches := rfl
@[simp] theorem modQueue_active (i k : Nat) (f : Queue → Queue) : (d.modQueue i k f).active = d.active := rfl
@[simp] theorem modQueue_mem (i k : Nat) (f : Queue → Queue) : (d.modQueue i k f).mem = d.mem := rfl
@[simp] theorem modQueue_near (i k : Nat) (f : Queue → Queue) : (d.modQueue i k f).near = d.near := rfl
@[simp] theorem modQueue_far (i k : Nat) (f : Queue → Queue) : (d.modQueue i k f).far = d.far := rfl
@[simp] theorem modQueue_life (i k : Nat) (f : Queue → Queue) : (d.modQueue i k f).life = d.life := rfl
@[simp] theorem modQueue_stagers (i k : Nat) (f : Queue → Queue) : (d.modQueue i k f).stagers = d.stagers := rfl
@[simp] theorem modQueue_stream (i k : Nat) (f : Queue → Queue) : (d.modQueue i k f).stream = d.stream := rfl
@[simp] theorem modQueue_planes (i k : Nat) (f : Queue → Queue) : (d.modQueue i k f).planes = d.planes := rfl
@[simp] theorem modQueue_opt (i k : Nat) (f : Queue → Queue) : (d.modQueue i k f).opt = d.opt := rfl
@[simp] theorem modQueue_fab (i k : Nat) (f : Queue → Queue) : (d.modQueue i k f).fab = d.fab := rfl
@[simp] theorem modQueue_aux (i k : Nat) (f : Queue → Queue) : (d.modQueue i k f).aux = d.aux := rfl
@[simp] theorem modQueue_coll (i k : Nat) (f : Queue → Queue) : (d.modQueue i k f).coll = d.coll := rfl
@[simp] theorem modQueue_homes (i k : Nat) (f : Queue → Queue) : (d.modQueue i k f).homes = d.homes := rfl
@[simp] theorem modQueue_caches (i k : Nat) (f : Queue → Queue) : (d.modQueue i k f).caches = d.caches := rfl
@[simp] theorem modQueue_host (i k : Nat) (f : Queue → Queue) : (d.modQueue i k f).host = d.host := rfl
@[simp] theorem modQueue_silkai (i k : Nat) (f : Queue → Queue) : (d.modQueue i k f).silkai = d.silkai := rfl
@[simp] theorem modQueue_flash (i k : Nat) (f : Queue → Queue) : (d.modQueue i k f).flash = d.flash := rfl
@[simp] theorem modQueue_fc (i k : Nat) (f : Queue → Queue) : (d.modQueue i k f).fc = d.fc := rfl
@[simp] theorem modQueue_pwr (i k : Nat) (f : Queue → Queue) : (d.modQueue i k f).pwr = d.pwr := rfl
@[simp] theorem modQueue_loLatch (i k : Nat) (f : Queue → Queue) : (d.modQueue i k f).loLatch = d.loLatch := rfl
@[simp] theorem modQueue_hiLatch (i k : Nat) (f : Queue → Queue) : (d.modQueue i k f).hiLatch = d.hiLatch := rfl
@[simp] theorem modQueue_out (i k : Nat) (f : Queue → Queue) : (d.modQueue i k f).out = d.out := rfl
@[simp] theorem modQueue_free (i k : Nat) (f : Queue → Queue) : (d.modQueue i k f).free = d.free := rfl
@[simp] theorem modQueue_era (i k : Nat) (f : Queue → Queue) : (d.modQueue i k f).era = d.era := rfl

/-! modStager -/

@[simp] theorem modStager_benches (i : Nat) (f : Stager → Stager) : (d.modStager i f).benches = d.benches := rfl
@[simp] theorem modStager_active (i : Nat) (f : Stager → Stager) : (d.modStager i f).active = d.active := rfl
@[simp] theorem modStager_mem (i : Nat) (f : Stager → Stager) : (d.modStager i f).mem = d.mem := rfl
@[simp] theorem modStager_near (i : Nat) (f : Stager → Stager) : (d.modStager i f).near = d.near := rfl
@[simp] theorem modStager_far (i : Nat) (f : Stager → Stager) : (d.modStager i f).far = d.far := rfl
@[simp] theorem modStager_jigs (i : Nat) (f : Stager → Stager) : (d.modStager i f).jigs = d.jigs := rfl
@[simp] theorem modStager_life (i : Nat) (f : Stager → Stager) : (d.modStager i f).life = d.life := rfl
@[simp] theorem modStager_stream (i : Nat) (f : Stager → Stager) : (d.modStager i f).stream = d.stream := rfl
@[simp] theorem modStager_planes (i : Nat) (f : Stager → Stager) : (d.modStager i f).planes = d.planes := rfl
@[simp] theorem modStager_opt (i : Nat) (f : Stager → Stager) : (d.modStager i f).opt = d.opt := rfl
@[simp] theorem modStager_fab (i : Nat) (f : Stager → Stager) : (d.modStager i f).fab = d.fab := rfl
@[simp] theorem modStager_aux (i : Nat) (f : Stager → Stager) : (d.modStager i f).aux = d.aux := rfl
@[simp] theorem modStager_coll (i : Nat) (f : Stager → Stager) : (d.modStager i f).coll = d.coll := rfl
@[simp] theorem modStager_homes (i : Nat) (f : Stager → Stager) : (d.modStager i f).homes = d.homes := rfl
@[simp] theorem modStager_caches (i : Nat) (f : Stager → Stager) : (d.modStager i f).caches = d.caches := rfl
@[simp] theorem modStager_host (i : Nat) (f : Stager → Stager) : (d.modStager i f).host = d.host := rfl
@[simp] theorem modStager_silkai (i : Nat) (f : Stager → Stager) : (d.modStager i f).silkai = d.silkai := rfl
@[simp] theorem modStager_flash (i : Nat) (f : Stager → Stager) : (d.modStager i f).flash = d.flash := rfl
@[simp] theorem modStager_fc (i : Nat) (f : Stager → Stager) : (d.modStager i f).fc = d.fc := rfl
@[simp] theorem modStager_pwr (i : Nat) (f : Stager → Stager) : (d.modStager i f).pwr = d.pwr := rfl
@[simp] theorem modStager_loLatch (i : Nat) (f : Stager → Stager) : (d.modStager i f).loLatch = d.loLatch := rfl
@[simp] theorem modStager_hiLatch (i : Nat) (f : Stager → Stager) : (d.modStager i f).hiLatch = d.hiLatch := rfl
@[simp] theorem modStager_out (i : Nat) (f : Stager → Stager) : (d.modStager i f).out = d.out := rfl
@[simp] theorem modStager_free (i : Nat) (f : Stager → Stager) : (d.modStager i f).free = d.free := rfl
@[simp] theorem modStager_era (i : Nat) (f : Stager → Stager) : (d.modStager i f).era = d.era := rfl

/-! modPlane -/

@[simp] theorem modPlane_benches (i : Nat) (f : Plane → Plane) : (d.modPlane i f).benches = d.benches := rfl
@[simp] theorem modPlane_active (i : Nat) (f : Plane → Plane) : (d.modPlane i f).active = d.active := rfl
@[simp] theorem modPlane_mem (i : Nat) (f : Plane → Plane) : (d.modPlane i f).mem = d.mem := rfl
@[simp] theorem modPlane_near (i : Nat) (f : Plane → Plane) : (d.modPlane i f).near = d.near := rfl
@[simp] theorem modPlane_far (i : Nat) (f : Plane → Plane) : (d.modPlane i f).far = d.far := rfl
@[simp] theorem modPlane_jigs (i : Nat) (f : Plane → Plane) : (d.modPlane i f).jigs = d.jigs := rfl
@[simp] theorem modPlane_life (i : Nat) (f : Plane → Plane) : (d.modPlane i f).life = d.life := rfl
@[simp] theorem modPlane_stagers (i : Nat) (f : Plane → Plane) : (d.modPlane i f).stagers = d.stagers := rfl
@[simp] theorem modPlane_stream (i : Nat) (f : Plane → Plane) : (d.modPlane i f).stream = d.stream := rfl
@[simp] theorem modPlane_opt (i : Nat) (f : Plane → Plane) : (d.modPlane i f).opt = d.opt := rfl
@[simp] theorem modPlane_fab (i : Nat) (f : Plane → Plane) : (d.modPlane i f).fab = d.fab := rfl
@[simp] theorem modPlane_aux (i : Nat) (f : Plane → Plane) : (d.modPlane i f).aux = d.aux := rfl
@[simp] theorem modPlane_coll (i : Nat) (f : Plane → Plane) : (d.modPlane i f).coll = d.coll := rfl
@[simp] theorem modPlane_homes (i : Nat) (f : Plane → Plane) : (d.modPlane i f).homes = d.homes := rfl
@[simp] theorem modPlane_caches (i : Nat) (f : Plane → Plane) : (d.modPlane i f).caches = d.caches := rfl
@[simp] theorem modPlane_host (i : Nat) (f : Plane → Plane) : (d.modPlane i f).host = d.host := rfl
@[simp] theorem modPlane_silkai (i : Nat) (f : Plane → Plane) : (d.modPlane i f).silkai = d.silkai := rfl
@[simp] theorem modPlane_flash (i : Nat) (f : Plane → Plane) : (d.modPlane i f).flash = d.flash := rfl
@[simp] theorem modPlane_fc (i : Nat) (f : Plane → Plane) : (d.modPlane i f).fc = d.fc := rfl
@[simp] theorem modPlane_pwr (i : Nat) (f : Plane → Plane) : (d.modPlane i f).pwr = d.pwr := rfl
@[simp] theorem modPlane_loLatch (i : Nat) (f : Plane → Plane) : (d.modPlane i f).loLatch = d.loLatch := rfl
@[simp] theorem modPlane_hiLatch (i : Nat) (f : Plane → Plane) : (d.modPlane i f).hiLatch = d.hiLatch := rfl
@[simp] theorem modPlane_out (i : Nat) (f : Plane → Plane) : (d.modPlane i f).out = d.out := rfl
@[simp] theorem modPlane_free (i : Nat) (f : Plane → Plane) : (d.modPlane i f).free = d.free := rfl
@[simp] theorem modPlane_era (i : Nat) (f : Plane → Plane) : (d.modPlane i f).era = d.era := rfl

/-! modHome -/

@[simp] theorem modHome_benches (i : Nat) (f : Home → Home) : (d.modHome i f).benches = d.benches := rfl
@[simp] theorem modHome_active (i : Nat) (f : Home → Home) : (d.modHome i f).active = d.active := rfl
@[simp] theorem modHome_mem (i : Nat) (f : Home → Home) : (d.modHome i f).mem = d.mem := rfl
@[simp] theorem modHome_near (i : Nat) (f : Home → Home) : (d.modHome i f).near = d.near := rfl
@[simp] theorem modHome_far (i : Nat) (f : Home → Home) : (d.modHome i f).far = d.far := rfl
@[simp] theorem modHome_jigs (i : Nat) (f : Home → Home) : (d.modHome i f).jigs = d.jigs := rfl
@[simp] theorem modHome_life (i : Nat) (f : Home → Home) : (d.modHome i f).life = d.life := rfl
@[simp] theorem modHome_stagers (i : Nat) (f : Home → Home) : (d.modHome i f).stagers = d.stagers := rfl
@[simp] theorem modHome_stream (i : Nat) (f : Home → Home) : (d.modHome i f).stream = d.stream := rfl
@[simp] theorem modHome_planes (i : Nat) (f : Home → Home) : (d.modHome i f).planes = d.planes := rfl
@[simp] theorem modHome_opt (i : Nat) (f : Home → Home) : (d.modHome i f).opt = d.opt := rfl
@[simp] theorem modHome_fab (i : Nat) (f : Home → Home) : (d.modHome i f).fab = d.fab := rfl
@[simp] theorem modHome_aux (i : Nat) (f : Home → Home) : (d.modHome i f).aux = d.aux := rfl
@[simp] theorem modHome_coll (i : Nat) (f : Home → Home) : (d.modHome i f).coll = d.coll := rfl
@[simp] theorem modHome_caches (i : Nat) (f : Home → Home) : (d.modHome i f).caches = d.caches := rfl
@[simp] theorem modHome_host (i : Nat) (f : Home → Home) : (d.modHome i f).host = d.host := rfl
@[simp] theorem modHome_silkai (i : Nat) (f : Home → Home) : (d.modHome i f).silkai = d.silkai := rfl
@[simp] theorem modHome_flash (i : Nat) (f : Home → Home) : (d.modHome i f).flash = d.flash := rfl
@[simp] theorem modHome_fc (i : Nat) (f : Home → Home) : (d.modHome i f).fc = d.fc := rfl
@[simp] theorem modHome_pwr (i : Nat) (f : Home → Home) : (d.modHome i f).pwr = d.pwr := rfl
@[simp] theorem modHome_loLatch (i : Nat) (f : Home → Home) : (d.modHome i f).loLatch = d.loLatch := rfl
@[simp] theorem modHome_hiLatch (i : Nat) (f : Home → Home) : (d.modHome i f).hiLatch = d.hiLatch := rfl
@[simp] theorem modHome_out (i : Nat) (f : Home → Home) : (d.modHome i f).out = d.out := rfl
@[simp] theorem modHome_free (i : Nat) (f : Home → Home) : (d.modHome i f).free = d.free := rfl
@[simp] theorem modHome_era (i : Nat) (f : Home → Home) : (d.modHome i f).era = d.era := rfl

/-! modNear -/

@[simp] theorem modNear_benches (f : Near → Near) : (d.modNear f).benches = d.benches := rfl
@[simp] theorem modNear_active (f : Near → Near) : (d.modNear f).active = d.active := rfl
@[simp] theorem modNear_mem (f : Near → Near) : (d.modNear f).mem = d.mem := rfl
@[simp] theorem modNear_far (f : Near → Near) : (d.modNear f).far = d.far := rfl
@[simp] theorem modNear_jigs (f : Near → Near) : (d.modNear f).jigs = d.jigs := rfl
@[simp] theorem modNear_life (f : Near → Near) : (d.modNear f).life = d.life := rfl
@[simp] theorem modNear_stagers (f : Near → Near) : (d.modNear f).stagers = d.stagers := rfl
@[simp] theorem modNear_stream (f : Near → Near) : (d.modNear f).stream = d.stream := rfl
@[simp] theorem modNear_planes (f : Near → Near) : (d.modNear f).planes = d.planes := rfl
@[simp] theorem modNear_opt (f : Near → Near) : (d.modNear f).opt = d.opt := rfl
@[simp] theorem modNear_fab (f : Near → Near) : (d.modNear f).fab = d.fab := rfl
@[simp] theorem modNear_aux (f : Near → Near) : (d.modNear f).aux = d.aux := rfl
@[simp] theorem modNear_coll (f : Near → Near) : (d.modNear f).coll = d.coll := rfl
@[simp] theorem modNear_homes (f : Near → Near) : (d.modNear f).homes = d.homes := rfl
@[simp] theorem modNear_caches (f : Near → Near) : (d.modNear f).caches = d.caches := rfl
@[simp] theorem modNear_host (f : Near → Near) : (d.modNear f).host = d.host := rfl
@[simp] theorem modNear_silkai (f : Near → Near) : (d.modNear f).silkai = d.silkai := rfl
@[simp] theorem modNear_flash (f : Near → Near) : (d.modNear f).flash = d.flash := rfl
@[simp] theorem modNear_fc (f : Near → Near) : (d.modNear f).fc = d.fc := rfl
@[simp] theorem modNear_pwr (f : Near → Near) : (d.modNear f).pwr = d.pwr := rfl
@[simp] theorem modNear_loLatch (f : Near → Near) : (d.modNear f).loLatch = d.loLatch := rfl
@[simp] theorem modNear_hiLatch (f : Near → Near) : (d.modNear f).hiLatch = d.hiLatch := rfl
@[simp] theorem modNear_out (f : Near → Near) : (d.modNear f).out = d.out := rfl
@[simp] theorem modNear_free (f : Near → Near) : (d.modNear f).free = d.free := rfl
@[simp] theorem modNear_era (f : Near → Near) : (d.modNear f).era = d.era := rfl
@[simp] theorem modNear_near (f : Near → Near) : (d.modNear f).near = f d.near := rfl

/-! modNearCtl -/

@[simp] theorem modNearCtl_benches (i : Nat) (f : NearCtl → NearCtl) : (d.modNearCtl i f).benches = d.benches := rfl
@[simp] theorem modNearCtl_active (i : Nat) (f : NearCtl → NearCtl) : (d.modNearCtl i f).active = d.active := rfl
@[simp] theorem modNearCtl_mem (i : Nat) (f : NearCtl → NearCtl) : (d.modNearCtl i f).mem = d.mem := rfl
@[simp] theorem modNearCtl_far (i : Nat) (f : NearCtl → NearCtl) : (d.modNearCtl i f).far = d.far := rfl
@[simp] theorem modNearCtl_jigs (i : Nat) (f : NearCtl → NearCtl) : (d.modNearCtl i f).jigs = d.jigs := rfl
@[simp] theorem modNearCtl_life (i : Nat) (f : NearCtl → NearCtl) : (d.modNearCtl i f).life = d.life := rfl
@[simp] theorem modNearCtl_stagers (i : Nat) (f : NearCtl → NearCtl) : (d.modNearCtl i f).stagers = d.stagers := rfl
@[simp] theorem modNearCtl_stream (i : Nat) (f : NearCtl → NearCtl) : (d.modNearCtl i f).stream = d.stream := rfl
@[simp] theorem modNearCtl_planes (i : Nat) (f : NearCtl → NearCtl) : (d.modNearCtl i f).planes = d.planes := rfl
@[simp] theorem modNearCtl_opt (i : Nat) (f : NearCtl → NearCtl) : (d.modNearCtl i f).opt = d.opt := rfl
@[simp] theorem modNearCtl_fab (i : Nat) (f : NearCtl → NearCtl) : (d.modNearCtl i f).fab = d.fab := rfl
@[simp] theorem modNearCtl_aux (i : Nat) (f : NearCtl → NearCtl) : (d.modNearCtl i f).aux = d.aux := rfl
@[simp] theorem modNearCtl_coll (i : Nat) (f : NearCtl → NearCtl) : (d.modNearCtl i f).coll = d.coll := rfl
@[simp] theorem modNearCtl_homes (i : Nat) (f : NearCtl → NearCtl) : (d.modNearCtl i f).homes = d.homes := rfl
@[simp] theorem modNearCtl_caches (i : Nat) (f : NearCtl → NearCtl) : (d.modNearCtl i f).caches = d.caches := rfl
@[simp] theorem modNearCtl_host (i : Nat) (f : NearCtl → NearCtl) : (d.modNearCtl i f).host = d.host := rfl
@[simp] theorem modNearCtl_silkai (i : Nat) (f : NearCtl → NearCtl) : (d.modNearCtl i f).silkai = d.silkai := rfl
@[simp] theorem modNearCtl_flash (i : Nat) (f : NearCtl → NearCtl) : (d.modNearCtl i f).flash = d.flash := rfl
@[simp] theorem modNearCtl_fc (i : Nat) (f : NearCtl → NearCtl) : (d.modNearCtl i f).fc = d.fc := rfl
@[simp] theorem modNearCtl_pwr (i : Nat) (f : NearCtl → NearCtl) : (d.modNearCtl i f).pwr = d.pwr := rfl
@[simp] theorem modNearCtl_loLatch (i : Nat) (f : NearCtl → NearCtl) : (d.modNearCtl i f).loLatch = d.loLatch := rfl
@[simp] theorem modNearCtl_hiLatch (i : Nat) (f : NearCtl → NearCtl) : (d.modNearCtl i f).hiLatch = d.hiLatch := rfl
@[simp] theorem modNearCtl_out (i : Nat) (f : NearCtl → NearCtl) : (d.modNearCtl i f).out = d.out := rfl
@[simp] theorem modNearCtl_free (i : Nat) (f : NearCtl → NearCtl) : (d.modNearCtl i f).free = d.free := rfl
@[simp] theorem modNearCtl_era (i : Nat) (f : NearCtl → NearCtl) : (d.modNearCtl i f).era = d.era := rfl

/-! modPc -/

@[simp] theorem modPc_benches (i : Nat) (f : Pc → Pc) : (d.modPc i f).benches = d.benches := rfl
@[simp] theorem modPc_active (i : Nat) (f : Pc → Pc) : (d.modPc i f).active = d.active := rfl
@[simp] theorem modPc_mem (i : Nat) (f : Pc → Pc) : (d.modPc i f).mem = d.mem := rfl
@[simp] theorem modPc_far (i : Nat) (f : Pc → Pc) : (d.modPc i f).far = d.far := rfl
@[simp] theorem modPc_jigs (i : Nat) (f : Pc → Pc) : (d.modPc i f).jigs = d.jigs := rfl
@[simp] theorem modPc_life (i : Nat) (f : Pc → Pc) : (d.modPc i f).life = d.life := rfl
@[simp] theorem modPc_stagers (i : Nat) (f : Pc → Pc) : (d.modPc i f).stagers = d.stagers := rfl
@[simp] theorem modPc_stream (i : Nat) (f : Pc → Pc) : (d.modPc i f).stream = d.stream := rfl
@[simp] theorem modPc_planes (i : Nat) (f : Pc → Pc) : (d.modPc i f).planes = d.planes := rfl
@[simp] theorem modPc_opt (i : Nat) (f : Pc → Pc) : (d.modPc i f).opt = d.opt := rfl
@[simp] theorem modPc_fab (i : Nat) (f : Pc → Pc) : (d.modPc i f).fab = d.fab := rfl
@[simp] theorem modPc_aux (i : Nat) (f : Pc → Pc) : (d.modPc i f).aux = d.aux := rfl
@[simp] theorem modPc_coll (i : Nat) (f : Pc → Pc) : (d.modPc i f).coll = d.coll := rfl
@[simp] theorem modPc_homes (i : Nat) (f : Pc → Pc) : (d.modPc i f).homes = d.homes := rfl
@[simp] theorem modPc_caches (i : Nat) (f : Pc → Pc) : (d.modPc i f).caches = d.caches := rfl
@[simp] theorem modPc_host (i : Nat) (f : Pc → Pc) : (d.modPc i f).host = d.host := rfl
@[simp] theorem modPc_silkai (i : Nat) (f : Pc → Pc) : (d.modPc i f).silkai = d.silkai := rfl
@[simp] theorem modPc_flash (i : Nat) (f : Pc → Pc) : (d.modPc i f).flash = d.flash := rfl
@[simp] theorem modPc_fc (i : Nat) (f : Pc → Pc) : (d.modPc i f).fc = d.fc := rfl
@[simp] theorem modPc_pwr (i : Nat) (f : Pc → Pc) : (d.modPc i f).pwr = d.pwr := rfl
@[simp] theorem modPc_loLatch (i : Nat) (f : Pc → Pc) : (d.modPc i f).loLatch = d.loLatch := rfl
@[simp] theorem modPc_hiLatch (i : Nat) (f : Pc → Pc) : (d.modPc i f).hiLatch = d.hiLatch := rfl
@[simp] theorem modPc_out (i : Nat) (f : Pc → Pc) : (d.modPc i f).out = d.out := rfl
@[simp] theorem modPc_free (i : Nat) (f : Pc → Pc) : (d.modPc i f).free = d.free := rfl
@[simp] theorem modPc_era (i : Nat) (f : Pc → Pc) : (d.modPc i f).era = d.era := rfl

/-! modFar -/

@[simp] theorem modFar_benches (f : FarTier → FarTier) : (d.modFar f).benches = d.benches := rfl
@[simp] theorem modFar_active (f : FarTier → FarTier) : (d.modFar f).active = d.active := rfl
@[simp] theorem modFar_mem (f : FarTier → FarTier) : (d.modFar f).mem = d.mem := rfl
@[simp] theorem modFar_near (f : FarTier → FarTier) : (d.modFar f).near = d.near := rfl
@[simp] theorem modFar_jigs (f : FarTier → FarTier) : (d.modFar f).jigs = d.jigs := rfl
@[simp] theorem modFar_life (f : FarTier → FarTier) : (d.modFar f).life = d.life := rfl
@[simp] theorem modFar_stagers (f : FarTier → FarTier) : (d.modFar f).stagers = d.stagers := rfl
@[simp] theorem modFar_stream (f : FarTier → FarTier) : (d.modFar f).stream = d.stream := rfl
@[simp] theorem modFar_planes (f : FarTier → FarTier) : (d.modFar f).planes = d.planes := rfl
@[simp] theorem modFar_opt (f : FarTier → FarTier) : (d.modFar f).opt = d.opt := rfl
@[simp] theorem modFar_fab (f : FarTier → FarTier) : (d.modFar f).fab = d.fab := rfl
@[simp] theorem modFar_aux (f : FarTier → FarTier) : (d.modFar f).aux = d.aux := rfl
@[simp] theorem modFar_coll (f : FarTier → FarTier) : (d.modFar f).coll = d.coll := rfl
@[simp] theorem modFar_homes (f : FarTier → FarTier) : (d.modFar f).homes = d.homes := rfl
@[simp] theorem modFar_caches (f : FarTier → FarTier) : (d.modFar f).caches = d.caches := rfl
@[simp] theorem modFar_host (f : FarTier → FarTier) : (d.modFar f).host = d.host := rfl
@[simp] theorem modFar_silkai (f : FarTier → FarTier) : (d.modFar f).silkai = d.silkai := rfl
@[simp] theorem modFar_flash (f : FarTier → FarTier) : (d.modFar f).flash = d.flash := rfl
@[simp] theorem modFar_fc (f : FarTier → FarTier) : (d.modFar f).fc = d.fc := rfl
@[simp] theorem modFar_pwr (f : FarTier → FarTier) : (d.modFar f).pwr = d.pwr := rfl
@[simp] theorem modFar_loLatch (f : FarTier → FarTier) : (d.modFar f).loLatch = d.loLatch := rfl
@[simp] theorem modFar_hiLatch (f : FarTier → FarTier) : (d.modFar f).hiLatch = d.hiLatch := rfl
@[simp] theorem modFar_out (f : FarTier → FarTier) : (d.modFar f).out = d.out := rfl
@[simp] theorem modFar_free (f : FarTier → FarTier) : (d.modFar f).free = d.free := rfl
@[simp] theorem modFar_era (f : FarTier → FarTier) : (d.modFar f).era = d.era := rfl
@[simp] theorem modFar_far (f : FarTier → FarTier) : (d.modFar f).far = f d.far := rfl

/-! modCxl -/

@[simp] theorem modCxl_benches (i : Nat) (f : CxlPort → CxlPort) : (d.modCxl i f).benches = d.benches := rfl
@[simp] theorem modCxl_active (i : Nat) (f : CxlPort → CxlPort) : (d.modCxl i f).active = d.active := rfl
@[simp] theorem modCxl_mem (i : Nat) (f : CxlPort → CxlPort) : (d.modCxl i f).mem = d.mem := rfl
@[simp] theorem modCxl_near (i : Nat) (f : CxlPort → CxlPort) : (d.modCxl i f).near = d.near := rfl
@[simp] theorem modCxl_jigs (i : Nat) (f : CxlPort → CxlPort) : (d.modCxl i f).jigs = d.jigs := rfl
@[simp] theorem modCxl_life (i : Nat) (f : CxlPort → CxlPort) : (d.modCxl i f).life = d.life := rfl
@[simp] theorem modCxl_stagers (i : Nat) (f : CxlPort → CxlPort) : (d.modCxl i f).stagers = d.stagers := rfl
@[simp] theorem modCxl_stream (i : Nat) (f : CxlPort → CxlPort) : (d.modCxl i f).stream = d.stream := rfl
@[simp] theorem modCxl_planes (i : Nat) (f : CxlPort → CxlPort) : (d.modCxl i f).planes = d.planes := rfl
@[simp] theorem modCxl_opt (i : Nat) (f : CxlPort → CxlPort) : (d.modCxl i f).opt = d.opt := rfl
@[simp] theorem modCxl_fab (i : Nat) (f : CxlPort → CxlPort) : (d.modCxl i f).fab = d.fab := rfl
@[simp] theorem modCxl_aux (i : Nat) (f : CxlPort → CxlPort) : (d.modCxl i f).aux = d.aux := rfl
@[simp] theorem modCxl_coll (i : Nat) (f : CxlPort → CxlPort) : (d.modCxl i f).coll = d.coll := rfl
@[simp] theorem modCxl_homes (i : Nat) (f : CxlPort → CxlPort) : (d.modCxl i f).homes = d.homes := rfl
@[simp] theorem modCxl_caches (i : Nat) (f : CxlPort → CxlPort) : (d.modCxl i f).caches = d.caches := rfl
@[simp] theorem modCxl_host (i : Nat) (f : CxlPort → CxlPort) : (d.modCxl i f).host = d.host := rfl
@[simp] theorem modCxl_silkai (i : Nat) (f : CxlPort → CxlPort) : (d.modCxl i f).silkai = d.silkai := rfl
@[simp] theorem modCxl_flash (i : Nat) (f : CxlPort → CxlPort) : (d.modCxl i f).flash = d.flash := rfl
@[simp] theorem modCxl_fc (i : Nat) (f : CxlPort → CxlPort) : (d.modCxl i f).fc = d.fc := rfl
@[simp] theorem modCxl_pwr (i : Nat) (f : CxlPort → CxlPort) : (d.modCxl i f).pwr = d.pwr := rfl
@[simp] theorem modCxl_loLatch (i : Nat) (f : CxlPort → CxlPort) : (d.modCxl i f).loLatch = d.loLatch := rfl
@[simp] theorem modCxl_hiLatch (i : Nat) (f : CxlPort → CxlPort) : (d.modCxl i f).hiLatch = d.hiLatch := rfl
@[simp] theorem modCxl_out (i : Nat) (f : CxlPort → CxlPort) : (d.modCxl i f).out = d.out := rfl
@[simp] theorem modCxl_free (i : Nat) (f : CxlPort → CxlPort) : (d.modCxl i f).free = d.free := rfl
@[simp] theorem modCxl_era (i : Nat) (f : CxlPort → CxlPort) : (d.modCxl i f).era = d.era := rfl

/-! modSilkai -/

@[simp] theorem modSilkai_benches (f : Silkai → Silkai) : (d.modSilkai f).benches = d.benches := rfl
@[simp] theorem modSilkai_active (f : Silkai → Silkai) : (d.modSilkai f).active = d.active := rfl
@[simp] theorem modSilkai_mem (f : Silkai → Silkai) : (d.modSilkai f).mem = d.mem := rfl
@[simp] theorem modSilkai_near (f : Silkai → Silkai) : (d.modSilkai f).near = d.near := rfl
@[simp] theorem modSilkai_far (f : Silkai → Silkai) : (d.modSilkai f).far = d.far := rfl
@[simp] theorem modSilkai_jigs (f : Silkai → Silkai) : (d.modSilkai f).jigs = d.jigs := rfl
@[simp] theorem modSilkai_life (f : Silkai → Silkai) : (d.modSilkai f).life = d.life := rfl
@[simp] theorem modSilkai_stagers (f : Silkai → Silkai) : (d.modSilkai f).stagers = d.stagers := rfl
@[simp] theorem modSilkai_stream (f : Silkai → Silkai) : (d.modSilkai f).stream = d.stream := rfl
@[simp] theorem modSilkai_planes (f : Silkai → Silkai) : (d.modSilkai f).planes = d.planes := rfl
@[simp] theorem modSilkai_opt (f : Silkai → Silkai) : (d.modSilkai f).opt = d.opt := rfl
@[simp] theorem modSilkai_fab (f : Silkai → Silkai) : (d.modSilkai f).fab = d.fab := rfl
@[simp] theorem modSilkai_aux (f : Silkai → Silkai) : (d.modSilkai f).aux = d.aux := rfl
@[simp] theorem modSilkai_coll (f : Silkai → Silkai) : (d.modSilkai f).coll = d.coll := rfl
@[simp] theorem modSilkai_homes (f : Silkai → Silkai) : (d.modSilkai f).homes = d.homes := rfl
@[simp] theorem modSilkai_caches (f : Silkai → Silkai) : (d.modSilkai f).caches = d.caches := rfl
@[simp] theorem modSilkai_host (f : Silkai → Silkai) : (d.modSilkai f).host = d.host := rfl
@[simp] theorem modSilkai_flash (f : Silkai → Silkai) : (d.modSilkai f).flash = d.flash := rfl
@[simp] theorem modSilkai_fc (f : Silkai → Silkai) : (d.modSilkai f).fc = d.fc := rfl
@[simp] theorem modSilkai_pwr (f : Silkai → Silkai) : (d.modSilkai f).pwr = d.pwr := rfl
@[simp] theorem modSilkai_loLatch (f : Silkai → Silkai) : (d.modSilkai f).loLatch = d.loLatch := rfl
@[simp] theorem modSilkai_hiLatch (f : Silkai → Silkai) : (d.modSilkai f).hiLatch = d.hiLatch := rfl
@[simp] theorem modSilkai_out (f : Silkai → Silkai) : (d.modSilkai f).out = d.out := rfl
@[simp] theorem modSilkai_free (f : Silkai → Silkai) : (d.modSilkai f).free = d.free := rfl
@[simp] theorem modSilkai_era (f : Silkai → Silkai) : (d.modSilkai f).era = d.era := rfl
@[simp] theorem modSilkai_silkai (f : Silkai → Silkai) : (d.modSilkai f).silkai = f d.silkai := rfl

/-! modMbx -/

@[simp] theorem modMbx_benches (i : Nat) (f : Mailbox → Mailbox) : (d.modMbx i f).benches = d.benches := rfl
@[simp] theorem modMbx_active (i : Nat) (f : Mailbox → Mailbox) : (d.modMbx i f).active = d.active := rfl
@[simp] theorem modMbx_mem (i : Nat) (f : Mailbox → Mailbox) : (d.modMbx i f).mem = d.mem := rfl
@[simp] theorem modMbx_near (i : Nat) (f : Mailbox → Mailbox) : (d.modMbx i f).near = d.near := rfl
@[simp] theorem modMbx_far (i : Nat) (f : Mailbox → Mailbox) : (d.modMbx i f).far = d.far := rfl
@[simp] theorem modMbx_jigs (i : Nat) (f : Mailbox → Mailbox) : (d.modMbx i f).jigs = d.jigs := rfl
@[simp] theorem modMbx_life (i : Nat) (f : Mailbox → Mailbox) : (d.modMbx i f).life = d.life := rfl
@[simp] theorem modMbx_stagers (i : Nat) (f : Mailbox → Mailbox) : (d.modMbx i f).stagers = d.stagers := rfl
@[simp] theorem modMbx_stream (i : Nat) (f : Mailbox → Mailbox) : (d.modMbx i f).stream = d.stream := rfl
@[simp] theorem modMbx_planes (i : Nat) (f : Mailbox → Mailbox) : (d.modMbx i f).planes = d.planes := rfl
@[simp] theorem modMbx_opt (i : Nat) (f : Mailbox → Mailbox) : (d.modMbx i f).opt = d.opt := rfl
@[simp] theorem modMbx_fab (i : Nat) (f : Mailbox → Mailbox) : (d.modMbx i f).fab = d.fab := rfl
@[simp] theorem modMbx_aux (i : Nat) (f : Mailbox → Mailbox) : (d.modMbx i f).aux = d.aux := rfl
@[simp] theorem modMbx_coll (i : Nat) (f : Mailbox → Mailbox) : (d.modMbx i f).coll = d.coll := rfl
@[simp] theorem modMbx_homes (i : Nat) (f : Mailbox → Mailbox) : (d.modMbx i f).homes = d.homes := rfl
@[simp] theorem modMbx_caches (i : Nat) (f : Mailbox → Mailbox) : (d.modMbx i f).caches = d.caches := rfl
@[simp] theorem modMbx_host (i : Nat) (f : Mailbox → Mailbox) : (d.modMbx i f).host = d.host := rfl
@[simp] theorem modMbx_flash (i : Nat) (f : Mailbox → Mailbox) : (d.modMbx i f).flash = d.flash := rfl
@[simp] theorem modMbx_fc (i : Nat) (f : Mailbox → Mailbox) : (d.modMbx i f).fc = d.fc := rfl
@[simp] theorem modMbx_pwr (i : Nat) (f : Mailbox → Mailbox) : (d.modMbx i f).pwr = d.pwr := rfl
@[simp] theorem modMbx_loLatch (i : Nat) (f : Mailbox → Mailbox) : (d.modMbx i f).loLatch = d.loLatch := rfl
@[simp] theorem modMbx_hiLatch (i : Nat) (f : Mailbox → Mailbox) : (d.modMbx i f).hiLatch = d.hiLatch := rfl
@[simp] theorem modMbx_out (i : Nat) (f : Mailbox → Mailbox) : (d.modMbx i f).out = d.out := rfl
@[simp] theorem modMbx_free (i : Nat) (f : Mailbox → Mailbox) : (d.modMbx i f).free = d.free := rfl
@[simp] theorem modMbx_era (i : Nat) (f : Mailbox → Mailbox) : (d.modMbx i f).era = d.era := rfl

/-! modFab -/

@[simp] theorem modFab_benches (f : Fabric → Fabric) : (d.modFab f).benches = d.benches := rfl
@[simp] theorem modFab_active (f : Fabric → Fabric) : (d.modFab f).active = d.active := rfl
@[simp] theorem modFab_mem (f : Fabric → Fabric) : (d.modFab f).mem = d.mem := rfl
@[simp] theorem modFab_near (f : Fabric → Fabric) : (d.modFab f).near = d.near := rfl
@[simp] theorem modFab_far (f : Fabric → Fabric) : (d.modFab f).far = d.far := rfl
@[simp] theorem modFab_jigs (f : Fabric → Fabric) : (d.modFab f).jigs = d.jigs := rfl
@[simp] theorem modFab_life (f : Fabric → Fabric) : (d.modFab f).life = d.life := rfl
@[simp] theorem modFab_stagers (f : Fabric → Fabric) : (d.modFab f).stagers = d.stagers := rfl
@[simp] theorem modFab_stream (f : Fabric → Fabric) : (d.modFab f).stream = d.stream := rfl
@[simp] theorem modFab_planes (f : Fabric → Fabric) : (d.modFab f).planes = d.planes := rfl
@[simp] theorem modFab_opt (f : Fabric → Fabric) : (d.modFab f).opt = d.opt := rfl
@[simp] theorem modFab_aux (f : Fabric → Fabric) : (d.modFab f).aux = d.aux := rfl
@[simp] theorem modFab_coll (f : Fabric → Fabric) : (d.modFab f).coll = d.coll := rfl
@[simp] theorem modFab_homes (f : Fabric → Fabric) : (d.modFab f).homes = d.homes := rfl
@[simp] theorem modFab_caches (f : Fabric → Fabric) : (d.modFab f).caches = d.caches := rfl
@[simp] theorem modFab_host (f : Fabric → Fabric) : (d.modFab f).host = d.host := rfl
@[simp] theorem modFab_silkai (f : Fabric → Fabric) : (d.modFab f).silkai = d.silkai := rfl
@[simp] theorem modFab_flash (f : Fabric → Fabric) : (d.modFab f).flash = d.flash := rfl
@[simp] theorem modFab_fc (f : Fabric → Fabric) : (d.modFab f).fc = d.fc := rfl
@[simp] theorem modFab_pwr (f : Fabric → Fabric) : (d.modFab f).pwr = d.pwr := rfl
@[simp] theorem modFab_loLatch (f : Fabric → Fabric) : (d.modFab f).loLatch = d.loLatch := rfl
@[simp] theorem modFab_hiLatch (f : Fabric → Fabric) : (d.modFab f).hiLatch = d.hiLatch := rfl
@[simp] theorem modFab_out (f : Fabric → Fabric) : (d.modFab f).out = d.out := rfl
@[simp] theorem modFab_free (f : Fabric → Fabric) : (d.modFab f).free = d.free := rfl
@[simp] theorem modFab_era (f : Fabric → Fabric) : (d.modFab f).era = d.era := rfl
@[simp] theorem modFab_fab (f : Fabric → Fabric) : (d.modFab f).fab = f d.fab := rfl

/-! modFlow -/

@[simp] theorem modFlow_benches (i : Nat) (f : Flow → Flow) : (d.modFlow i f).benches = d.benches := rfl
@[simp] theorem modFlow_active (i : Nat) (f : Flow → Flow) : (d.modFlow i f).active = d.active := rfl
@[simp] theorem modFlow_mem (i : Nat) (f : Flow → Flow) : (d.modFlow i f).mem = d.mem := rfl
@[simp] theorem modFlow_near (i : Nat) (f : Flow → Flow) : (d.modFlow i f).near = d.near := rfl
@[simp] theorem modFlow_far (i : Nat) (f : Flow → Flow) : (d.modFlow i f).far = d.far := rfl
@[simp] theorem modFlow_jigs (i : Nat) (f : Flow → Flow) : (d.modFlow i f).jigs = d.jigs := rfl
@[simp] theorem modFlow_life (i : Nat) (f : Flow → Flow) : (d.modFlow i f).life = d.life := rfl
@[simp] theorem modFlow_stagers (i : Nat) (f : Flow → Flow) : (d.modFlow i f).stagers = d.stagers := rfl
@[simp] theorem modFlow_stream (i : Nat) (f : Flow → Flow) : (d.modFlow i f).stream = d.stream := rfl
@[simp] theorem modFlow_planes (i : Nat) (f : Flow → Flow) : (d.modFlow i f).planes = d.planes := rfl
@[simp] theorem modFlow_opt (i : Nat) (f : Flow → Flow) : (d.modFlow i f).opt = d.opt := rfl
@[simp] theorem modFlow_aux (i : Nat) (f : Flow → Flow) : (d.modFlow i f).aux = d.aux := rfl
@[simp] theorem modFlow_coll (i : Nat) (f : Flow → Flow) : (d.modFlow i f).coll = d.coll := rfl
@[simp] theorem modFlow_homes (i : Nat) (f : Flow → Flow) : (d.modFlow i f).homes = d.homes := rfl
@[simp] theorem modFlow_caches (i : Nat) (f : Flow → Flow) : (d.modFlow i f).caches = d.caches := rfl
@[simp] theorem modFlow_host (i : Nat) (f : Flow → Flow) : (d.modFlow i f).host = d.host := rfl
@[simp] theorem modFlow_silkai (i : Nat) (f : Flow → Flow) : (d.modFlow i f).silkai = d.silkai := rfl
@[simp] theorem modFlow_flash (i : Nat) (f : Flow → Flow) : (d.modFlow i f).flash = d.flash := rfl
@[simp] theorem modFlow_fc (i : Nat) (f : Flow → Flow) : (d.modFlow i f).fc = d.fc := rfl
@[simp] theorem modFlow_pwr (i : Nat) (f : Flow → Flow) : (d.modFlow i f).pwr = d.pwr := rfl
@[simp] theorem modFlow_loLatch (i : Nat) (f : Flow → Flow) : (d.modFlow i f).loLatch = d.loLatch := rfl
@[simp] theorem modFlow_hiLatch (i : Nat) (f : Flow → Flow) : (d.modFlow i f).hiLatch = d.hiLatch := rfl
@[simp] theorem modFlow_out (i : Nat) (f : Flow → Flow) : (d.modFlow i f).out = d.out := rfl
@[simp] theorem modFlow_free (i : Nat) (f : Flow → Flow) : (d.modFlow i f).free = d.free := rfl
@[simp] theorem modFlow_era (i : Nat) (f : Flow → Flow) : (d.modFlow i f).era = d.era := rfl

/-! modEth -/

@[simp] theorem modEth_benches (i : Nat) (f : EthPort → EthPort) : (d.modEth i f).benches = d.benches := rfl
@[simp] theorem modEth_active (i : Nat) (f : EthPort → EthPort) : (d.modEth i f).active = d.active := rfl
@[simp] theorem modEth_mem (i : Nat) (f : EthPort → EthPort) : (d.modEth i f).mem = d.mem := rfl
@[simp] theorem modEth_near (i : Nat) (f : EthPort → EthPort) : (d.modEth i f).near = d.near := rfl
@[simp] theorem modEth_far (i : Nat) (f : EthPort → EthPort) : (d.modEth i f).far = d.far := rfl
@[simp] theorem modEth_jigs (i : Nat) (f : EthPort → EthPort) : (d.modEth i f).jigs = d.jigs := rfl
@[simp] theorem modEth_life (i : Nat) (f : EthPort → EthPort) : (d.modEth i f).life = d.life := rfl
@[simp] theorem modEth_stagers (i : Nat) (f : EthPort → EthPort) : (d.modEth i f).stagers = d.stagers := rfl
@[simp] theorem modEth_stream (i : Nat) (f : EthPort → EthPort) : (d.modEth i f).stream = d.stream := rfl
@[simp] theorem modEth_planes (i : Nat) (f : EthPort → EthPort) : (d.modEth i f).planes = d.planes := rfl
@[simp] theorem modEth_opt (i : Nat) (f : EthPort → EthPort) : (d.modEth i f).opt = d.opt := rfl
@[simp] theorem modEth_aux (i : Nat) (f : EthPort → EthPort) : (d.modEth i f).aux = d.aux := rfl
@[simp] theorem modEth_coll (i : Nat) (f : EthPort → EthPort) : (d.modEth i f).coll = d.coll := rfl
@[simp] theorem modEth_homes (i : Nat) (f : EthPort → EthPort) : (d.modEth i f).homes = d.homes := rfl
@[simp] theorem modEth_caches (i : Nat) (f : EthPort → EthPort) : (d.modEth i f).caches = d.caches := rfl
@[simp] theorem modEth_host (i : Nat) (f : EthPort → EthPort) : (d.modEth i f).host = d.host := rfl
@[simp] theorem modEth_silkai (i : Nat) (f : EthPort → EthPort) : (d.modEth i f).silkai = d.silkai := rfl
@[simp] theorem modEth_flash (i : Nat) (f : EthPort → EthPort) : (d.modEth i f).flash = d.flash := rfl
@[simp] theorem modEth_fc (i : Nat) (f : EthPort → EthPort) : (d.modEth i f).fc = d.fc := rfl
@[simp] theorem modEth_pwr (i : Nat) (f : EthPort → EthPort) : (d.modEth i f).pwr = d.pwr := rfl
@[simp] theorem modEth_loLatch (i : Nat) (f : EthPort → EthPort) : (d.modEth i f).loLatch = d.loLatch := rfl
@[simp] theorem modEth_hiLatch (i : Nat) (f : EthPort → EthPort) : (d.modEth i f).hiLatch = d.hiLatch := rfl
@[simp] theorem modEth_out (i : Nat) (f : EthPort → EthPort) : (d.modEth i f).out = d.out := rfl
@[simp] theorem modEth_free (i : Nat) (f : EthPort → EthPort) : (d.modEth i f).free = d.free := rfl
@[simp] theorem modEth_era (i : Nat) (f : EthPort → EthPort) : (d.modEth i f).era = d.era := rfl

/-! modNode -/

@[simp] theorem modNode_benches (i : Nat) (f : Node → Node) : (d.modNode i f).benches = d.benches := rfl
@[simp] theorem modNode_active (i : Nat) (f : Node → Node) : (d.modNode i f).active = d.active := rfl
@[simp] theorem modNode_mem (i : Nat) (f : Node → Node) : (d.modNode i f).mem = d.mem := rfl
@[simp] theorem modNode_near (i : Nat) (f : Node → Node) : (d.modNode i f).near = d.near := rfl
@[simp] theorem modNode_far (i : Nat) (f : Node → Node) : (d.modNode i f).far = d.far := rfl
@[simp] theorem modNode_jigs (i : Nat) (f : Node → Node) : (d.modNode i f).jigs = d.jigs := rfl
@[simp] theorem modNode_life (i : Nat) (f : Node → Node) : (d.modNode i f).life = d.life := rfl
@[simp] theorem modNode_stagers (i : Nat) (f : Node → Node) : (d.modNode i f).stagers = d.stagers := rfl
@[simp] theorem modNode_stream (i : Nat) (f : Node → Node) : (d.modNode i f).stream = d.stream := rfl
@[simp] theorem modNode_planes (i : Nat) (f : Node → Node) : (d.modNode i f).planes = d.planes := rfl
@[simp] theorem modNode_opt (i : Nat) (f : Node → Node) : (d.modNode i f).opt = d.opt := rfl
@[simp] theorem modNode_aux (i : Nat) (f : Node → Node) : (d.modNode i f).aux = d.aux := rfl
@[simp] theorem modNode_coll (i : Nat) (f : Node → Node) : (d.modNode i f).coll = d.coll := rfl
@[simp] theorem modNode_homes (i : Nat) (f : Node → Node) : (d.modNode i f).homes = d.homes := rfl
@[simp] theorem modNode_caches (i : Nat) (f : Node → Node) : (d.modNode i f).caches = d.caches := rfl
@[simp] theorem modNode_host (i : Nat) (f : Node → Node) : (d.modNode i f).host = d.host := rfl
@[simp] theorem modNode_silkai (i : Nat) (f : Node → Node) : (d.modNode i f).silkai = d.silkai := rfl
@[simp] theorem modNode_flash (i : Nat) (f : Node → Node) : (d.modNode i f).flash = d.flash := rfl
@[simp] theorem modNode_fc (i : Nat) (f : Node → Node) : (d.modNode i f).fc = d.fc := rfl
@[simp] theorem modNode_pwr (i : Nat) (f : Node → Node) : (d.modNode i f).pwr = d.pwr := rfl
@[simp] theorem modNode_loLatch (i : Nat) (f : Node → Node) : (d.modNode i f).loLatch = d.loLatch := rfl
@[simp] theorem modNode_hiLatch (i : Nat) (f : Node → Node) : (d.modNode i f).hiLatch = d.hiLatch := rfl
@[simp] theorem modNode_out (i : Nat) (f : Node → Node) : (d.modNode i f).out = d.out := rfl
@[simp] theorem modNode_free (i : Nat) (f : Node → Node) : (d.modNode i f).free = d.free := rfl
@[simp] theorem modNode_era (i : Nat) (f : Node → Node) : (d.modNode i f).era = d.era := rfl

/-! modAux -/

@[simp] theorem modAux_benches (f : FabAux → FabAux) : (d.modAux f).benches = d.benches := rfl
@[simp] theorem modAux_active (f : FabAux → FabAux) : (d.modAux f).active = d.active := rfl
@[simp] theorem modAux_mem (f : FabAux → FabAux) : (d.modAux f).mem = d.mem := rfl
@[simp] theorem modAux_near (f : FabAux → FabAux) : (d.modAux f).near = d.near := rfl
@[simp] theorem modAux_far (f : FabAux → FabAux) : (d.modAux f).far = d.far := rfl
@[simp] theorem modAux_jigs (f : FabAux → FabAux) : (d.modAux f).jigs = d.jigs := rfl
@[simp] theorem modAux_life (f : FabAux → FabAux) : (d.modAux f).life = d.life := rfl
@[simp] theorem modAux_stagers (f : FabAux → FabAux) : (d.modAux f).stagers = d.stagers := rfl
@[simp] theorem modAux_stream (f : FabAux → FabAux) : (d.modAux f).stream = d.stream := rfl
@[simp] theorem modAux_planes (f : FabAux → FabAux) : (d.modAux f).planes = d.planes := rfl
@[simp] theorem modAux_opt (f : FabAux → FabAux) : (d.modAux f).opt = d.opt := rfl
@[simp] theorem modAux_fab (f : FabAux → FabAux) : (d.modAux f).fab = d.fab := rfl
@[simp] theorem modAux_coll (f : FabAux → FabAux) : (d.modAux f).coll = d.coll := rfl
@[simp] theorem modAux_homes (f : FabAux → FabAux) : (d.modAux f).homes = d.homes := rfl
@[simp] theorem modAux_caches (f : FabAux → FabAux) : (d.modAux f).caches = d.caches := rfl
@[simp] theorem modAux_host (f : FabAux → FabAux) : (d.modAux f).host = d.host := rfl
@[simp] theorem modAux_silkai (f : FabAux → FabAux) : (d.modAux f).silkai = d.silkai := rfl
@[simp] theorem modAux_flash (f : FabAux → FabAux) : (d.modAux f).flash = d.flash := rfl
@[simp] theorem modAux_fc (f : FabAux → FabAux) : (d.modAux f).fc = d.fc := rfl
@[simp] theorem modAux_pwr (f : FabAux → FabAux) : (d.modAux f).pwr = d.pwr := rfl
@[simp] theorem modAux_loLatch (f : FabAux → FabAux) : (d.modAux f).loLatch = d.loLatch := rfl
@[simp] theorem modAux_hiLatch (f : FabAux → FabAux) : (d.modAux f).hiLatch = d.hiLatch := rfl
@[simp] theorem modAux_out (f : FabAux → FabAux) : (d.modAux f).out = d.out := rfl
@[simp] theorem modAux_free (f : FabAux → FabAux) : (d.modAux f).free = d.free := rfl
@[simp] theorem modAux_era (f : FabAux → FabAux) : (d.modAux f).era = d.era := rfl
@[simp] theorem modAux_aux (f : FabAux → FabAux) : (d.modAux f).aux = f d.aux := rfl

/-! modColl -/

@[simp] theorem modColl_benches (f : Coll → Coll) : (d.modColl f).benches = d.benches := rfl
@[simp] theorem modColl_active (f : Coll → Coll) : (d.modColl f).active = d.active := rfl
@[simp] theorem modColl_mem (f : Coll → Coll) : (d.modColl f).mem = d.mem := rfl
@[simp] theorem modColl_near (f : Coll → Coll) : (d.modColl f).near = d.near := rfl
@[simp] theorem modColl_far (f : Coll → Coll) : (d.modColl f).far = d.far := rfl
@[simp] theorem modColl_jigs (f : Coll → Coll) : (d.modColl f).jigs = d.jigs := rfl
@[simp] theorem modColl_life (f : Coll → Coll) : (d.modColl f).life = d.life := rfl
@[simp] theorem modColl_stagers (f : Coll → Coll) : (d.modColl f).stagers = d.stagers := rfl
@[simp] theorem modColl_stream (f : Coll → Coll) : (d.modColl f).stream = d.stream := rfl
@[simp] theorem modColl_planes (f : Coll → Coll) : (d.modColl f).planes = d.planes := rfl
@[simp] theorem modColl_opt (f : Coll → Coll) : (d.modColl f).opt = d.opt := rfl
@[simp] theorem modColl_fab (f : Coll → Coll) : (d.modColl f).fab = d.fab := rfl
@[simp] theorem modColl_aux (f : Coll → Coll) : (d.modColl f).aux = d.aux := rfl
@[simp] theorem modColl_homes (f : Coll → Coll) : (d.modColl f).homes = d.homes := rfl
@[simp] theorem modColl_caches (f : Coll → Coll) : (d.modColl f).caches = d.caches := rfl
@[simp] theorem modColl_host (f : Coll → Coll) : (d.modColl f).host = d.host := rfl
@[simp] theorem modColl_silkai (f : Coll → Coll) : (d.modColl f).silkai = d.silkai := rfl
@[simp] theorem modColl_flash (f : Coll → Coll) : (d.modColl f).flash = d.flash := rfl
@[simp] theorem modColl_fc (f : Coll → Coll) : (d.modColl f).fc = d.fc := rfl
@[simp] theorem modColl_pwr (f : Coll → Coll) : (d.modColl f).pwr = d.pwr := rfl
@[simp] theorem modColl_loLatch (f : Coll → Coll) : (d.modColl f).loLatch = d.loLatch := rfl
@[simp] theorem modColl_hiLatch (f : Coll → Coll) : (d.modColl f).hiLatch = d.hiLatch := rfl
@[simp] theorem modColl_out (f : Coll → Coll) : (d.modColl f).out = d.out := rfl
@[simp] theorem modColl_free (f : Coll → Coll) : (d.modColl f).free = d.free := rfl
@[simp] theorem modColl_era (f : Coll → Coll) : (d.modColl f).era = d.era := rfl
@[simp] theorem modColl_coll (f : Coll → Coll) : (d.modColl f).coll = f d.coll := rfl

/-! modLife -/

@[simp] theorem modLife_benches (f : StepLife → StepLife) : (d.modLife f).benches = d.benches := rfl
@[simp] theorem modLife_active (f : StepLife → StepLife) : (d.modLife f).active = d.active := rfl
@[simp] theorem modLife_mem (f : StepLife → StepLife) : (d.modLife f).mem = d.mem := rfl
@[simp] theorem modLife_near (f : StepLife → StepLife) : (d.modLife f).near = d.near := rfl
@[simp] theorem modLife_far (f : StepLife → StepLife) : (d.modLife f).far = d.far := rfl
@[simp] theorem modLife_jigs (f : StepLife → StepLife) : (d.modLife f).jigs = d.jigs := rfl
@[simp] theorem modLife_stagers (f : StepLife → StepLife) : (d.modLife f).stagers = d.stagers := rfl
@[simp] theorem modLife_stream (f : StepLife → StepLife) : (d.modLife f).stream = d.stream := rfl
@[simp] theorem modLife_planes (f : StepLife → StepLife) : (d.modLife f).planes = d.planes := rfl
@[simp] theorem modLife_opt (f : StepLife → StepLife) : (d.modLife f).opt = d.opt := rfl
@[simp] theorem modLife_fab (f : StepLife → StepLife) : (d.modLife f).fab = d.fab := rfl
@[simp] theorem modLife_aux (f : StepLife → StepLife) : (d.modLife f).aux = d.aux := rfl
@[simp] theorem modLife_coll (f : StepLife → StepLife) : (d.modLife f).coll = d.coll := rfl
@[simp] theorem modLife_homes (f : StepLife → StepLife) : (d.modLife f).homes = d.homes := rfl
@[simp] theorem modLife_caches (f : StepLife → StepLife) : (d.modLife f).caches = d.caches := rfl
@[simp] theorem modLife_host (f : StepLife → StepLife) : (d.modLife f).host = d.host := rfl
@[simp] theorem modLife_silkai (f : StepLife → StepLife) : (d.modLife f).silkai = d.silkai := rfl
@[simp] theorem modLife_flash (f : StepLife → StepLife) : (d.modLife f).flash = d.flash := rfl
@[simp] theorem modLife_fc (f : StepLife → StepLife) : (d.modLife f).fc = d.fc := rfl
@[simp] theorem modLife_pwr (f : StepLife → StepLife) : (d.modLife f).pwr = d.pwr := rfl
@[simp] theorem modLife_loLatch (f : StepLife → StepLife) : (d.modLife f).loLatch = d.loLatch := rfl
@[simp] theorem modLife_hiLatch (f : StepLife → StepLife) : (d.modLife f).hiLatch = d.hiLatch := rfl
@[simp] theorem modLife_out (f : StepLife → StepLife) : (d.modLife f).out = d.out := rfl
@[simp] theorem modLife_free (f : StepLife → StepLife) : (d.modLife f).free = d.free := rfl
@[simp] theorem modLife_era (f : StepLife → StepLife) : (d.modLife f).era = d.era := rfl
@[simp] theorem modLife_life (f : StepLife → StepLife) : (d.modLife f).life = f d.life := rfl

/-! modStream -/

@[simp] theorem modStream_benches (f : Stream → Stream) : (d.modStream f).benches = d.benches := rfl
@[simp] theorem modStream_active (f : Stream → Stream) : (d.modStream f).active = d.active := rfl
@[simp] theorem modStream_mem (f : Stream → Stream) : (d.modStream f).mem = d.mem := rfl
@[simp] theorem modStream_near (f : Stream → Stream) : (d.modStream f).near = d.near := rfl
@[simp] theorem modStream_far (f : Stream → Stream) : (d.modStream f).far = d.far := rfl
@[simp] theorem modStream_jigs (f : Stream → Stream) : (d.modStream f).jigs = d.jigs := rfl
@[simp] theorem modStream_life (f : Stream → Stream) : (d.modStream f).life = d.life := rfl
@[simp] theorem modStream_stagers (f : Stream → Stream) : (d.modStream f).stagers = d.stagers := rfl
@[simp] theorem modStream_planes (f : Stream → Stream) : (d.modStream f).planes = d.planes := rfl
@[simp] theorem modStream_opt (f : Stream → Stream) : (d.modStream f).opt = d.opt := rfl
@[simp] theorem modStream_fab (f : Stream → Stream) : (d.modStream f).fab = d.fab := rfl
@[simp] theorem modStream_aux (f : Stream → Stream) : (d.modStream f).aux = d.aux := rfl
@[simp] theorem modStream_coll (f : Stream → Stream) : (d.modStream f).coll = d.coll := rfl
@[simp] theorem modStream_homes (f : Stream → Stream) : (d.modStream f).homes = d.homes := rfl
@[simp] theorem modStream_caches (f : Stream → Stream) : (d.modStream f).caches = d.caches := rfl
@[simp] theorem modStream_host (f : Stream → Stream) : (d.modStream f).host = d.host := rfl
@[simp] theorem modStream_silkai (f : Stream → Stream) : (d.modStream f).silkai = d.silkai := rfl
@[simp] theorem modStream_flash (f : Stream → Stream) : (d.modStream f).flash = d.flash := rfl
@[simp] theorem modStream_fc (f : Stream → Stream) : (d.modStream f).fc = d.fc := rfl
@[simp] theorem modStream_pwr (f : Stream → Stream) : (d.modStream f).pwr = d.pwr := rfl
@[simp] theorem modStream_loLatch (f : Stream → Stream) : (d.modStream f).loLatch = d.loLatch := rfl
@[simp] theorem modStream_hiLatch (f : Stream → Stream) : (d.modStream f).hiLatch = d.hiLatch := rfl
@[simp] theorem modStream_out (f : Stream → Stream) : (d.modStream f).out = d.out := rfl
@[simp] theorem modStream_free (f : Stream → Stream) : (d.modStream f).free = d.free := rfl
@[simp] theorem modStream_era (f : Stream → Stream) : (d.modStream f).era = d.era := rfl
@[simp] theorem modStream_stream (f : Stream → Stream) : (d.modStream f).stream = f d.stream := rfl

/-! modOpt -/

@[simp] theorem modOpt_benches (f : OptJob → OptJob) : (d.modOpt f).benches = d.benches := rfl
@[simp] theorem modOpt_active (f : OptJob → OptJob) : (d.modOpt f).active = d.active := rfl
@[simp] theorem modOpt_mem (f : OptJob → OptJob) : (d.modOpt f).mem = d.mem := rfl
@[simp] theorem modOpt_near (f : OptJob → OptJob) : (d.modOpt f).near = d.near := rfl
@[simp] theorem modOpt_far (f : OptJob → OptJob) : (d.modOpt f).far = d.far := rfl
@[simp] theorem modOpt_jigs (f : OptJob → OptJob) : (d.modOpt f).jigs = d.jigs := rfl
@[simp] theorem modOpt_life (f : OptJob → OptJob) : (d.modOpt f).life = d.life := rfl
@[simp] theorem modOpt_stagers (f : OptJob → OptJob) : (d.modOpt f).stagers = d.stagers := rfl
@[simp] theorem modOpt_stream (f : OptJob → OptJob) : (d.modOpt f).stream = d.stream := rfl
@[simp] theorem modOpt_planes (f : OptJob → OptJob) : (d.modOpt f).planes = d.planes := rfl
@[simp] theorem modOpt_fab (f : OptJob → OptJob) : (d.modOpt f).fab = d.fab := rfl
@[simp] theorem modOpt_aux (f : OptJob → OptJob) : (d.modOpt f).aux = d.aux := rfl
@[simp] theorem modOpt_coll (f : OptJob → OptJob) : (d.modOpt f).coll = d.coll := rfl
@[simp] theorem modOpt_homes (f : OptJob → OptJob) : (d.modOpt f).homes = d.homes := rfl
@[simp] theorem modOpt_caches (f : OptJob → OptJob) : (d.modOpt f).caches = d.caches := rfl
@[simp] theorem modOpt_host (f : OptJob → OptJob) : (d.modOpt f).host = d.host := rfl
@[simp] theorem modOpt_silkai (f : OptJob → OptJob) : (d.modOpt f).silkai = d.silkai := rfl
@[simp] theorem modOpt_flash (f : OptJob → OptJob) : (d.modOpt f).flash = d.flash := rfl
@[simp] theorem modOpt_fc (f : OptJob → OptJob) : (d.modOpt f).fc = d.fc := rfl
@[simp] theorem modOpt_pwr (f : OptJob → OptJob) : (d.modOpt f).pwr = d.pwr := rfl
@[simp] theorem modOpt_loLatch (f : OptJob → OptJob) : (d.modOpt f).loLatch = d.loLatch := rfl
@[simp] theorem modOpt_hiLatch (f : OptJob → OptJob) : (d.modOpt f).hiLatch = d.hiLatch := rfl
@[simp] theorem modOpt_out (f : OptJob → OptJob) : (d.modOpt f).out = d.out := rfl
@[simp] theorem modOpt_free (f : OptJob → OptJob) : (d.modOpt f).free = d.free := rfl
@[simp] theorem modOpt_era (f : OptJob → OptJob) : (d.modOpt f).era = d.era := rfl
@[simp] theorem modOpt_opt (f : OptJob → OptJob) : (d.modOpt f).opt = f d.opt := rfl

/-! modHost -/

@[simp] theorem modHost_benches (f : HostPort → HostPort) : (d.modHost f).benches = d.benches := rfl
@[simp] theorem modHost_active (f : HostPort → HostPort) : (d.modHost f).active = d.active := rfl
@[simp] theorem modHost_mem (f : HostPort → HostPort) : (d.modHost f).mem = d.mem := rfl
@[simp] theorem modHost_near (f : HostPort → HostPort) : (d.modHost f).near = d.near := rfl
@[simp] theorem modHost_far (f : HostPort → HostPort) : (d.modHost f).far = d.far := rfl
@[simp] theorem modHost_jigs (f : HostPort → HostPort) : (d.modHost f).jigs = d.jigs := rfl
@[simp] theorem modHost_life (f : HostPort → HostPort) : (d.modHost f).life = d.life := rfl
@[simp] theorem modHost_stagers (f : HostPort → HostPort) : (d.modHost f).stagers = d.stagers := rfl
@[simp] theorem modHost_stream (f : HostPort → HostPort) : (d.modHost f).stream = d.stream := rfl
@[simp] theorem modHost_planes (f : HostPort → HostPort) : (d.modHost f).planes = d.planes := rfl
@[simp] theorem modHost_opt (f : HostPort → HostPort) : (d.modHost f).opt = d.opt := rfl
@[simp] theorem modHost_fab (f : HostPort → HostPort) : (d.modHost f).fab = d.fab := rfl
@[simp] theorem modHost_aux (f : HostPort → HostPort) : (d.modHost f).aux = d.aux := rfl
@[simp] theorem modHost_coll (f : HostPort → HostPort) : (d.modHost f).coll = d.coll := rfl
@[simp] theorem modHost_homes (f : HostPort → HostPort) : (d.modHost f).homes = d.homes := rfl
@[simp] theorem modHost_caches (f : HostPort → HostPort) : (d.modHost f).caches = d.caches := rfl
@[simp] theorem modHost_silkai (f : HostPort → HostPort) : (d.modHost f).silkai = d.silkai := rfl
@[simp] theorem modHost_flash (f : HostPort → HostPort) : (d.modHost f).flash = d.flash := rfl
@[simp] theorem modHost_fc (f : HostPort → HostPort) : (d.modHost f).fc = d.fc := rfl
@[simp] theorem modHost_pwr (f : HostPort → HostPort) : (d.modHost f).pwr = d.pwr := rfl
@[simp] theorem modHost_loLatch (f : HostPort → HostPort) : (d.modHost f).loLatch = d.loLatch := rfl
@[simp] theorem modHost_hiLatch (f : HostPort → HostPort) : (d.modHost f).hiLatch = d.hiLatch := rfl
@[simp] theorem modHost_out (f : HostPort → HostPort) : (d.modHost f).out = d.out := rfl
@[simp] theorem modHost_free (f : HostPort → HostPort) : (d.modHost f).free = d.free := rfl
@[simp] theorem modHost_era (f : HostPort → HostPort) : (d.modHost f).era = d.era := rfl
@[simp] theorem modHost_host (f : HostPort → HostPort) : (d.modHost f).host = f d.host := rfl

/-! modFc -/

@[simp] theorem modFc_benches (f : Collector → Collector) : (d.modFc f).benches = d.benches := rfl
@[simp] theorem modFc_active (f : Collector → Collector) : (d.modFc f).active = d.active := rfl
@[simp] theorem modFc_mem (f : Collector → Collector) : (d.modFc f).mem = d.mem := rfl
@[simp] theorem modFc_near (f : Collector → Collector) : (d.modFc f).near = d.near := rfl
@[simp] theorem modFc_far (f : Collector → Collector) : (d.modFc f).far = d.far := rfl
@[simp] theorem modFc_jigs (f : Collector → Collector) : (d.modFc f).jigs = d.jigs := rfl
@[simp] theorem modFc_life (f : Collector → Collector) : (d.modFc f).life = d.life := rfl
@[simp] theorem modFc_stagers (f : Collector → Collector) : (d.modFc f).stagers = d.stagers := rfl
@[simp] theorem modFc_stream (f : Collector → Collector) : (d.modFc f).stream = d.stream := rfl
@[simp] theorem modFc_planes (f : Collector → Collector) : (d.modFc f).planes = d.planes := rfl
@[simp] theorem modFc_opt (f : Collector → Collector) : (d.modFc f).opt = d.opt := rfl
@[simp] theorem modFc_fab (f : Collector → Collector) : (d.modFc f).fab = d.fab := rfl
@[simp] theorem modFc_aux (f : Collector → Collector) : (d.modFc f).aux = d.aux := rfl
@[simp] theorem modFc_coll (f : Collector → Collector) : (d.modFc f).coll = d.coll := rfl
@[simp] theorem modFc_homes (f : Collector → Collector) : (d.modFc f).homes = d.homes := rfl
@[simp] theorem modFc_caches (f : Collector → Collector) : (d.modFc f).caches = d.caches := rfl
@[simp] theorem modFc_host (f : Collector → Collector) : (d.modFc f).host = d.host := rfl
@[simp] theorem modFc_silkai (f : Collector → Collector) : (d.modFc f).silkai = d.silkai := rfl
@[simp] theorem modFc_flash (f : Collector → Collector) : (d.modFc f).flash = d.flash := rfl
@[simp] theorem modFc_pwr (f : Collector → Collector) : (d.modFc f).pwr = d.pwr := rfl
@[simp] theorem modFc_loLatch (f : Collector → Collector) : (d.modFc f).loLatch = d.loLatch := rfl
@[simp] theorem modFc_hiLatch (f : Collector → Collector) : (d.modFc f).hiLatch = d.hiLatch := rfl
@[simp] theorem modFc_out (f : Collector → Collector) : (d.modFc f).out = d.out := rfl
@[simp] theorem modFc_free (f : Collector → Collector) : (d.modFc f).free = d.free := rfl
@[simp] theorem modFc_era (f : Collector → Collector) : (d.modFc f).era = d.era := rfl
@[simp] theorem modFc_fc (f : Collector → Collector) : (d.modFc f).fc = f d.fc := rfl

/-! modPwr -/

@[simp] theorem modPwr_benches (f : Power → Power) : (d.modPwr f).benches = d.benches := rfl
@[simp] theorem modPwr_active (f : Power → Power) : (d.modPwr f).active = d.active := rfl
@[simp] theorem modPwr_mem (f : Power → Power) : (d.modPwr f).mem = d.mem := rfl
@[simp] theorem modPwr_near (f : Power → Power) : (d.modPwr f).near = d.near := rfl
@[simp] theorem modPwr_far (f : Power → Power) : (d.modPwr f).far = d.far := rfl
@[simp] theorem modPwr_jigs (f : Power → Power) : (d.modPwr f).jigs = d.jigs := rfl
@[simp] theorem modPwr_life (f : Power → Power) : (d.modPwr f).life = d.life := rfl
@[simp] theorem modPwr_stagers (f : Power → Power) : (d.modPwr f).stagers = d.stagers := rfl
@[simp] theorem modPwr_stream (f : Power → Power) : (d.modPwr f).stream = d.stream := rfl
@[simp] theorem modPwr_planes (f : Power → Power) : (d.modPwr f).planes = d.planes := rfl
@[simp] theorem modPwr_opt (f : Power → Power) : (d.modPwr f).opt = d.opt := rfl
@[simp] theorem modPwr_fab (f : Power → Power) : (d.modPwr f).fab = d.fab := rfl
@[simp] theorem modPwr_aux (f : Power → Power) : (d.modPwr f).aux = d.aux := rfl
@[simp] theorem modPwr_coll (f : Power → Power) : (d.modPwr f).coll = d.coll := rfl
@[simp] theorem modPwr_homes (f : Power → Power) : (d.modPwr f).homes = d.homes := rfl
@[simp] theorem modPwr_caches (f : Power → Power) : (d.modPwr f).caches = d.caches := rfl
@[simp] theorem modPwr_host (f : Power → Power) : (d.modPwr f).host = d.host := rfl
@[simp] theorem modPwr_silkai (f : Power → Power) : (d.modPwr f).silkai = d.silkai := rfl
@[simp] theorem modPwr_flash (f : Power → Power) : (d.modPwr f).flash = d.flash := rfl
@[simp] theorem modPwr_fc (f : Power → Power) : (d.modPwr f).fc = d.fc := rfl
@[simp] theorem modPwr_loLatch (f : Power → Power) : (d.modPwr f).loLatch = d.loLatch := rfl
@[simp] theorem modPwr_hiLatch (f : Power → Power) : (d.modPwr f).hiLatch = d.hiLatch := rfl
@[simp] theorem modPwr_out (f : Power → Power) : (d.modPwr f).out = d.out := rfl
@[simp] theorem modPwr_free (f : Power → Power) : (d.modPwr f).free = d.free := rfl
@[simp] theorem modPwr_era (f : Power → Power) : (d.modPwr f).era = d.era := rfl
@[simp] theorem modPwr_pwr (f : Power → Power) : (d.modPwr f).pwr = f d.pwr := rfl

/-! modBay -/

@[simp] theorem modBay_benches (i : Nat) (f : BayPower → BayPower) : (d.modBay i f).benches = d.benches := rfl
@[simp] theorem modBay_active (i : Nat) (f : BayPower → BayPower) : (d.modBay i f).active = d.active := rfl
@[simp] theorem modBay_mem (i : Nat) (f : BayPower → BayPower) : (d.modBay i f).mem = d.mem := rfl
@[simp] theorem modBay_near (i : Nat) (f : BayPower → BayPower) : (d.modBay i f).near = d.near := rfl
@[simp] theorem modBay_far (i : Nat) (f : BayPower → BayPower) : (d.modBay i f).far = d.far := rfl
@[simp] theorem modBay_jigs (i : Nat) (f : BayPower → BayPower) : (d.modBay i f).jigs = d.jigs := rfl
@[simp] theorem modBay_life (i : Nat) (f : BayPower → BayPower) : (d.modBay i f).life = d.life := rfl
@[simp] theorem modBay_stagers (i : Nat) (f : BayPower → BayPower) : (d.modBay i f).stagers = d.stagers := rfl
@[simp] theorem modBay_stream (i : Nat) (f : BayPower → BayPower) : (d.modBay i f).stream = d.stream := rfl
@[simp] theorem modBay_planes (i : Nat) (f : BayPower → BayPower) : (d.modBay i f).planes = d.planes := rfl
@[simp] theorem modBay_opt (i : Nat) (f : BayPower → BayPower) : (d.modBay i f).opt = d.opt := rfl
@[simp] theorem modBay_fab (i : Nat) (f : BayPower → BayPower) : (d.modBay i f).fab = d.fab := rfl
@[simp] theorem modBay_aux (i : Nat) (f : BayPower → BayPower) : (d.modBay i f).aux = d.aux := rfl
@[simp] theorem modBay_coll (i : Nat) (f : BayPower → BayPower) : (d.modBay i f).coll = d.coll := rfl
@[simp] theorem modBay_homes (i : Nat) (f : BayPower → BayPower) : (d.modBay i f).homes = d.homes := rfl
@[simp] theorem modBay_caches (i : Nat) (f : BayPower → BayPower) : (d.modBay i f).caches = d.caches := rfl
@[simp] theorem modBay_host (i : Nat) (f : BayPower → BayPower) : (d.modBay i f).host = d.host := rfl
@[simp] theorem modBay_silkai (i : Nat) (f : BayPower → BayPower) : (d.modBay i f).silkai = d.silkai := rfl
@[simp] theorem modBay_flash (i : Nat) (f : BayPower → BayPower) : (d.modBay i f).flash = d.flash := rfl
@[simp] theorem modBay_fc (i : Nat) (f : BayPower → BayPower) : (d.modBay i f).fc = d.fc := rfl
@[simp] theorem modBay_loLatch (i : Nat) (f : BayPower → BayPower) : (d.modBay i f).loLatch = d.loLatch := rfl
@[simp] theorem modBay_hiLatch (i : Nat) (f : BayPower → BayPower) : (d.modBay i f).hiLatch = d.hiLatch := rfl
@[simp] theorem modBay_out (i : Nat) (f : BayPower → BayPower) : (d.modBay i f).out = d.out := rfl
@[simp] theorem modBay_free (i : Nat) (f : BayPower → BayPower) : (d.modBay i f).free = d.free := rfl
@[simp] theorem modBay_era (i : Nat) (f : BayPower → BayPower) : (d.modBay i f).era = d.era := rfl

/-! emit -/

@[simp] theorem emit_benches (e : OutEvent) : (d.emit e).benches = d.benches := rfl
@[simp] theorem emit_active (e : OutEvent) : (d.emit e).active = d.active := rfl
@[simp] theorem emit_mem (e : OutEvent) : (d.emit e).mem = d.mem := rfl
@[simp] theorem emit_near (e : OutEvent) : (d.emit e).near = d.near := rfl
@[simp] theorem emit_far (e : OutEvent) : (d.emit e).far = d.far := rfl
@[simp] theorem emit_jigs (e : OutEvent) : (d.emit e).jigs = d.jigs := rfl
@[simp] theorem emit_life (e : OutEvent) : (d.emit e).life = d.life := rfl
@[simp] theorem emit_stagers (e : OutEvent) : (d.emit e).stagers = d.stagers := rfl
@[simp] theorem emit_stream (e : OutEvent) : (d.emit e).stream = d.stream := rfl
@[simp] theorem emit_planes (e : OutEvent) : (d.emit e).planes = d.planes := rfl
@[simp] theorem emit_opt (e : OutEvent) : (d.emit e).opt = d.opt := rfl
@[simp] theorem emit_fab (e : OutEvent) : (d.emit e).fab = d.fab := rfl
@[simp] theorem emit_aux (e : OutEvent) : (d.emit e).aux = d.aux := rfl
@[simp] theorem emit_coll (e : OutEvent) : (d.emit e).coll = d.coll := rfl
@[simp] theorem emit_homes (e : OutEvent) : (d.emit e).homes = d.homes := rfl
@[simp] theorem emit_caches (e : OutEvent) : (d.emit e).caches = d.caches := rfl
@[simp] theorem emit_host (e : OutEvent) : (d.emit e).host = d.host := rfl
@[simp] theorem emit_silkai (e : OutEvent) : (d.emit e).silkai = d.silkai := rfl
@[simp] theorem emit_flash (e : OutEvent) : (d.emit e).flash = d.flash := rfl
@[simp] theorem emit_fc (e : OutEvent) : (d.emit e).fc = d.fc := rfl
@[simp] theorem emit_pwr (e : OutEvent) : (d.emit e).pwr = d.pwr := rfl
@[simp] theorem emit_loLatch (e : OutEvent) : (d.emit e).loLatch = d.loLatch := rfl
@[simp] theorem emit_hiLatch (e : OutEvent) : (d.emit e).hiLatch = d.hiLatch := rfl
@[simp] theorem emit_free (e : OutEvent) : (d.emit e).free = d.free := rfl
@[simp] theorem emit_era (e : OutEvent) : (d.emit e).era = d.era := rfl

/-! setLine -/

@[simp] theorem setLine_benches (i k : Nat) (l : CacheLine) : (d.setLine i k l).benches = d.benches := rfl
@[simp] theorem setLine_active (i k : Nat) (l : CacheLine) : (d.setLine i k l).active = d.active := rfl
@[simp] theorem setLine_mem (i k : Nat) (l : CacheLine) : (d.setLine i k l).mem = d.mem := rfl
@[simp] theorem setLine_near (i k : Nat) (l : CacheLine) : (d.setLine i k l).near = d.near := rfl
@[simp] theorem setLine_far (i k : Nat) (l : CacheLine) : (d.setLine i k l).far = d.far := rfl
@[simp] theorem setLine_jigs (i k : Nat) (l : CacheLine) : (d.setLine i k l).jigs = d.jigs := rfl
@[simp] theorem setLine_life (i k : Nat) (l : CacheLine) : (d.setLine i k l).life = d.life := rfl
@[simp] theorem setLine_stagers (i k : Nat) (l : CacheLine) : (d.setLine i k l).stagers = d.stagers := rfl
@[simp] theorem setLine_stream (i k : Nat) (l : CacheLine) : (d.setLine i k l).stream = d.stream := rfl
@[simp] theorem setLine_planes (i k : Nat) (l : CacheLine) : (d.setLine i k l).planes = d.planes := rfl
@[simp] theorem setLine_opt (i k : Nat) (l : CacheLine) : (d.setLine i k l).opt = d.opt := rfl
@[simp] theorem setLine_fab (i k : Nat) (l : CacheLine) : (d.setLine i k l).fab = d.fab := rfl
@[simp] theorem setLine_aux (i k : Nat) (l : CacheLine) : (d.setLine i k l).aux = d.aux := rfl
@[simp] theorem setLine_coll (i k : Nat) (l : CacheLine) : (d.setLine i k l).coll = d.coll := rfl
@[simp] theorem setLine_homes (i k : Nat) (l : CacheLine) : (d.setLine i k l).homes = d.homes := rfl
@[simp] theorem setLine_host (i k : Nat) (l : CacheLine) : (d.setLine i k l).host = d.host := rfl
@[simp] theorem setLine_silkai (i k : Nat) (l : CacheLine) : (d.setLine i k l).silkai = d.silkai := rfl
@[simp] theorem setLine_flash (i k : Nat) (l : CacheLine) : (d.setLine i k l).flash = d.flash := rfl
@[simp] theorem setLine_fc (i k : Nat) (l : CacheLine) : (d.setLine i k l).fc = d.fc := rfl
@[simp] theorem setLine_pwr (i k : Nat) (l : CacheLine) : (d.setLine i k l).pwr = d.pwr := rfl
@[simp] theorem setLine_loLatch (i k : Nat) (l : CacheLine) : (d.setLine i k l).loLatch = d.loLatch := rfl
@[simp] theorem setLine_hiLatch (i k : Nat) (l : CacheLine) : (d.setLine i k l).hiLatch = d.hiLatch := rfl
@[simp] theorem setLine_out (i k : Nat) (l : CacheLine) : (d.setLine i k l).out = d.out := rfl
@[simp] theorem setLine_free (i k : Nat) (l : CacheLine) : (d.setLine i k l).free = d.free := rfl
@[simp] theorem setLine_era (i k : Nat) (l : CacheLine) : (d.setLine i k l).era = d.era := rfl

/-! memPut -/

@[simp] theorem memPut_benches (a : Nat) (bs : List Byte) : (d.memPut a bs).benches = d.benches := rfl
@[simp] theorem memPut_active (a : Nat) (bs : List Byte) : (d.memPut a bs).active = d.active := rfl
@[simp] theorem memPut_near (a : Nat) (bs : List Byte) : (d.memPut a bs).near = d.near := rfl
@[simp] theorem memPut_far (a : Nat) (bs : List Byte) : (d.memPut a bs).far = d.far := rfl
@[simp] theorem memPut_jigs (a : Nat) (bs : List Byte) : (d.memPut a bs).jigs = d.jigs := rfl
@[simp] theorem memPut_life (a : Nat) (bs : List Byte) : (d.memPut a bs).life = d.life := rfl
@[simp] theorem memPut_stagers (a : Nat) (bs : List Byte) : (d.memPut a bs).stagers = d.stagers := rfl
@[simp] theorem memPut_stream (a : Nat) (bs : List Byte) : (d.memPut a bs).stream = d.stream := rfl
@[simp] theorem memPut_planes (a : Nat) (bs : List Byte) : (d.memPut a bs).planes = d.planes := rfl
@[simp] theorem memPut_opt (a : Nat) (bs : List Byte) : (d.memPut a bs).opt = d.opt := rfl
@[simp] theorem memPut_fab (a : Nat) (bs : List Byte) : (d.memPut a bs).fab = d.fab := rfl
@[simp] theorem memPut_aux (a : Nat) (bs : List Byte) : (d.memPut a bs).aux = d.aux := rfl
@[simp] theorem memPut_coll (a : Nat) (bs : List Byte) : (d.memPut a bs).coll = d.coll := rfl
@[simp] theorem memPut_homes (a : Nat) (bs : List Byte) : (d.memPut a bs).homes = d.homes := rfl
@[simp] theorem memPut_caches (a : Nat) (bs : List Byte) : (d.memPut a bs).caches = d.caches := rfl
@[simp] theorem memPut_host (a : Nat) (bs : List Byte) : (d.memPut a bs).host = d.host := rfl
@[simp] theorem memPut_silkai (a : Nat) (bs : List Byte) : (d.memPut a bs).silkai = d.silkai := rfl
@[simp] theorem memPut_flash (a : Nat) (bs : List Byte) : (d.memPut a bs).flash = d.flash := rfl
@[simp] theorem memPut_fc (a : Nat) (bs : List Byte) : (d.memPut a bs).fc = d.fc := rfl
@[simp] theorem memPut_pwr (a : Nat) (bs : List Byte) : (d.memPut a bs).pwr = d.pwr := rfl
@[simp] theorem memPut_loLatch (a : Nat) (bs : List Byte) : (d.memPut a bs).loLatch = d.loLatch := rfl
@[simp] theorem memPut_hiLatch (a : Nat) (bs : List Byte) : (d.memPut a bs).hiLatch = d.hiLatch := rfl
@[simp] theorem memPut_out (a : Nat) (bs : List Byte) : (d.memPut a bs).out = d.out := rfl
@[simp] theorem memPut_free (a : Nat) (bs : List Byte) : (d.memPut a bs).free = d.free := rfl
@[simp] theorem memPut_era (a : Nat) (bs : List Byte) : (d.memPut a bs).era = d.era := rfl

@[simp] theorem emit_out (e : OutEvent) : (d.emit e).out = d.out ++ [e] := rfl
@[simp] theorem memPut_mem (a : Nat) (bs : List Byte) : (d.memPut a bs).mem = d.mem.put a bs := rfl

/-! Reading a unit back -/

@[simp] theorem bench_modBench_same (i : Nat) (f : Bench → Bench) : (d.modBench i f).bench i = f (d.bench i) := tabGet_mod_same _ _ _ _
theorem bench_modBench_ne {i k : Nat} (f : Bench → Bench) (h : k ≠ i) : (d.modBench i f).bench k = d.bench k := tabGet_mod_ne _ _ _ h
@[simp] theorem jig_modJig_same (i : Nat) (f : Jig → Jig) : (d.modJig i f).jig i = f (d.jig i) := tabGet_mod_same _ _ _ _
theorem jig_modJig_ne {i k : Nat} (f : Jig → Jig) (h : k ≠ i) : (d.modJig i f).jig k = d.jig k := tabGet_mod_ne _ _ _ h
@[simp] theorem stager_modStager_same (i : Nat) (f : Stager → Stager) : (d.modStager i f).stager i = f (d.stager i) := tabGet_mod_same _ _ _ _
theorem stager_modStager_ne {i k : Nat} (f : Stager → Stager) (h : k ≠ i) : (d.modStager i f).stager k = d.stager k := tabGet_mod_ne _ _ _ h
@[simp] theorem plane_modPlane_same (i : Nat) (f : Plane → Plane) : (d.modPlane i f).plane i = f (d.plane i) := tabGet_mod_same _ _ _ _
theorem plane_modPlane_ne {i k : Nat} (f : Plane → Plane) (h : k ≠ i) : (d.modPlane i f).plane k = d.plane k := tabGet_mod_ne _ _ _ h
@[simp] theorem home_modHome_same (i : Nat) (f : Home → Home) : (d.modHome i f).home i = f (d.home i) := tabGet_mod_same _ _ _ _
theorem home_modHome_ne {i k : Nat} (f : Home → Home) (h : k ≠ i) : (d.modHome i f).home k = d.home k := tabGet_mod_ne _ _ _ h
@[simp] theorem nearCtl_modNearCtl_same (i : Nat) (f : NearCtl → NearCtl) : (d.modNearCtl i f).nearCtl i = f (d.nearCtl i) := tabGet_mod_same _ _ _ _
theorem nearCtl_modNearCtl_ne {i k : Nat} (f : NearCtl → NearCtl) (h : k ≠ i) : (d.modNearCtl i f).nearCtl k = d.nearCtl k := tabGet_mod_ne _ _ _ h
@[simp] theorem pc_modPc_same (i : Nat) (f : Pc → Pc) : (d.modPc i f).pc i = f (d.pc i) := tabGet_mod_same _ _ _ _
theorem pc_modPc_ne {i k : Nat} (f : Pc → Pc) (h : k ≠ i) : (d.modPc i f).pc k = d.pc k := tabGet_mod_ne _ _ _ h
@[simp] theorem cxl_modCxl_same (i : Nat) (f : CxlPort → CxlPort) : (d.modCxl i f).cxl i = f (d.cxl i) := tabGet_mod_same _ _ _ _
theorem cxl_modCxl_ne {i k : Nat} (f : CxlPort → CxlPort) (h : k ≠ i) : (d.modCxl i f).cxl k = d.cxl k := tabGet_mod_ne _ _ _ h
@[simp] theorem mbx_modMbx_same (i : Nat) (f : Mailbox → Mailbox) : (d.modMbx i f).mbx i = f (d.mbx i) := tabGet_mod_same _ _ _ _
theorem mbx_modMbx_ne {i k : Nat} (f : Mailbox → Mailbox) (h : k ≠ i) : (d.modMbx i f).mbx k = d.mbx k := tabGet_mod_ne _ _ _ h
@[simp] theorem flow_modFlow_same (i : Nat) (f : Flow → Flow) : (d.modFlow i f).flow i = f (d.flow i) := tabGet_mod_same _ _ _ _
theorem flow_modFlow_ne {i k : Nat} (f : Flow → Flow) (h : k ≠ i) : (d.modFlow i f).flow k = d.flow k := tabGet_mod_ne _ _ _ h
@[simp] theorem eth_modEth_same (i : Nat) (f : EthPort → EthPort) : (d.modEth i f).eth i = f (d.eth i) := tabGet_mod_same _ _ _ _
theorem eth_modEth_ne {i k : Nat} (f : EthPort → EthPort) (h : k ≠ i) : (d.modEth i f).eth k = d.eth k := tabGet_mod_ne _ _ _ h
@[simp] theorem node_modNode_same (i : Nat) (f : Node → Node) : (d.modNode i f).node i = f (d.node i) := tabGet_mod_same _ _ _ _
theorem node_modNode_ne {i k : Nat} (f : Node → Node) (h : k ≠ i) : (d.modNode i f).node k = d.node k := tabGet_mod_ne _ _ _ h
@[simp] theorem bay_modBay_same (i : Nat) (f : BayPower → BayPower) : (d.modBay i f).bay i = f (d.bay i) := tabGet_mod_same _ _ _ _
theorem bay_modBay_ne {i k : Nat} (f : BayPower → BayPower) (h : k ≠ i) : (d.modBay i f).bay k = d.bay k := tabGet_mod_ne _ _ _ h

/-! A unit seen through an update of another kind of unit -/

@[simp] theorem modBench_jig (i : Nat) (f : Bench → Bench) (k : Nat) : (d.modBench i f).jig k = d.jig k := rfl
@[simp] theorem modBench_stager (i : Nat) (f : Bench → Bench) (k : Nat) : (d.modBench i f).stager k = d.stager k := rfl
@[simp] theorem modBench_plane (i : Nat) (f : Bench → Bench) (k : Nat) : (d.modBench i f).plane k = d.plane k := rfl
@[simp] theorem modBench_home (i : Nat) (f : Bench → Bench) (k : Nat) : (d.modBench i f).home k = d.home k := rfl
@[simp] theorem modBench_nearCtl (i : Nat) (f : Bench → Bench) (k : Nat) : (d.modBench i f).nearCtl k = d.nearCtl k := rfl
@[simp] theorem modBench_pc (i : Nat) (f : Bench → Bench) (k : Nat) : (d.modBench i f).pc k = d.pc k := rfl
@[simp] theorem modBench_cxl (i : Nat) (f : Bench → Bench) (k : Nat) : (d.modBench i f).cxl k = d.cxl k := rfl
@[simp] theorem modBench_mbx (i : Nat) (f : Bench → Bench) (k : Nat) : (d.modBench i f).mbx k = d.mbx k := rfl
@[simp] theorem modBench_flow (i : Nat) (f : Bench → Bench) (k : Nat) : (d.modBench i f).flow k = d.flow k := rfl
@[simp] theorem modBench_eth (i : Nat) (f : Bench → Bench) (k : Nat) : (d.modBench i f).eth k = d.eth k := rfl
@[simp] theorem modBench_node (i : Nat) (f : Bench → Bench) (k : Nat) : (d.modBench i f).node k = d.node k := rfl
@[simp] theorem modBench_bay (i : Nat) (f : Bench → Bench) (k : Nat) : (d.modBench i f).bay k = d.bay k := rfl
@[simp] theorem modJig_bench (i : Nat) (f : Jig → Jig) (k : Nat) : (d.modJig i f).bench k = d.bench k := rfl
@[simp] theorem modJig_stager (i : Nat) (f : Jig → Jig) (k : Nat) : (d.modJig i f).stager k = d.stager k := rfl
@[simp] theorem modJig_plane (i : Nat) (f : Jig → Jig) (k : Nat) : (d.modJig i f).plane k = d.plane k := rfl
@[simp] theorem modJig_home (i : Nat) (f : Jig → Jig) (k : Nat) : (d.modJig i f).home k = d.home k := rfl
@[simp] theorem modJig_nearCtl (i : Nat) (f : Jig → Jig) (k : Nat) : (d.modJig i f).nearCtl k = d.nearCtl k := rfl
@[simp] theorem modJig_pc (i : Nat) (f : Jig → Jig) (k : Nat) : (d.modJig i f).pc k = d.pc k := rfl
@[simp] theorem modJig_cxl (i : Nat) (f : Jig → Jig) (k : Nat) : (d.modJig i f).cxl k = d.cxl k := rfl
@[simp] theorem modJig_mbx (i : Nat) (f : Jig → Jig) (k : Nat) : (d.modJig i f).mbx k = d.mbx k := rfl
@[simp] theorem modJig_flow (i : Nat) (f : Jig → Jig) (k : Nat) : (d.modJig i f).flow k = d.flow k := rfl
@[simp] theorem modJig_eth (i : Nat) (f : Jig → Jig) (k : Nat) : (d.modJig i f).eth k = d.eth k := rfl
@[simp] theorem modJig_node (i : Nat) (f : Jig → Jig) (k : Nat) : (d.modJig i f).node k = d.node k := rfl
@[simp] theorem modJig_bay (i : Nat) (f : Jig → Jig) (k : Nat) : (d.modJig i f).bay k = d.bay k := rfl
@[simp] theorem modQueue_bench (i q : Nat) (f : Queue → Queue) (k : Nat) : (d.modQueue i q f).bench k = d.bench k := rfl
@[simp] theorem modQueue_stager (i q : Nat) (f : Queue → Queue) (k : Nat) : (d.modQueue i q f).stager k = d.stager k := rfl
@[simp] theorem modQueue_plane (i q : Nat) (f : Queue → Queue) (k : Nat) : (d.modQueue i q f).plane k = d.plane k := rfl
@[simp] theorem modQueue_home (i q : Nat) (f : Queue → Queue) (k : Nat) : (d.modQueue i q f).home k = d.home k := rfl
@[simp] theorem modQueue_nearCtl (i q : Nat) (f : Queue → Queue) (k : Nat) : (d.modQueue i q f).nearCtl k = d.nearCtl k := rfl
@[simp] theorem modQueue_pc (i q : Nat) (f : Queue → Queue) (k : Nat) : (d.modQueue i q f).pc k = d.pc k := rfl
@[simp] theorem modQueue_cxl (i q : Nat) (f : Queue → Queue) (k : Nat) : (d.modQueue i q f).cxl k = d.cxl k := rfl
@[simp] theorem modQueue_mbx (i q : Nat) (f : Queue → Queue) (k : Nat) : (d.modQueue i q f).mbx k = d.mbx k := rfl
@[simp] theorem modQueue_flow (i q : Nat) (f : Queue → Queue) (k : Nat) : (d.modQueue i q f).flow k = d.flow k := rfl
@[simp] theorem modQueue_eth (i q : Nat) (f : Queue → Queue) (k : Nat) : (d.modQueue i q f).eth k = d.eth k := rfl
@[simp] theorem modQueue_node (i q : Nat) (f : Queue → Queue) (k : Nat) : (d.modQueue i q f).node k = d.node k := rfl
@[simp] theorem modQueue_bay (i q : Nat) (f : Queue → Queue) (k : Nat) : (d.modQueue i q f).bay k = d.bay k := rfl
@[simp] theorem modStager_bench (i : Nat) (f : Stager → Stager) (k : Nat) : (d.modStager i f).bench k = d.bench k := rfl
@[simp] theorem modStager_jig (i : Nat) (f : Stager → Stager) (k : Nat) : (d.modStager i f).jig k = d.jig k := rfl
@[simp] theorem modStager_plane (i : Nat) (f : Stager → Stager) (k : Nat) : (d.modStager i f).plane k = d.plane k := rfl
@[simp] theorem modStager_home (i : Nat) (f : Stager → Stager) (k : Nat) : (d.modStager i f).home k = d.home k := rfl
@[simp] theorem modStager_nearCtl (i : Nat) (f : Stager → Stager) (k : Nat) : (d.modStager i f).nearCtl k = d.nearCtl k := rfl
@[simp] theorem modStager_pc (i : Nat) (f : Stager → Stager) (k : Nat) : (d.modStager i f).pc k = d.pc k := rfl
@[simp] theorem modStager_cxl (i : Nat) (f : Stager → Stager) (k : Nat) : (d.modStager i f).cxl k = d.cxl k := rfl
@[simp] theorem modStager_mbx (i : Nat) (f : Stager → Stager) (k : Nat) : (d.modStager i f).mbx k = d.mbx k := rfl
@[simp] theorem modStager_flow (i : Nat) (f : Stager → Stager) (k : Nat) : (d.modStager i f).flow k = d.flow k := rfl
@[simp] theorem modStager_eth (i : Nat) (f : Stager → Stager) (k : Nat) : (d.modStager i f).eth k = d.eth k := rfl
@[simp] theorem modStager_node (i : Nat) (f : Stager → Stager) (k : Nat) : (d.modStager i f).node k = d.node k := rfl
@[simp] theorem modStager_bay (i : Nat) (f : Stager → Stager) (k : Nat) : (d.modStager i f).bay k = d.bay k := rfl
@[simp] theorem modPlane_bench (i : Nat) (f : Plane → Plane) (k : Nat) : (d.modPlane i f).bench k = d.bench k := rfl
@[simp] theorem modPlane_jig (i : Nat) (f : Plane → Plane) (k : Nat) : (d.modPlane i f).jig k = d.jig k := rfl
@[simp] theorem modPlane_stager (i : Nat) (f : Plane → Plane) (k : Nat) : (d.modPlane i f).stager k = d.stager k := rfl
@[simp] theorem modPlane_home (i : Nat) (f : Plane → Plane) (k : Nat) : (d.modPlane i f).home k = d.home k := rfl
@[simp] theorem modPlane_nearCtl (i : Nat) (f : Plane → Plane) (k : Nat) : (d.modPlane i f).nearCtl k = d.nearCtl k := rfl
@[simp] theorem modPlane_pc (i : Nat) (f : Plane → Plane) (k : Nat) : (d.modPlane i f).pc k = d.pc k := rfl
@[simp] theorem modPlane_cxl (i : Nat) (f : Plane → Plane) (k : Nat) : (d.modPlane i f).cxl k = d.cxl k := rfl
@[simp] theorem modPlane_mbx (i : Nat) (f : Plane → Plane) (k : Nat) : (d.modPlane i f).mbx k = d.mbx k := rfl
@[simp] theorem modPlane_flow (i : Nat) (f : Plane → Plane) (k : Nat) : (d.modPlane i f).flow k = d.flow k := rfl
@[simp] theorem modPlane_eth (i : Nat) (f : Plane → Plane) (k : Nat) : (d.modPlane i f).eth k = d.eth k := rfl
@[simp] theorem modPlane_node (i : Nat) (f : Plane → Plane) (k : Nat) : (d.modPlane i f).node k = d.node k := rfl
@[simp] theorem modPlane_bay (i : Nat) (f : Plane → Plane) (k : Nat) : (d.modPlane i f).bay k = d.bay k := rfl
@[simp] theorem modHome_bench (i : Nat) (f : Home → Home) (k : Nat) : (d.modHome i f).bench k = d.bench k := rfl
@[simp] theorem modHome_jig (i : Nat) (f : Home → Home) (k : Nat) : (d.modHome i f).jig k = d.jig k := rfl
@[simp] theorem modHome_stager (i : Nat) (f : Home → Home) (k : Nat) : (d.modHome i f).stager k = d.stager k := rfl
@[simp] theorem modHome_plane (i : Nat) (f : Home → Home) (k : Nat) : (d.modHome i f).plane k = d.plane k := rfl
@[simp] theorem modHome_nearCtl (i : Nat) (f : Home → Home) (k : Nat) : (d.modHome i f).nearCtl k = d.nearCtl k := rfl
@[simp] theorem modHome_pc (i : Nat) (f : Home → Home) (k : Nat) : (d.modHome i f).pc k = d.pc k := rfl
@[simp] theorem modHome_cxl (i : Nat) (f : Home → Home) (k : Nat) : (d.modHome i f).cxl k = d.cxl k := rfl
@[simp] theorem modHome_mbx (i : Nat) (f : Home → Home) (k : Nat) : (d.modHome i f).mbx k = d.mbx k := rfl
@[simp] theorem modHome_flow (i : Nat) (f : Home → Home) (k : Nat) : (d.modHome i f).flow k = d.flow k := rfl
@[simp] theorem modHome_eth (i : Nat) (f : Home → Home) (k : Nat) : (d.modHome i f).eth k = d.eth k := rfl
@[simp] theorem modHome_node (i : Nat) (f : Home → Home) (k : Nat) : (d.modHome i f).node k = d.node k := rfl
@[simp] theorem modHome_bay (i : Nat) (f : Home → Home) (k : Nat) : (d.modHome i f).bay k = d.bay k := rfl
@[simp] theorem modNear_bench (f : Near → Near) (k : Nat) : (d.modNear f).bench k = d.bench k := rfl
@[simp] theorem modNear_jig (f : Near → Near) (k : Nat) : (d.modNear f).jig k = d.jig k := rfl
@[simp] theorem modNear_stager (f : Near → Near) (k : Nat) : (d.modNear f).stager k = d.stager k := rfl
@[simp] theorem modNear_plane (f : Near → Near) (k : Nat) : (d.modNear f).plane k = d.plane k := rfl
@[simp] theorem modNear_home (f : Near → Near) (k : Nat) : (d.modNear f).home k = d.home k := rfl
@[simp] theorem modNear_cxl (f : Near → Near) (k : Nat) : (d.modNear f).cxl k = d.cxl k := rfl
@[simp] theorem modNear_mbx (f : Near → Near) (k : Nat) : (d.modNear f).mbx k = d.mbx k := rfl
@[simp] theorem modNear_flow (f : Near → Near) (k : Nat) : (d.modNear f).flow k = d.flow k := rfl
@[simp] theorem modNear_eth (f : Near → Near) (k : Nat) : (d.modNear f).eth k = d.eth k := rfl
@[simp] theorem modNear_node (f : Near → Near) (k : Nat) : (d.modNear f).node k = d.node k := rfl
@[simp] theorem modNear_bay (f : Near → Near) (k : Nat) : (d.modNear f).bay k = d.bay k := rfl
@[simp] theorem modNearCtl_bench (i : Nat) (f : NearCtl → NearCtl) (k : Nat) : (d.modNearCtl i f).bench k = d.bench k := rfl
@[simp] theorem modNearCtl_jig (i : Nat) (f : NearCtl → NearCtl) (k : Nat) : (d.modNearCtl i f).jig k = d.jig k := rfl
@[simp] theorem modNearCtl_stager (i : Nat) (f : NearCtl → NearCtl) (k : Nat) : (d.modNearCtl i f).stager k = d.stager k := rfl
@[simp] theorem modNearCtl_plane (i : Nat) (f : NearCtl → NearCtl) (k : Nat) : (d.modNearCtl i f).plane k = d.plane k := rfl
@[simp] theorem modNearCtl_home (i : Nat) (f : NearCtl → NearCtl) (k : Nat) : (d.modNearCtl i f).home k = d.home k := rfl
@[simp] theorem modNearCtl_cxl (i : Nat) (f : NearCtl → NearCtl) (k : Nat) : (d.modNearCtl i f).cxl k = d.cxl k := rfl
@[simp] theorem modNearCtl_mbx (i : Nat) (f : NearCtl → NearCtl) (k : Nat) : (d.modNearCtl i f).mbx k = d.mbx k := rfl
@[simp] theorem modNearCtl_flow (i : Nat) (f : NearCtl → NearCtl) (k : Nat) : (d.modNearCtl i f).flow k = d.flow k := rfl
@[simp] theorem modNearCtl_eth (i : Nat) (f : NearCtl → NearCtl) (k : Nat) : (d.modNearCtl i f).eth k = d.eth k := rfl
@[simp] theorem modNearCtl_node (i : Nat) (f : NearCtl → NearCtl) (k : Nat) : (d.modNearCtl i f).node k = d.node k := rfl
@[simp] theorem modNearCtl_bay (i : Nat) (f : NearCtl → NearCtl) (k : Nat) : (d.modNearCtl i f).bay k = d.bay k := rfl
@[simp] theorem modPc_bench (i : Nat) (f : Pc → Pc) (k : Nat) : (d.modPc i f).bench k = d.bench k := rfl
@[simp] theorem modPc_jig (i : Nat) (f : Pc → Pc) (k : Nat) : (d.modPc i f).jig k = d.jig k := rfl
@[simp] theorem modPc_stager (i : Nat) (f : Pc → Pc) (k : Nat) : (d.modPc i f).stager k = d.stager k := rfl
@[simp] theorem modPc_plane (i : Nat) (f : Pc → Pc) (k : Nat) : (d.modPc i f).plane k = d.plane k := rfl
@[simp] theorem modPc_home (i : Nat) (f : Pc → Pc) (k : Nat) : (d.modPc i f).home k = d.home k := rfl
@[simp] theorem modPc_cxl (i : Nat) (f : Pc → Pc) (k : Nat) : (d.modPc i f).cxl k = d.cxl k := rfl
@[simp] theorem modPc_mbx (i : Nat) (f : Pc → Pc) (k : Nat) : (d.modPc i f).mbx k = d.mbx k := rfl
@[simp] theorem modPc_flow (i : Nat) (f : Pc → Pc) (k : Nat) : (d.modPc i f).flow k = d.flow k := rfl
@[simp] theorem modPc_eth (i : Nat) (f : Pc → Pc) (k : Nat) : (d.modPc i f).eth k = d.eth k := rfl
@[simp] theorem modPc_node (i : Nat) (f : Pc → Pc) (k : Nat) : (d.modPc i f).node k = d.node k := rfl
@[simp] theorem modPc_bay (i : Nat) (f : Pc → Pc) (k : Nat) : (d.modPc i f).bay k = d.bay k := rfl
@[simp] theorem modFar_bench (f : FarTier → FarTier) (k : Nat) : (d.modFar f).bench k = d.bench k := rfl
@[simp] theorem modFar_jig (f : FarTier → FarTier) (k : Nat) : (d.modFar f).jig k = d.jig k := rfl
@[simp] theorem modFar_stager (f : FarTier → FarTier) (k : Nat) : (d.modFar f).stager k = d.stager k := rfl
@[simp] theorem modFar_plane (f : FarTier → FarTier) (k : Nat) : (d.modFar f).plane k = d.plane k := rfl
@[simp] theorem modFar_home (f : FarTier → FarTier) (k : Nat) : (d.modFar f).home k = d.home k := rfl
@[simp] theorem modFar_nearCtl (f : FarTier → FarTier) (k : Nat) : (d.modFar f).nearCtl k = d.nearCtl k := rfl
@[simp] theorem modFar_pc (f : FarTier → FarTier) (k : Nat) : (d.modFar f).pc k = d.pc k := rfl
@[simp] theorem modFar_mbx (f : FarTier → FarTier) (k : Nat) : (d.modFar f).mbx k = d.mbx k := rfl
@[simp] theorem modFar_flow (f : FarTier → FarTier) (k : Nat) : (d.modFar f).flow k = d.flow k := rfl
@[simp] theorem modFar_eth (f : FarTier → FarTier) (k : Nat) : (d.modFar f).eth k = d.eth k := rfl
@[simp] theorem modFar_node (f : FarTier → FarTier) (k : Nat) : (d.modFar f).node k = d.node k := rfl
@[simp] theorem modFar_bay (f : FarTier → FarTier) (k : Nat) : (d.modFar f).bay k = d.bay k := rfl
@[simp] theorem modCxl_bench (i : Nat) (f : CxlPort → CxlPort) (k : Nat) : (d.modCxl i f).bench k = d.bench k := rfl
@[simp] theorem modCxl_jig (i : Nat) (f : CxlPort → CxlPort) (k : Nat) : (d.modCxl i f).jig k = d.jig k := rfl
@[simp] theorem modCxl_stager (i : Nat) (f : CxlPort → CxlPort) (k : Nat) : (d.modCxl i f).stager k = d.stager k := rfl
@[simp] theorem modCxl_plane (i : Nat) (f : CxlPort → CxlPort) (k : Nat) : (d.modCxl i f).plane k = d.plane k := rfl
@[simp] theorem modCxl_home (i : Nat) (f : CxlPort → CxlPort) (k : Nat) : (d.modCxl i f).home k = d.home k := rfl
@[simp] theorem modCxl_nearCtl (i : Nat) (f : CxlPort → CxlPort) (k : Nat) : (d.modCxl i f).nearCtl k = d.nearCtl k := rfl
@[simp] theorem modCxl_pc (i : Nat) (f : CxlPort → CxlPort) (k : Nat) : (d.modCxl i f).pc k = d.pc k := rfl
@[simp] theorem modCxl_mbx (i : Nat) (f : CxlPort → CxlPort) (k : Nat) : (d.modCxl i f).mbx k = d.mbx k := rfl
@[simp] theorem modCxl_flow (i : Nat) (f : CxlPort → CxlPort) (k : Nat) : (d.modCxl i f).flow k = d.flow k := rfl
@[simp] theorem modCxl_eth (i : Nat) (f : CxlPort → CxlPort) (k : Nat) : (d.modCxl i f).eth k = d.eth k := rfl
@[simp] theorem modCxl_node (i : Nat) (f : CxlPort → CxlPort) (k : Nat) : (d.modCxl i f).node k = d.node k := rfl
@[simp] theorem modCxl_bay (i : Nat) (f : CxlPort → CxlPort) (k : Nat) : (d.modCxl i f).bay k = d.bay k := rfl
@[simp] theorem modSilkai_bench (f : Silkai → Silkai) (k : Nat) : (d.modSilkai f).bench k = d.bench k := rfl
@[simp] theorem modSilkai_jig (f : Silkai → Silkai) (k : Nat) : (d.modSilkai f).jig k = d.jig k := rfl
@[simp] theorem modSilkai_stager (f : Silkai → Silkai) (k : Nat) : (d.modSilkai f).stager k = d.stager k := rfl
@[simp] theorem modSilkai_plane (f : Silkai → Silkai) (k : Nat) : (d.modSilkai f).plane k = d.plane k := rfl
@[simp] theorem modSilkai_home (f : Silkai → Silkai) (k : Nat) : (d.modSilkai f).home k = d.home k := rfl
@[simp] theorem modSilkai_nearCtl (f : Silkai → Silkai) (k : Nat) : (d.modSilkai f).nearCtl k = d.nearCtl k := rfl
@[simp] theorem modSilkai_pc (f : Silkai → Silkai) (k : Nat) : (d.modSilkai f).pc k = d.pc k := rfl
@[simp] theorem modSilkai_cxl (f : Silkai → Silkai) (k : Nat) : (d.modSilkai f).cxl k = d.cxl k := rfl
@[simp] theorem modSilkai_flow (f : Silkai → Silkai) (k : Nat) : (d.modSilkai f).flow k = d.flow k := rfl
@[simp] theorem modSilkai_eth (f : Silkai → Silkai) (k : Nat) : (d.modSilkai f).eth k = d.eth k := rfl
@[simp] theorem modSilkai_node (f : Silkai → Silkai) (k : Nat) : (d.modSilkai f).node k = d.node k := rfl
@[simp] theorem modSilkai_bay (f : Silkai → Silkai) (k : Nat) : (d.modSilkai f).bay k = d.bay k := rfl
@[simp] theorem modMbx_bench (i : Nat) (f : Mailbox → Mailbox) (k : Nat) : (d.modMbx i f).bench k = d.bench k := rfl
@[simp] theorem modMbx_jig (i : Nat) (f : Mailbox → Mailbox) (k : Nat) : (d.modMbx i f).jig k = d.jig k := rfl
@[simp] theorem modMbx_stager (i : Nat) (f : Mailbox → Mailbox) (k : Nat) : (d.modMbx i f).stager k = d.stager k := rfl
@[simp] theorem modMbx_plane (i : Nat) (f : Mailbox → Mailbox) (k : Nat) : (d.modMbx i f).plane k = d.plane k := rfl
@[simp] theorem modMbx_home (i : Nat) (f : Mailbox → Mailbox) (k : Nat) : (d.modMbx i f).home k = d.home k := rfl
@[simp] theorem modMbx_nearCtl (i : Nat) (f : Mailbox → Mailbox) (k : Nat) : (d.modMbx i f).nearCtl k = d.nearCtl k := rfl
@[simp] theorem modMbx_pc (i : Nat) (f : Mailbox → Mailbox) (k : Nat) : (d.modMbx i f).pc k = d.pc k := rfl
@[simp] theorem modMbx_cxl (i : Nat) (f : Mailbox → Mailbox) (k : Nat) : (d.modMbx i f).cxl k = d.cxl k := rfl
@[simp] theorem modMbx_flow (i : Nat) (f : Mailbox → Mailbox) (k : Nat) : (d.modMbx i f).flow k = d.flow k := rfl
@[simp] theorem modMbx_eth (i : Nat) (f : Mailbox → Mailbox) (k : Nat) : (d.modMbx i f).eth k = d.eth k := rfl
@[simp] theorem modMbx_node (i : Nat) (f : Mailbox → Mailbox) (k : Nat) : (d.modMbx i f).node k = d.node k := rfl
@[simp] theorem modMbx_bay (i : Nat) (f : Mailbox → Mailbox) (k : Nat) : (d.modMbx i f).bay k = d.bay k := rfl
@[simp] theorem modFab_bench (f : Fabric → Fabric) (k : Nat) : (d.modFab f).bench k = d.bench k := rfl
@[simp] theorem modFab_jig (f : Fabric → Fabric) (k : Nat) : (d.modFab f).jig k = d.jig k := rfl
@[simp] theorem modFab_stager (f : Fabric → Fabric) (k : Nat) : (d.modFab f).stager k = d.stager k := rfl
@[simp] theorem modFab_plane (f : Fabric → Fabric) (k : Nat) : (d.modFab f).plane k = d.plane k := rfl
@[simp] theorem modFab_home (f : Fabric → Fabric) (k : Nat) : (d.modFab f).home k = d.home k := rfl
@[simp] theorem modFab_nearCtl (f : Fabric → Fabric) (k : Nat) : (d.modFab f).nearCtl k = d.nearCtl k := rfl
@[simp] theorem modFab_pc (f : Fabric → Fabric) (k : Nat) : (d.modFab f).pc k = d.pc k := rfl
@[simp] theorem modFab_cxl (f : Fabric → Fabric) (k : Nat) : (d.modFab f).cxl k = d.cxl k := rfl
@[simp] theorem modFab_mbx (f : Fabric → Fabric) (k : Nat) : (d.modFab f).mbx k = d.mbx k := rfl
@[simp] theorem modFab_bay (f : Fabric → Fabric) (k : Nat) : (d.modFab f).bay k = d.bay k := rfl
@[simp] theorem modFlow_bench (i : Nat) (f : Flow → Flow) (k : Nat) : (d.modFlow i f).bench k = d.bench k := rfl
@[simp] theorem modFlow_jig (i : Nat) (f : Flow → Flow) (k : Nat) : (d.modFlow i f).jig k = d.jig k := rfl
@[simp] theorem modFlow_stager (i : Nat) (f : Flow → Flow) (k : Nat) : (d.modFlow i f).stager k = d.stager k := rfl
@[simp] theorem modFlow_plane (i : Nat) (f : Flow → Flow) (k : Nat) : (d.modFlow i f).plane k = d.plane k := rfl
@[simp] theorem modFlow_home (i : Nat) (f : Flow → Flow) (k : Nat) : (d.modFlow i f).home k = d.home k := rfl
@[simp] theorem modFlow_nearCtl (i : Nat) (f : Flow → Flow) (k : Nat) : (d.modFlow i f).nearCtl k = d.nearCtl k := rfl
@[simp] theorem modFlow_pc (i : Nat) (f : Flow → Flow) (k : Nat) : (d.modFlow i f).pc k = d.pc k := rfl
@[simp] theorem modFlow_cxl (i : Nat) (f : Flow → Flow) (k : Nat) : (d.modFlow i f).cxl k = d.cxl k := rfl
@[simp] theorem modFlow_mbx (i : Nat) (f : Flow → Flow) (k : Nat) : (d.modFlow i f).mbx k = d.mbx k := rfl
@[simp] theorem modFlow_bay (i : Nat) (f : Flow → Flow) (k : Nat) : (d.modFlow i f).bay k = d.bay k := rfl
@[simp] theorem modEth_bench (i : Nat) (f : EthPort → EthPort) (k : Nat) : (d.modEth i f).bench k = d.bench k := rfl
@[simp] theorem modEth_jig (i : Nat) (f : EthPort → EthPort) (k : Nat) : (d.modEth i f).jig k = d.jig k := rfl
@[simp] theorem modEth_stager (i : Nat) (f : EthPort → EthPort) (k : Nat) : (d.modEth i f).stager k = d.stager k := rfl
@[simp] theorem modEth_plane (i : Nat) (f : EthPort → EthPort) (k : Nat) : (d.modEth i f).plane k = d.plane k := rfl
@[simp] theorem modEth_home (i : Nat) (f : EthPort → EthPort) (k : Nat) : (d.modEth i f).home k = d.home k := rfl
@[simp] theorem modEth_nearCtl (i : Nat) (f : EthPort → EthPort) (k : Nat) : (d.modEth i f).nearCtl k = d.nearCtl k := rfl
@[simp] theorem modEth_pc (i : Nat) (f : EthPort → EthPort) (k : Nat) : (d.modEth i f).pc k = d.pc k := rfl
@[simp] theorem modEth_cxl (i : Nat) (f : EthPort → EthPort) (k : Nat) : (d.modEth i f).cxl k = d.cxl k := rfl
@[simp] theorem modEth_mbx (i : Nat) (f : EthPort → EthPort) (k : Nat) : (d.modEth i f).mbx k = d.mbx k := rfl
@[simp] theorem modEth_bay (i : Nat) (f : EthPort → EthPort) (k : Nat) : (d.modEth i f).bay k = d.bay k := rfl
@[simp] theorem modNode_bench (i : Nat) (f : Node → Node) (k : Nat) : (d.modNode i f).bench k = d.bench k := rfl
@[simp] theorem modNode_jig (i : Nat) (f : Node → Node) (k : Nat) : (d.modNode i f).jig k = d.jig k := rfl
@[simp] theorem modNode_stager (i : Nat) (f : Node → Node) (k : Nat) : (d.modNode i f).stager k = d.stager k := rfl
@[simp] theorem modNode_plane (i : Nat) (f : Node → Node) (k : Nat) : (d.modNode i f).plane k = d.plane k := rfl
@[simp] theorem modNode_home (i : Nat) (f : Node → Node) (k : Nat) : (d.modNode i f).home k = d.home k := rfl
@[simp] theorem modNode_nearCtl (i : Nat) (f : Node → Node) (k : Nat) : (d.modNode i f).nearCtl k = d.nearCtl k := rfl
@[simp] theorem modNode_pc (i : Nat) (f : Node → Node) (k : Nat) : (d.modNode i f).pc k = d.pc k := rfl
@[simp] theorem modNode_cxl (i : Nat) (f : Node → Node) (k : Nat) : (d.modNode i f).cxl k = d.cxl k := rfl
@[simp] theorem modNode_mbx (i : Nat) (f : Node → Node) (k : Nat) : (d.modNode i f).mbx k = d.mbx k := rfl
@[simp] theorem modNode_bay (i : Nat) (f : Node → Node) (k : Nat) : (d.modNode i f).bay k = d.bay k := rfl
@[simp] theorem modAux_bench (f : FabAux → FabAux) (k : Nat) : (d.modAux f).bench k = d.bench k := rfl
@[simp] theorem modAux_jig (f : FabAux → FabAux) (k : Nat) : (d.modAux f).jig k = d.jig k := rfl
@[simp] theorem modAux_stager (f : FabAux → FabAux) (k : Nat) : (d.modAux f).stager k = d.stager k := rfl
@[simp] theorem modAux_plane (f : FabAux → FabAux) (k : Nat) : (d.modAux f).plane k = d.plane k := rfl
@[simp] theorem modAux_home (f : FabAux → FabAux) (k : Nat) : (d.modAux f).home k = d.home k := rfl
@[simp] theorem modAux_nearCtl (f : FabAux → FabAux) (k : Nat) : (d.modAux f).nearCtl k = d.nearCtl k := rfl
@[simp] theorem modAux_pc (f : FabAux → FabAux) (k : Nat) : (d.modAux f).pc k = d.pc k := rfl
@[simp] theorem modAux_cxl (f : FabAux → FabAux) (k : Nat) : (d.modAux f).cxl k = d.cxl k := rfl
@[simp] theorem modAux_mbx (f : FabAux → FabAux) (k : Nat) : (d.modAux f).mbx k = d.mbx k := rfl
@[simp] theorem modAux_flow (f : FabAux → FabAux) (k : Nat) : (d.modAux f).flow k = d.flow k := rfl
@[simp] theorem modAux_eth (f : FabAux → FabAux) (k : Nat) : (d.modAux f).eth k = d.eth k := rfl
@[simp] theorem modAux_node (f : FabAux → FabAux) (k : Nat) : (d.modAux f).node k = d.node k := rfl
@[simp] theorem modAux_bay (f : FabAux → FabAux) (k : Nat) : (d.modAux f).bay k = d.bay k := rfl
@[simp] theorem modColl_bench (f : Coll → Coll) (k : Nat) : (d.modColl f).bench k = d.bench k := rfl
@[simp] theorem modColl_jig (f : Coll → Coll) (k : Nat) : (d.modColl f).jig k = d.jig k := rfl
@[simp] theorem modColl_stager (f : Coll → Coll) (k : Nat) : (d.modColl f).stager k = d.stager k := rfl
@[simp] theorem modColl_plane (f : Coll → Coll) (k : Nat) : (d.modColl f).plane k = d.plane k := rfl
@[simp] theorem modColl_home (f : Coll → Coll) (k : Nat) : (d.modColl f).home k = d.home k := rfl
@[simp] theorem modColl_nearCtl (f : Coll → Coll) (k : Nat) : (d.modColl f).nearCtl k = d.nearCtl k := rfl
@[simp] theorem modColl_pc (f : Coll → Coll) (k : Nat) : (d.modColl f).pc k = d.pc k := rfl
@[simp] theorem modColl_cxl (f : Coll → Coll) (k : Nat) : (d.modColl f).cxl k = d.cxl k := rfl
@[simp] theorem modColl_mbx (f : Coll → Coll) (k : Nat) : (d.modColl f).mbx k = d.mbx k := rfl
@[simp] theorem modColl_flow (f : Coll → Coll) (k : Nat) : (d.modColl f).flow k = d.flow k := rfl
@[simp] theorem modColl_eth (f : Coll → Coll) (k : Nat) : (d.modColl f).eth k = d.eth k := rfl
@[simp] theorem modColl_node (f : Coll → Coll) (k : Nat) : (d.modColl f).node k = d.node k := rfl
@[simp] theorem modColl_bay (f : Coll → Coll) (k : Nat) : (d.modColl f).bay k = d.bay k := rfl
@[simp] theorem modLife_bench (f : StepLife → StepLife) (k : Nat) : (d.modLife f).bench k = d.bench k := rfl
@[simp] theorem modLife_jig (f : StepLife → StepLife) (k : Nat) : (d.modLife f).jig k = d.jig k := rfl
@[simp] theorem modLife_stager (f : StepLife → StepLife) (k : Nat) : (d.modLife f).stager k = d.stager k := rfl
@[simp] theorem modLife_plane (f : StepLife → StepLife) (k : Nat) : (d.modLife f).plane k = d.plane k := rfl
@[simp] theorem modLife_home (f : StepLife → StepLife) (k : Nat) : (d.modLife f).home k = d.home k := rfl
@[simp] theorem modLife_nearCtl (f : StepLife → StepLife) (k : Nat) : (d.modLife f).nearCtl k = d.nearCtl k := rfl
@[simp] theorem modLife_pc (f : StepLife → StepLife) (k : Nat) : (d.modLife f).pc k = d.pc k := rfl
@[simp] theorem modLife_cxl (f : StepLife → StepLife) (k : Nat) : (d.modLife f).cxl k = d.cxl k := rfl
@[simp] theorem modLife_mbx (f : StepLife → StepLife) (k : Nat) : (d.modLife f).mbx k = d.mbx k := rfl
@[simp] theorem modLife_flow (f : StepLife → StepLife) (k : Nat) : (d.modLife f).flow k = d.flow k := rfl
@[simp] theorem modLife_eth (f : StepLife → StepLife) (k : Nat) : (d.modLife f).eth k = d.eth k := rfl
@[simp] theorem modLife_node (f : StepLife → StepLife) (k : Nat) : (d.modLife f).node k = d.node k := rfl
@[simp] theorem modLife_bay (f : StepLife → StepLife) (k : Nat) : (d.modLife f).bay k = d.bay k := rfl
@[simp] theorem modStream_bench (f : Stream → Stream) (k : Nat) : (d.modStream f).bench k = d.bench k := rfl
@[simp] theorem modStream_jig (f : Stream → Stream) (k : Nat) : (d.modStream f).jig k = d.jig k := rfl
@[simp] theorem modStream_stager (f : Stream → Stream) (k : Nat) : (d.modStream f).stager k = d.stager k := rfl
@[simp] theorem modStream_plane (f : Stream → Stream) (k : Nat) : (d.modStream f).plane k = d.plane k := rfl
@[simp] theorem modStream_home (f : Stream → Stream) (k : Nat) : (d.modStream f).home k = d.home k := rfl
@[simp] theorem modStream_nearCtl (f : Stream → Stream) (k : Nat) : (d.modStream f).nearCtl k = d.nearCtl k := rfl
@[simp] theorem modStream_pc (f : Stream → Stream) (k : Nat) : (d.modStream f).pc k = d.pc k := rfl
@[simp] theorem modStream_cxl (f : Stream → Stream) (k : Nat) : (d.modStream f).cxl k = d.cxl k := rfl
@[simp] theorem modStream_mbx (f : Stream → Stream) (k : Nat) : (d.modStream f).mbx k = d.mbx k := rfl
@[simp] theorem modStream_flow (f : Stream → Stream) (k : Nat) : (d.modStream f).flow k = d.flow k := rfl
@[simp] theorem modStream_eth (f : Stream → Stream) (k : Nat) : (d.modStream f).eth k = d.eth k := rfl
@[simp] theorem modStream_node (f : Stream → Stream) (k : Nat) : (d.modStream f).node k = d.node k := rfl
@[simp] theorem modStream_bay (f : Stream → Stream) (k : Nat) : (d.modStream f).bay k = d.bay k := rfl
@[simp] theorem modOpt_bench (f : OptJob → OptJob) (k : Nat) : (d.modOpt f).bench k = d.bench k := rfl
@[simp] theorem modOpt_jig (f : OptJob → OptJob) (k : Nat) : (d.modOpt f).jig k = d.jig k := rfl
@[simp] theorem modOpt_stager (f : OptJob → OptJob) (k : Nat) : (d.modOpt f).stager k = d.stager k := rfl
@[simp] theorem modOpt_plane (f : OptJob → OptJob) (k : Nat) : (d.modOpt f).plane k = d.plane k := rfl
@[simp] theorem modOpt_home (f : OptJob → OptJob) (k : Nat) : (d.modOpt f).home k = d.home k := rfl
@[simp] theorem modOpt_nearCtl (f : OptJob → OptJob) (k : Nat) : (d.modOpt f).nearCtl k = d.nearCtl k := rfl
@[simp] theorem modOpt_pc (f : OptJob → OptJob) (k : Nat) : (d.modOpt f).pc k = d.pc k := rfl
@[simp] theorem modOpt_cxl (f : OptJob → OptJob) (k : Nat) : (d.modOpt f).cxl k = d.cxl k := rfl
@[simp] theorem modOpt_mbx (f : OptJob → OptJob) (k : Nat) : (d.modOpt f).mbx k = d.mbx k := rfl
@[simp] theorem modOpt_flow (f : OptJob → OptJob) (k : Nat) : (d.modOpt f).flow k = d.flow k := rfl
@[simp] theorem modOpt_eth (f : OptJob → OptJob) (k : Nat) : (d.modOpt f).eth k = d.eth k := rfl
@[simp] theorem modOpt_node (f : OptJob → OptJob) (k : Nat) : (d.modOpt f).node k = d.node k := rfl
@[simp] theorem modOpt_bay (f : OptJob → OptJob) (k : Nat) : (d.modOpt f).bay k = d.bay k := rfl
@[simp] theorem modHost_bench (f : HostPort → HostPort) (k : Nat) : (d.modHost f).bench k = d.bench k := rfl
@[simp] theorem modHost_jig (f : HostPort → HostPort) (k : Nat) : (d.modHost f).jig k = d.jig k := rfl
@[simp] theorem modHost_stager (f : HostPort → HostPort) (k : Nat) : (d.modHost f).stager k = d.stager k := rfl
@[simp] theorem modHost_plane (f : HostPort → HostPort) (k : Nat) : (d.modHost f).plane k = d.plane k := rfl
@[simp] theorem modHost_home (f : HostPort → HostPort) (k : Nat) : (d.modHost f).home k = d.home k := rfl
@[simp] theorem modHost_nearCtl (f : HostPort → HostPort) (k : Nat) : (d.modHost f).nearCtl k = d.nearCtl k := rfl
@[simp] theorem modHost_pc (f : HostPort → HostPort) (k : Nat) : (d.modHost f).pc k = d.pc k := rfl
@[simp] theorem modHost_cxl (f : HostPort → HostPort) (k : Nat) : (d.modHost f).cxl k = d.cxl k := rfl
@[simp] theorem modHost_mbx (f : HostPort → HostPort) (k : Nat) : (d.modHost f).mbx k = d.mbx k := rfl
@[simp] theorem modHost_flow (f : HostPort → HostPort) (k : Nat) : (d.modHost f).flow k = d.flow k := rfl
@[simp] theorem modHost_eth (f : HostPort → HostPort) (k : Nat) : (d.modHost f).eth k = d.eth k := rfl
@[simp] theorem modHost_node (f : HostPort → HostPort) (k : Nat) : (d.modHost f).node k = d.node k := rfl
@[simp] theorem modHost_bay (f : HostPort → HostPort) (k : Nat) : (d.modHost f).bay k = d.bay k := rfl
@[simp] theorem modFc_bench (f : Collector → Collector) (k : Nat) : (d.modFc f).bench k = d.bench k := rfl
@[simp] theorem modFc_jig (f : Collector → Collector) (k : Nat) : (d.modFc f).jig k = d.jig k := rfl
@[simp] theorem modFc_stager (f : Collector → Collector) (k : Nat) : (d.modFc f).stager k = d.stager k := rfl
@[simp] theorem modFc_plane (f : Collector → Collector) (k : Nat) : (d.modFc f).plane k = d.plane k := rfl
@[simp] theorem modFc_home (f : Collector → Collector) (k : Nat) : (d.modFc f).home k = d.home k := rfl
@[simp] theorem modFc_nearCtl (f : Collector → Collector) (k : Nat) : (d.modFc f).nearCtl k = d.nearCtl k := rfl
@[simp] theorem modFc_pc (f : Collector → Collector) (k : Nat) : (d.modFc f).pc k = d.pc k := rfl
@[simp] theorem modFc_cxl (f : Collector → Collector) (k : Nat) : (d.modFc f).cxl k = d.cxl k := rfl
@[simp] theorem modFc_mbx (f : Collector → Collector) (k : Nat) : (d.modFc f).mbx k = d.mbx k := rfl
@[simp] theorem modFc_flow (f : Collector → Collector) (k : Nat) : (d.modFc f).flow k = d.flow k := rfl
@[simp] theorem modFc_eth (f : Collector → Collector) (k : Nat) : (d.modFc f).eth k = d.eth k := rfl
@[simp] theorem modFc_node (f : Collector → Collector) (k : Nat) : (d.modFc f).node k = d.node k := rfl
@[simp] theorem modFc_bay (f : Collector → Collector) (k : Nat) : (d.modFc f).bay k = d.bay k := rfl
@[simp] theorem modPwr_bench (f : Power → Power) (k : Nat) : (d.modPwr f).bench k = d.bench k := rfl
@[simp] theorem modPwr_jig (f : Power → Power) (k : Nat) : (d.modPwr f).jig k = d.jig k := rfl
@[simp] theorem modPwr_stager (f : Power → Power) (k : Nat) : (d.modPwr f).stager k = d.stager k := rfl
@[simp] theorem modPwr_plane (f : Power → Power) (k : Nat) : (d.modPwr f).plane k = d.plane k := rfl
@[simp] theorem modPwr_home (f : Power → Power) (k : Nat) : (d.modPwr f).home k = d.home k := rfl
@[simp] theorem modPwr_nearCtl (f : Power → Power) (k : Nat) : (d.modPwr f).nearCtl k = d.nearCtl k := rfl
@[simp] theorem modPwr_pc (f : Power → Power) (k : Nat) : (d.modPwr f).pc k = d.pc k := rfl
@[simp] theorem modPwr_cxl (f : Power → Power) (k : Nat) : (d.modPwr f).cxl k = d.cxl k := rfl
@[simp] theorem modPwr_mbx (f : Power → Power) (k : Nat) : (d.modPwr f).mbx k = d.mbx k := rfl
@[simp] theorem modPwr_flow (f : Power → Power) (k : Nat) : (d.modPwr f).flow k = d.flow k := rfl
@[simp] theorem modPwr_eth (f : Power → Power) (k : Nat) : (d.modPwr f).eth k = d.eth k := rfl
@[simp] theorem modPwr_node (f : Power → Power) (k : Nat) : (d.modPwr f).node k = d.node k := rfl
@[simp] theorem modBay_bench (i : Nat) (f : BayPower → BayPower) (k : Nat) : (d.modBay i f).bench k = d.bench k := rfl
@[simp] theorem modBay_jig (i : Nat) (f : BayPower → BayPower) (k : Nat) : (d.modBay i f).jig k = d.jig k := rfl
@[simp] theorem modBay_stager (i : Nat) (f : BayPower → BayPower) (k : Nat) : (d.modBay i f).stager k = d.stager k := rfl
@[simp] theorem modBay_plane (i : Nat) (f : BayPower → BayPower) (k : Nat) : (d.modBay i f).plane k = d.plane k := rfl
@[simp] theorem modBay_home (i : Nat) (f : BayPower → BayPower) (k : Nat) : (d.modBay i f).home k = d.home k := rfl
@[simp] theorem modBay_nearCtl (i : Nat) (f : BayPower → BayPower) (k : Nat) : (d.modBay i f).nearCtl k = d.nearCtl k := rfl
@[simp] theorem modBay_pc (i : Nat) (f : BayPower → BayPower) (k : Nat) : (d.modBay i f).pc k = d.pc k := rfl
@[simp] theorem modBay_cxl (i : Nat) (f : BayPower → BayPower) (k : Nat) : (d.modBay i f).cxl k = d.cxl k := rfl
@[simp] theorem modBay_mbx (i : Nat) (f : BayPower → BayPower) (k : Nat) : (d.modBay i f).mbx k = d.mbx k := rfl
@[simp] theorem modBay_flow (i : Nat) (f : BayPower → BayPower) (k : Nat) : (d.modBay i f).flow k = d.flow k := rfl
@[simp] theorem modBay_eth (i : Nat) (f : BayPower → BayPower) (k : Nat) : (d.modBay i f).eth k = d.eth k := rfl
@[simp] theorem modBay_node (i : Nat) (f : BayPower → BayPower) (k : Nat) : (d.modBay i f).node k = d.node k := rfl
@[simp] theorem emit_bench (e : OutEvent) (k : Nat) : (d.emit e).bench k = d.bench k := rfl
@[simp] theorem emit_jig (e : OutEvent) (k : Nat) : (d.emit e).jig k = d.jig k := rfl
@[simp] theorem emit_stager (e : OutEvent) (k : Nat) : (d.emit e).stager k = d.stager k := rfl
@[simp] theorem emit_plane (e : OutEvent) (k : Nat) : (d.emit e).plane k = d.plane k := rfl
@[simp] theorem emit_home (e : OutEvent) (k : Nat) : (d.emit e).home k = d.home k := rfl
@[simp] theorem emit_nearCtl (e : OutEvent) (k : Nat) : (d.emit e).nearCtl k = d.nearCtl k := rfl
@[simp] theorem emit_pc (e : OutEvent) (k : Nat) : (d.emit e).pc k = d.pc k := rfl
@[simp] theorem emit_cxl (e : OutEvent) (k : Nat) : (d.emit e).cxl k = d.cxl k := rfl
@[simp] theorem emit_mbx (e : OutEvent) (k : Nat) : (d.emit e).mbx k = d.mbx k := rfl
@[simp] theorem emit_flow (e : OutEvent) (k : Nat) : (d.emit e).flow k = d.flow k := rfl
@[simp] theorem emit_eth (e : OutEvent) (k : Nat) : (d.emit e).eth k = d.eth k := rfl
@[simp] theorem emit_node (e : OutEvent) (k : Nat) : (d.emit e).node k = d.node k := rfl
@[simp] theorem emit_bay (e : OutEvent) (k : Nat) : (d.emit e).bay k = d.bay k := rfl
@[simp] theorem setLine_bench (i q : Nat) (l : CacheLine) (k : Nat) : (d.setLine i q l).bench k = d.bench k := rfl
@[simp] theorem setLine_jig (i q : Nat) (l : CacheLine) (k : Nat) : (d.setLine i q l).jig k = d.jig k := rfl
@[simp] theorem setLine_stager (i q : Nat) (l : CacheLine) (k : Nat) : (d.setLine i q l).stager k = d.stager k := rfl
@[simp] theorem setLine_plane (i q : Nat) (l : CacheLine) (k : Nat) : (d.setLine i q l).plane k = d.plane k := rfl
@[simp] theorem setLine_home (i q : Nat) (l : CacheLine) (k : Nat) : (d.setLine i q l).home k = d.home k := rfl
@[simp] theorem setLine_nearCtl (i q : Nat) (l : CacheLine) (k : Nat) : (d.setLine i q l).nearCtl k = d.nearCtl k := rfl
@[simp] theorem setLine_pc (i q : Nat) (l : CacheLine) (k : Nat) : (d.setLine i q l).pc k = d.pc k := rfl
@[simp] theorem setLine_cxl (i q : Nat) (l : CacheLine) (k : Nat) : (d.setLine i q l).cxl k = d.cxl k := rfl
@[simp] theorem setLine_mbx (i q : Nat) (l : CacheLine) (k : Nat) : (d.setLine i q l).mbx k = d.mbx k := rfl
@[simp] theorem setLine_flow (i q : Nat) (l : CacheLine) (k : Nat) : (d.setLine i q l).flow k = d.flow k := rfl
@[simp] theorem setLine_eth (i q : Nat) (l : CacheLine) (k : Nat) : (d.setLine i q l).eth k = d.eth k := rfl
@[simp] theorem setLine_node (i q : Nat) (l : CacheLine) (k : Nat) : (d.setLine i q l).node k = d.node k := rfl
@[simp] theorem setLine_bay (i q : Nat) (l : CacheLine) (k : Nat) : (d.setLine i q l).bay k = d.bay k := rfl
@[simp] theorem memPut_bench (a : Nat) (bs : List Byte) (k : Nat) : (d.memPut a bs).bench k = d.bench k := rfl
@[simp] theorem memPut_jig (a : Nat) (bs : List Byte) (k : Nat) : (d.memPut a bs).jig k = d.jig k := rfl
@[simp] theorem memPut_stager (a : Nat) (bs : List Byte) (k : Nat) : (d.memPut a bs).stager k = d.stager k := rfl
@[simp] theorem memPut_plane (a : Nat) (bs : List Byte) (k : Nat) : (d.memPut a bs).plane k = d.plane k := rfl
@[simp] theorem memPut_home (a : Nat) (bs : List Byte) (k : Nat) : (d.memPut a bs).home k = d.home k := rfl
@[simp] theorem memPut_nearCtl (a : Nat) (bs : List Byte) (k : Nat) : (d.memPut a bs).nearCtl k = d.nearCtl k := rfl
@[simp] theorem memPut_pc (a : Nat) (bs : List Byte) (k : Nat) : (d.memPut a bs).pc k = d.pc k := rfl
@[simp] theorem memPut_cxl (a : Nat) (bs : List Byte) (k : Nat) : (d.memPut a bs).cxl k = d.cxl k := rfl
@[simp] theorem memPut_mbx (a : Nat) (bs : List Byte) (k : Nat) : (d.memPut a bs).mbx k = d.mbx k := rfl
@[simp] theorem memPut_flow (a : Nat) (bs : List Byte) (k : Nat) : (d.memPut a bs).flow k = d.flow k := rfl
@[simp] theorem memPut_eth (a : Nat) (bs : List Byte) (k : Nat) : (d.memPut a bs).eth k = d.eth k := rfl
@[simp] theorem memPut_node (a : Nat) (bs : List Byte) (k : Nat) : (d.memPut a bs).node k = d.node k := rfl
@[simp] theorem memPut_bay (a : Nat) (bs : List Byte) (k : Nat) : (d.memPut a bs).bay k = d.bay k := rfl
@[simp] theorem queue_modQueue_same (j q : Nat) (f : Queue → Queue) : (d.modQueue j q f).queue j q = f (d.queue j q) := by
  unfold modQueue queue; rw [jig_modJig_same]; exact tabGet_mod_same _ _ _ _

end Sys2Proof.Machine.Dev
end

