-- ==== Sys2Proof/Laws/Step.lean ====
section
/-! SUPPORT. How a command acts on the state, once for each of the ways. -/

namespace Sys2Proof.Machine

open Sys2Proof

/-- The device as a command finds it: what the last command sent is gone. -/
theorem onDev_live (f : Ctl → Dev → Dev) (s : State) (h : s.ctl.live = true) :
    onDev f s = .next { s with dev := f s.ctl { s.dev with out := [] } } := by simp [onDev, h]

theorem onDev_held (f : Ctl → Dev → Dev) (s : State) (h : s.ctl.live = false) : onDev f s = .next s := by simp [onDev, h]

theorem onWork_live (f : Ctl → Dev → Dev) (s : State) (h : s.ctl.live = true) (hs : s.dev.fc.entering = false) :
    onWork f s = .next { s with dev := f s.ctl { s.dev with out := [] } } := by simp [onWork, h, hs]

theorem onWork_safe (f : Ctl → Dev → Dev) (s : State) (h : s.dev.fc.entering = true) : onWork f s = .next s := by simp [onWork, h]

theorem onWork_held (f : Ctl → Dev → Dev) (s : State) (h : s.ctl.live = false) : onWork f s = .next s := by simp [onWork, h]

theorem onClocked_live (f : Ctl → Dev → Dev) (s : State) (h : s.ctl.live = true) (ho : s.ctl.clk.onOsc = false) :
    onClocked f s = .next { s with dev := f s.ctl { s.dev with out := [] } } := by simp [onClocked, h, ho]

theorem onClocked_stopped (f : Ctl → Dev → Dev) (s : State) (h : s.ctl.clk.onOsc = true) : onClocked f s = .next s := by simp [onClocked, h]

theorem onClocked_held (f : Ctl → Dev → Dev) (s : State) (h : s.ctl.live = false) : onClocked f s = .next s := by simp [onClocked, h]

/-- A row of a bench's engine acts where the blocks work and the bench is not gated. -/
theorem onEngine_live (i : Nat) (f : Ctl → Dev → Dev) (s : State) (h : s.ctl.live = true) (hs : s.dev.fc.entering = false) (hg : (s.dev.bench i).gated = false) :
    onEngine i f s = .next { s with dev := f s.ctl { s.dev with out := [] } } := by
  unfold onEngine; rw [onWork_live _ _ h hs]; exact congrArg _ (congrArg _ (if_neg (by simpa [Dev.bench] using hg)))

/-- What is committed completes in the safe state too, until the stacks are in self-refresh. -/
theorem onCommitted_live (f : Ctl → Dev → Dev) (s : State) (h : s.ctl.live = true) (hs : s.dev.fc.entering = false ∨ s.dev.near.selfRefresh = false) :
    onCommitted f s = .next { s with dev := f s.ctl { s.dev with out := [] } } := by
  unfold onCommitted; rw [onDev_live _ _ h]; rcases hs with hs | hs <;> simp [hs]

/-- A register write that reaches its block does its work; one that arrives and is refused is dropped and recorded; one that does not arrive does nothing. -/
theorem guardCsr_open {port a n : Nat} {f : Ctl → Dev → Dev} {c : Ctl} {d : Dev} (h : arrives d port = true) (hr : reachesCsr c port 2 a n = true) :
    guardCsr port a n f c d = f c d := by simp [guardCsr, h, hr]

theorem guardCsr_shut {port a n : Nat} {f : Ctl → Dev → Dev} {c : Ctl} {d : Dev} (h : arrives d port = true) (hr : reachesCsr c port 2 a n = false) :
    guardCsr port a n f c d = dropWrite a port c d := by simp [guardCsr, h, hr]

theorem guardCsr_absent {port a n : Nat} {f : Ctl → Dev → Dev} {c : Ctl} {d : Dev} (h : arrives d port = false) : guardCsr port a n f c d = d := by
  simp [guardCsr, h]

/-- Whatever way a command acts, the queue stays. -/
theorem onDev_next (f : Ctl → Dev → Dev) (s : State) : ∃ d, onDev f s = .next { s with dev := d } := by
  unfold onDev; split
  · exact ⟨_, rfl⟩
  · exact ⟨s.dev, rfl⟩

theorem onWork_next (f : Ctl → Dev → Dev) (s : State) : ∃ d, onWork f s = .next { s with dev := d } := by
  unfold onWork; split
  · exact ⟨_, rfl⟩
  · exact ⟨s.dev, rfl⟩

theorem onClocked_next (f : Ctl → Dev → Dev) (s : State) : ∃ d, onClocked f s = .next { s with dev := d } := by
  unfold onClocked; split
  · exact ⟨_, rfl⟩
  · exact ⟨s.dev, rfl⟩

theorem onEngine_next (i : Nat) (f : Ctl → Dev → Dev) (s : State) : ∃ d, onEngine i f s = .next { s with dev := d } := onWork_next _ s

theorem onCommitted_next (f : Ctl → Dev → Dev) (s : State) : ∃ d, onCommitted f s = .next { s with dev := d } := onDev_next _ s

theorem onAll_next (f : Ctl → Dev → Ctl × Dev) (s : State) : ∃ c d, onAll f s = .next { s with ctl := c, dev := d } := ⟨_, _, rfl⟩

/-- The reset memory has the canonical form. -/
theorem reset_mem_wf : State.reset.dev.mem.wf = true := by decide

end Sys2Proof.Machine
end

