-- ==== Sys2Proof/WellFormed.lean ====
section
/-! DEFINITION. Well-formed commands: operands within what their row names (R4, R55, R227, R230). A command outside
these is none that the hardware can be given; its meaning is total all the same. -/

namespace Sys2Proof

/-- A queue number of jig `j`: 64 queues in a bay jig, 256 in the global one (R227). -/
def queueOk (j q : Nat) : Bool := decide (q < if j = 4 then 256 else 64)

/-- A line of the 48-bit address space (R55). -/
def lineOk (l : Nat) : Bool := decide (l < 0x40000000000)

/-- A page of the unified range (R215). -/
def pageOk (n : Nat) : Bool := decide (n < 0x800000)

/-- Bytes that lie in one line from an offset on, at least one. -/
def inLine (off : Nat) (bs : List Byte) : Bool := decide (0 < bs.length) && decide (off + bs.length ≤ 64)

/-- A write carries its bytes, a read none. -/
def dataOk (write : Bool) (bs : List Byte) (len : Nat) : Bool := bs.length == (if write then len else 0)

/-- Requests of one cycle are for one line, each from a port of its own (R382). -/
def sameOk (port line : Nat) (rs : List Req) : Bool := rs.all (fun r => r.line == line) && decide ((port :: rs.map (fun r => r.port)).Nodup)

/-- An atomic lies aligned in its line, with the elements its operation takes: FP32, FP16 or BF16 sources to FP32 targets, INT64 to
INT64, one 64-bit operand, or the two of a compare and swap (R325, R326). -/
def atomOk (off : Nat) (op : AtomOp) (bs : List Byte) : Bool :=
  match op with
  | .add fmt =>
    let w := if fmt = 16 then (8, 8) else if fmt = 0 then (4, 4) else (2, 4)
    (fmt == 16 || decide (fmt < 3)) && decide (0 < bs.length) && bs.length % w.1 == 0 && off % w.2 == 0 && decide (off + bs.length / w.1 * w.2 ≤ 64)
  | .fetchAdd => bs.length == 8 && off % 8 == 0
  | .cmpSwap => bs.length == 16 && off % 8 == 0

/-- The fields of a frame fit their places (R303). -/
def frameOk (f : Frame) : Bool :=
  decide (f.ver < 16) && decide (f.resv < 32) && decide (f.opc < 256) && decide (f.srcNode < 65536) && decide (f.dstNode < 65536) && decide (f.dstFlow < 65536) &&
    decide (f.len < 65536) && decide (f.payload.length ≤ 4096)

/-- Is a command well-formed? -/
def WellFormed (i : Instr) : Bool :=
  match i with
  | .pwrOkRise | .pwrOkFall | .sysRstNAssert | .sysRstNRelease | .internalResetRelease | .bootStageEnd .. | .bootStageLimitExpiry .. | .perstN0Release
  | .perstN0Assert | .upstreamHotReset | .upstreamLinkTrained | .upstreamLinkRecovery | .upstreamLinkL0 | .upstreamLinkDown | .pwrbrkNAssert | .brakeEnd
  | .brakeRecoveryStep | .pmbAlertNFall .. | .refclkLoss | .pllUnlock | .ethRefclkLoss | .ethRefclkReturn | .oscSwitchover | .dieSensorRead .. | .thermtripAssert
  | .hbmTempRead .. | .thermalLoopTick | .powerLimitEval .. | .wakeRequest .. | .wakeAdmit .. | .wakeReservationRelease .. | .wakeRampStep .. | .jtagTrst ..
  | .jtagUnlockResp .. | .mbxDoorbell .. | .mbxCommandTake .. | .mbxWaitingCommandEnd .. | .mbxWaitLimitExpiry .. | .mbxJigGo .. | .telemetryRewrite
  | .registerWrite .. | .registerLowHalfWrite .. | .counterLowHalfRead .. | .spadOwnerWrite .. | .spadOwnerSetWrite .. | .spadPairWrite .. | .spadStatOwnerWrite ..
  | .spadHandoverEnd .. | .spadAccessAccept .. | .spadWaitLimitExpiry .. | .strmSubmitWrite .. | .jigCtrAddWrite .. | .cohDirProbeWrite .. | .bayCacheDisable ..
  | .bayCacheInvalidateDone .. | .bayCacheEnable .. | .cohOrphanClear | .fcHeartbeatWrite .. | .fcPinCfgWrite .. | .fcSeverityWrite .. | .ptLockSet ..
  | .ptEntryWrite .. | .fabWinWrite .. | .mxTaskIssue .. | .mxPartialWaitRelease .. | .mxTaskComplete .. | .load .. | .store .. | .statSave .. | .statLoad ..
  | .dmaDescComplete .. | .copy .. | .fill .. | .bcast .. | .add .. | .sub .. | .mul .. | .fma .. | .min .. | .max .. | .abs .. | .neg .. | .colAdd .. | .rowMul ..
  | .cmpGt .. | .select .. | .div .. | .recip .. | .sqrt .. | .rsqrt .. | .log .. | .func .. | .dfunc .. | .rowSum .. | .rowMax .. | .rowTopk .. | .compress ..
  | .expand .. | .gather .. | .vecTaskComplete .. | .lnFwd .. | .rmsFwd .. | .smFin .. | .lnBwd .. | .rmsBwd .. | .smBwd .. | .rowTaskComplete ..
  | .jigPhaseBoundaryPass | .streamFillStart .. | .streamWatchdogExpiry .. | .get .. | .put .. | .stagerDescComplete .. | .pageDemoteStart | .strmEpochEnd
  | .cxlLinkRetrain .. | .cxlLinkDown .. | .farTimeout .. | .writeQueueAgeExpiry .. | .refreshDue .. | .softPprStart .. | .softPprDone .. | .pcStagingDone ..
  | .pcRetrainDone .. | .pcRestoreDone .. | .pcRetirementStart .. | .pcSacrificedRangeEmpty | .pcRetirementCopyDone .. | .planeUpdateStart .. | .planeCommit ..
  | .planeCommitAck .. | .planePublishAck .. | .planeReleaseAck .. | .planeTwinTimeoutExpiry .. | .rawFrameReceive .. | .pfcFrameReceive .. | .frameLossTimeout ..
  | .ackDelayExpiry .. | .ccPeriodTick .. | .flowOpenResend .. | .heartbeatSend | .peerLossExpiry .. | .rnrRetransmit .. | .rawTxPoll | .ethLaneFail ..
  | .ethPortRetrainDone .. | .ethPortLinkUp .. | .gradSend | .reduceScatter | .allGather | .allReduce | .broadcast | .barrier | .clamp | .dovetail
  | .doveWaveBarrierDone | .collOpComplete .. | .clampRecordReady | .clampWaitExpiry .. | .clampChildDeadline .. | .clampResultWaitExpiry .. | .coreLoad ..
  | .cacheReplacement .. | .retryBackoffExpiry .. | .safeStateComplete .. | .notificationDeliver .. | .collectorSweep .. | .silkaiHeartbeatExpiry .. | .fltNPulseEnd ..
  | .spdmRequest .. | .collectivePartTimeout .. | .hostCompletion .. | .configurationRequest .. => true
  | .pmbusPoll _ reading _ => (match reading with | some r => decide (r.1 < 65536) && decide (r.2 < 65536) | none => true)
  | .mbxCmdWrite _ _ off data => decide (off.val + data.length ≤ 4096)
  | .ndHello _ payload => decide (payload.length ≤ 4080)
  | .ndQuerySummary _ payload => decide (payload.length ≤ 4080)
  | .ndQueryBenches _ payload => decide (payload.length ≤ 4080)
  | .ndQueryNear _ payload => decide (payload.length ≤ 4080)
  | .ndQueryFar _ payload => decide (payload.length ≤ 4080)
  | .ndQueryEthernet _ payload => decide (payload.length ≤ 4080)
  | .ndTierMode _ payload => decide (payload.length ≤ 4080)
  | .ndAlloc _ payload => decide (payload.length ≤ 4080)
  | .ndFree _ payload => decide (payload.length ≤ 4080)
  | .ndRegionRegister _ payload => decide (payload.length ≤ 4080)
  | .ndRegionUnregister _ payload => decide (payload.length ≤ 4080)
  | .ndJigLoad _ payload => decide (payload.length ≤ 4080)
  | .ndJigStart _ payload => decide (payload.length ≤ 4080)
  | .ndJigStop _ payload => decide (payload.length ≤ 4080)
  | .ndPanelDefineTable _ payload => decide (payload.length ≤ 4080)
  | .ndPanelDefineDefine _ payload => decide (payload.length ≤ 4080)
  | .ndOptConfigJob _ payload => decide (payload.length ≤ 4080)
  | .ndOptConfigEntry _ payload => decide (payload.length ≤ 4080)
  | .ndFabJoin _ payload => decide (payload.length ≤ 4080)
  | .ndFabLeave _ payload => decide (payload.length ≤ 4080)
  | .ndFlowOpen _ payload => decide (payload.length ≤ 4080)
  | .ndFlowClose _ payload => decide (payload.length ≤ 4080)
  | .ndCollGroupDefine _ payload => decide (payload.length ≤ 4080)
  | .ndCollGroupDelete _ payload => decide (payload.length ≤ 4080)
  | .ndReshardBuild _ payload => decide (payload.length ≤ 4080)
  | .ndReshardBuildRun _ payload => decide (payload.length ≤ 4080)
  | .ndReshardRun _ payload => decide (payload.length ≤ 4080)
  | .ndSnapshot _ payload => decide (payload.length ≤ 4080)
  | .ndSnapshotUnpin _ payload => decide (payload.length ≤ 4080)
  | .ndRestore _ payload => decide (payload.length ≤ 4080)
  | .ndReplayVerify _ payload => decide (payload.length ≤ 4080)
  | .ndFaultCfgSource _ payload => decide (payload.length ≤ 4080)
  | .ndFaultCfgPin _ payload => decide (payload.length ≤ 4080)
  | .ndFaultLogFaults _ payload => decide (payload.length ≤ 4080)
  | .ndFaultLogOrphans _ payload => decide (payload.length ≤ 4080)
  | .ndFaultLogRepairs _ payload => decide (payload.length ≤ 4080)
  | .ndRetireBench _ payload => decide (payload.length ≤ 4080)
  | .ndRetirePcRetrain _ payload => decide (payload.length ≤ 4080)
  | .ndRetirePcRetire _ payload => decide (payload.length ≤ 4080)
  | .ndRetireEthLane _ payload => decide (payload.length ≤ 4080)
  | .ndPowerLimit _ payload => decide (payload.length ≤ 4080)
  | .ndFwUpdateFirmware _ payload .. => decide (payload.length ≤ 4080)
  | .ndFwUpdateConfig _ payload .. => decide (payload.length ≤ 4080)
  | .ndTelemetryKerf _ payload => decide (payload.length ≤ 4080)
  | .ndTelemetryPeriod _ payload => decide (payload.length ≤ 4080)
  | .ndTelemetryRewrite _ payload => decide (payload.length ≤ 4080)
  | .spadAccess _ _ write off data len _ => dataOk write data len && decide (0 < len) && decide (off.toNat + len ≤ 0x200000)
  | .spadWindowAccess _ _ write off data len => dataOk write data len && decide (0 < len) && decide (len ≤ 128) && decide (off.toNat + len ≤ 0x200000)
  | .nop jig queue => queueOk jig.val queue
  | .jigMx bay queue => queueOk bay.val queue
  | .jigVec bay queue => queueOk bay.val queue
  | .jigRow bay queue => queueOk bay.val queue
  | .jigDma bay queue => queueOk bay.val queue
  | .handover bay queue => queueOk bay.val queue
  | .stager jig queue => queueOk jig.val queue
  | .gate bay queue => queueOk bay.val queue
  | .phase jig queue => queueOk jig.val queue
  | .loop jig queue => queueOk jig.val queue
  | .release jig queue => queueOk jig.val queue
  | .coll queue => queueOk 4 queue
  | .endRec jig queue => queueOk jig.val queue
  | .jigRecordComplete jig queue _ => queueOk jig.val queue
  | .jigWaitTimeoutExpiry jig queue _ => queueOk jig.val queue
  | .jigHoistIssue jig queue => queueOk jig.val queue
  | .streamBlockArrival _ slot => decide (slot < 9)
  | .streamSlotFull _ slot => decide (slot < 9)
  | .segmentSeal _ segment => decide (segment < 0x200000)
  | .farRepairFetchDone entry block => decide (entry < 65536) && (match block with | some bs => bs.length == 4096 | none => true)
  | .farSegmentRewriteDone entry => decide (entry < 65536)
  | .pagePromoteStart page => pageOk page
  | .pagePromoteDone page => pageOk page
  | .pageDemoteDone page => pageOk page
  | .memoryDataReturn _ line _ => lineOk line
  | .nearCeWriteback _ line => decide (line < 0x200000000)
  | .scrubRead line _ => decide (line < 0x200000000)
  | .sealPutDone panel _ => decide (panel < 65536)
  | .write _ frame => frameOk frame
  | .readReq _ frame => frameOk frame
  | .readResp _ frame => frameOk frame
  | .atomicAdd _ frame => frameOk frame
  | .fetchAdd _ frame => frameOk frame
  | .cmpSwap _ frame => frameOk frame
  | .atomicResp _ frame => frameOk frame
  | .signal _ frame => frameOk frame
  | .panelAdd _ frame => frameOk frame
  | .mirror _ frame => frameOk frame
  | .mirrorCredit _ frame => frameOk frame
  | .twinDone _ frame => frameOk frame
  | .ack _ frame => frameOk frame
  | .status _ frame => frameOk frame
  | .rnr _ frame => frameOk frame
  | .heartbeat _ frame => frameOk frame
  | .flowOpen _ frame => frameOk frame
  | .pathPenaltyExpiry _ path => decide (path < 1024)
  | .fabricWindowAccess _ _ addr _ len => decide (addr.toNat + len ≤ 0x1000000000000)
  | .collData _ frame => frameOk frame
  | .barrierUp _ frame => frameOk frame
  | .barrierDown _ frame => frameOk frame
  | .dovePull _ frame => frameOk frame
  | .clampPart _ frame => frameOk frame
  | .clampResult _ frame => frameOk frame
  | .clampAck _ frame => frameOk frame
  | .clampQuery _ frame => frameOk frame
  | .clampNone _ frame => frameOk frame
  | .coreStore _ addr data _ => inLine (addr.toNat % 64) data
  | .rdshared port line same => lineOk line && sameOk port.val line same
  | .rdown port line same => lineOk line && sameOk port.val line same
  | .upgrade port line same => lineOk line && sameOk port.val line same
  | .wbdirty _ line data same => lineOk line && data.length == 64 && same.all (fun r => r.line == line)
  | .rdcur port line same => lineOk line && sameOk port.val line same
  | .wrfull port line data same => lineOk line && data.length == 64 && sameOk port.val line same
  | .wrpart port line off data same => lineOk line && inLine off.val data && sameOk port.val line same
  | .atomic port line off op data same => lineOk line && atomOk off.val op data && sameOk port.val line same
  | .memclnevct line => lineOk line
  | .snpinv _ line => lineOk line
  | .snpdata _ line => lineOk line
  | .snpcur _ line => lineOk line
  | .snoopResponse _ line rsp data _ => lineOk line && data.length == (if rsp = .data then 64 else 0)
  | .grant _ line _ data _ => lineOk line && (match data with | some bs => bs.length == 64 | none => true)
  | .grantack _ line same => lineOk line && same.all (fun r => r.line == line)
  | .wback _ line => lineOk line
  | .retry _ line => lineOk line
  | .cohSnoopTimeoutExpiry _ line _ => lineOk line
  | .biconflict line => lineOk line
  | .hostH2dSnoop line _ => decide (line < 0x400000000000)
  | .aliasRead addr len => decide (0 < len) && decide (addr.toNat + len ≤ 0x8000000000)
  | .faultRaise raises => raises.all (fun r => decide (r.2.1 ≤ 3))
  | .jtagInstructionUpdate instr => decide (instr < 32)

end Sys2Proof
end

