-- ==== Sys2Proof/Tests/Slice0.lean ====
section
/-! SUPPORT. The model's own tests: ill-formed commands are refused by WellFormed; each statement's hypotheses are met by a
small state; and a few single steps whose result the spec's words give. -/

set_option Elab.async false

namespace Sys2Proof.Tests

open Sys2Proof Sys2Proof.Machine

/-! ## Small states -/

/-- The blocks run, Silkai's firmware and Puwell's cores too; nothing else differs from reset. -/
def run : State :=
  { State.reset with ctl := { State.reset.ctl with live := true, boot := { stage := 9, ready := true }, clk := { counting := true } }, dev := { State.reset.dev with silkai := { State.reset.dev.silkai with puwellRun := true } } }

/-- The running part with its device, or its control part, changed. -/
def runD (f : Dev → Dev) : State := { run with dev := f run.dev }
def runC (f : Ctl → Ctl) : State := { run with ctl := f run.ctl }

/-! ## Hypotheses that states meet -/

theorem witness_ResetPinsAct : ({ ctl := { pins := { pwrOk := false } } } : State).ctl.pins.pwrOk = false ∧ State.reset.ctl.pins.pwrOk = true ∧
    (run.ctl.pins.pwrOk = true ∧ run.ctl.clk.counting = true) ∧
    (let s : State := { State.reset with ctl := { State.reset.ctl with clk := { counting := true } } }; s.ctl.pins.pwrOk = true ∧ s.ctl.clk.counting = true ∧ s.ctl.live = false) ∧
    (State.reset.ctl.pins.pwrOk = true ∧ State.reset.ctl.clk.counting = false ∧ State.reset.ctl.live = false) := by decide

/-- A part in boot stage `n`. -/
def booting (n : BitVec 4) : State := runC (fun c => { c with boot := { running := true, stage := n } })

theorem witness_BootStagesRun : (∀ n : BitVec 4, (booting n).ctl.boot.running = true ∧ (booting n).dev.fc.entering = false ∧ (booting n).ctl.boot.stage = n) ∧
    (booting 3).ctl.ptLock = false ∧ (booting 5).ctl.boot.cfgDefaulted = false ∧ (booting 6).dev.flash.log = [] ∧ ({} : BootObs).pcs = [] ∧ ({ (booting 8).ctl with cfg := { puwellStart := false } } : Ctl).cfg.puwellStart = false ∧ (booting 5).ctl.ptLock = false ∧
    ({ (booting 5).ctl with ptLock := true } : Ctl).ptLock = true ∧
    imageOk (booting 3).ctl.fuses (slotImage (booting 3).dev.flash (1 - activeSlot (booting 3).dev.flash)) = false := by decide +kernel

theorem witness_ClockAndPinEventsAct : run.Live ∧ (runC (fun c => { c with clk := { c.clk with ethRefclkOk := false, pllLock := false } })).ctl.clk.ethRefclkOk = false ∧
    run.ctl.pins.pwrOk = true ∧ run.dev.pwr.brake = false ∧ run.ctl.jtag.trst = false ∧ run.ctl.jtag.unlocked = false ∧ run.ctl.jtag.failures < 8 := by decide

theorem witness_DivisionLoopsMove : run.Live ∧ run.dev.pwr.brake = false ∧
    (let s := runD (fun d => { d with pwr := { d.pwr with temps := setAt d.pwr.temps 1 1600, warm := 2 } }); bayWarm s.dev.pwr 0 = true ∧ (s.dev.bay 0).div ≠ 10) ∧
    (let s := runD (fun d => { (d.modBay 0 (fun y => { y with div := 10 })) with pwr := { (d.modBay 0 (fun y => { y with div := 10 })).pwr with warm := 2 } }); bayWarm s.dev.pwr 0 = true ∧ (s.dev.bay 0).div = 10) ∧
    run.dev.pwr.limit.toNat * 1000 < (2000000 : W32).toNat ∧ ((1600000 : W32).toNat ≤ run.dev.pwr.limit.toNat * 1000 ∧ run.dev.pwr.limit.toNat * 1000 * 95 ≤ (1600000 : W32).toNat * 100) := by decide

theorem witness_ReadingsAreTaken : run.Live := rfl

theorem witness_WakesAreAdmitted :
    (let s := runD (fun d => d.modBench 0 (fun b => { b with gated := true })); s.Works ∧ (s.dev.bench 0).gated = true ∧ ∀ q ∈ (s.dev.bay 0).queue, q.1 ≠ 0) ∧
    (let s := runD (fun d => d.modBay 3 (fun y => { y with queue := [(131, 0)] }))
     s.Works ∧ (s.dev.bay 3).queue = [(131, 0)] ∧ wakeAdmits 75 s.dev.pwr.budget.toNat 3 (wakeShare (s.dev.bay 3).div) (s.dev.bay 3).reserved = true) := by decide

theorem witness_UpstreamPortEventsAct :
    (let s := runC (fun c => { c with pins := { c.pins with perst0Open := true, perst := 1 } }); s.Live ∧ s.ctl.pins.perst0Open = true ∧ bitAt s.ctl.pins.perst.toNat 0 = true ∧ 6 ≤ s.ctl.boot.stage.toNat ∧
      s.dev.host.st = .down) ∧
    (let s := runD (fun d => { d.modCxl 0 (fun p => { p with role := 1 }) with host := { d.host with st := .up } }); hostUp s.dev = true ∧ (s.dev.cxl 0).role = 1) ∧
    (runD (fun d => { d with host := { d.host with st := .retraining } })).dev.host.st = .retraining := by decide

theorem witness_RaiseIsBooked : (let fc : Collector := ({} : Collector).raise1 0 {} false 479 0 0 1 |>.1
    (fc.src 479).pending = true ∧ max (fc.src 479).sev.toNat 0 < 2 ∧ max (fc.src 479).sev.toNat 0 ≤ (fc.src 479).pendSev.toNat ∧
      2 ≤ max (fc.src 479).sev.toNat 3 ∧ fc.logSlot.isSome = true) ∧ bitAt 0x100 8 = true := by decide +kernel

theorem witness_FaultRaiseActs : run.Live ∧ run.dev.fc.deaf = false ∧ run.dev.fc.entering = false ∧ max (run.dev.fc.src 0).sev.toNat 3 = 3 ∧
    max (run.dev.fc.src 479).sev.toNat 1 < 2 := by decide

/-- The part with its collector changed. -/
def runF (f : Collector → Collector) : State := runD (fun d => { d with fc := f d.fc })

theorem witness_CollectorEventsAct : run.Live ∧ (runF (fun f => { f with entering := true })).dev.fc.entering = true ∧
    (let s := runD (fun d => { (d.modCxl 0 (fun p => { p with role := 1 })) with
        fc := { d.fc with owedMsix := true, owedI3c := true, notify := true, fresh := true, pulse := true }, host := { d.host with st := .up }, silkai := { d.silkai with msixEn := true, msixMask := 0 } })
     s.dev.fc.owedMsix = true ∧ s.dev.fc.notify = true ∧ s.dev.msixPath = true ∧ bitAt s.dev.silkai.msixMask.toNat 16 = false ∧ s.dev.fc.owedI3c = true ∧ s.dev.fc.fresh = true ∧
      s.dev.fc.pulse = true) ∧ run.dev.fc.deaf = false := by decide

theorem witness_CollectorRegistersTakeWrites : run.Live ∧ ((15 : Fin 16) = 15 ∨ run.ctl.cfg.faultCfgLock = false) ∧
    (let s := runF (fun f => { f with fallback := true, fresh := false }); s.dev.fc.fallback = true ∧ s.dev.fc.fresh = false) ∧ bitAt (0 : W32).toNat 2 = false ∧ bitAt (4 : W32).toNat 2 = true ∧
    (run.dev.fc.src 0).lock = false ∧ ((runF (fun f => { f with srcs := tabPut f.srcs 479 { f.src 479 with lock := true } })).dev.fc.src 479).lock = true ∧
    (List.range 480).any (fun n => sevFixed n) = true ∧ sevFixed 479 = false ∧ (8 ≤ (14 : Fin 16).val ∧ (14 : Fin 16) ≠ 15) ∧ (7 : Fin 16).val < 8 := by decide +kernel

theorem witness_ProtectionEntriesTakeWrites : run.Live ∧ run.ctl.ptLock = false ∧ (runC (fun c => { c with ptLock := true })).ctl.ptLock = true := by decide

theorem witness_LockedTablesStay : Instr.jtagTrst true ≠ .pwrOkRise ∧ Instr.jtagTrst true ≠ .pwrOkFall ∧ (runC (fun c => { c with ptLock := true })).ctl.ptLock = true ∧
    ∃ t, exec (.jtagTrst true) (runC (fun c => { c with ptLock := true })) = .next t := ⟨by decide, by decide, rfl, _, rfl⟩

theorem witness_StepsKeepControlSound : State.reset.ctl.Sound ∧ ∃ t, step State.reset = .next t := ⟨by decide, _, rfl⟩

/-- The part with bench 131 changed. -/
def runB (f : Bench → Bench) : State := runD (fun d => d.modBench 131 f)

/-- Banks 0 and 1 owned by nobody, pair 0 and pair 7 to be written. -/
theorem witness_BankOwnersChange : (runB id).Works ∧ (runB id).dev.benchActive 130 = true ∧ (runB id).dev.benchActive 0 = true ∧
    ownerWriteOk [15] (bits (3 : W32).toNat 0 3) (bitAt (3 : W32).toNat 3) (bits (3 : W32).toNat 4 3) ((runB id).dev.bench 130) = true ∧
    ownerWriteOk [0] (bits (5 : W32).toNat 0 3) (bitAt (5 : W32).toNat 3) (bits (5 : W32).toNat 4 3) ((runB id).dev.bench 130) = false ∧
    ownerWriteOk (setBitsOf (0x2FFFF : W32).toNat 16) (bits (0x2FFFF : W32).toNat 16 3) (bitAt (0x2FFFF : W32).toNat 19) (bits (0x2FFFF : W32).toNat 20 3) ((runB id).dev.bench 130) = true ∧
    (bits (7 : W32).toNat 0 3 = 7 ∧ bitAt (7 : W32).toNat 3 = false) ∧
    (let b : Bench := { ({} : Bench) with owner := (List.range 16).map (fun i => (i, 7)) }
     ∀ k < 8, bitAt 0 k ≠ bitAt b.paired.toNat k → tabGet 0 b.owner (2 * k) = 7 ∧ tabGet 0 b.owner (2 * k + 1) = 7 ∧ bits b.handover.toNat (2 * k) 2 = 0) := by decide +kernel

theorem witness_BankAccessesRun : oneUnit 0x1FFFFF 1 = true ∧ ownsBank ({} : Bench) 0 (bankOfOff {} 0x1FFFFF) = true ∧ ({} : Bench).waits = [] ∧ badWord {} [(0x1FFFFF, 1)] = none ∧
    ownsBank ({} : Bench) 4 (bankOfOff {} 0) = false ∧ ({} : Bench).waitLimit ≠ 0 ∧
    (let w : WaitAcc := { master := 4, write := true, off := 0, len := 128, data := List.replicate 128 1, port := 9 }
     let b : Bench := { ({} : Bench) with waits := [w], owner := [(0, 4)] }
     b.waits = [w] ∧ w.master = 4 ∧ w.write = true ∧ w.dma = none ∧ 0 < w.len ∧ waitOver b w = true) ∧
    (ptPermits (runC (fun c => { c with pt := ptFactoryTab })).ctl (csrAsker 15) 2 0x3F8000000000 128 = true ∧ oneUnit 0 128 = true ∧
      ownsBank { ({} : Bench) with owner := [(0, 4), (1, 4)] } 4 (bankOfOff {} 0) = true) := by decide +kernel

/-- A scratchpad that holds a descriptor at 0x100, and every bank of it given to master `m`. -/
def padWith (m : Nat) (ws : List Nat) : Bench :=
  { ({} : Bench) with spad := spadWrite [] 0x100 (ws.flatMap (natLE 8)), owner := if m = 0 then [] else (List.range 16).map (fun i => (i, m)), statOwner := BitVec.ofNat 3 m }

/-- A vector descriptor of one element: code `op`, FP32, four arrays apart. -/
def vecWords (op : Nat) : List Nat :=
  [op, 1 + 2 ^ 20, 0x1000 + 0x2000 * 2 ^ 21 + 0x3000 * 2 ^ 42, 0x4000 + 0x5000 * 2 ^ 21 + 0x6000 * 2 ^ 42, 2 ^ 48, 1 + 2 ^ 32, 0, 0]

theorem witness_VectorRowsRun : ∀ p ∈ vectorRows, let b := padWith 2 (vecWords p.2)
    fetchDesc b 2 0x100 = .words (vecWords p.2) ∧ (vecDescOf (vecWords p.2)).op = p.2 ∧ vecChecks b (vecDescOf (vecWords p.2)) (ctxSpan (vecDescOf (vecWords p.2)).sr 0x100) = .passes ∧
    missingAt b 2 (vecReads (vecDescOf (vecWords p.2)) ++ vecWrites (vecDescOf (vecWords p.2)) ++ ctxSpan (vecDescOf (vecWords p.2)).sr 0x100) = none ∧
    badWord b (vecReads (vecDescOf (vecWords p.2)) ++ ctxSpan (vecDescOf (vecWords p.2)).sr 0x100) = none := by decide +kernel

/-- A row descriptor of one element. -/
def rowWords (op : Nat) : List Nat := [op, 1 + 2 ^ 20, 0x1000 + 0x2000 * 2 ^ 21 + 0x3000 * 2 ^ 42, 0x4000 + 0x5000 * 2 ^ 21 + 0x6000 * 2 ^ 42, 0x7000, 0, 0, 0]

theorem witness_RowEngineRowsRun : ∀ p ∈ rowRows, let b := padWith 3 (rowWords p.2)
    fetchDesc b 3 0x100 = .words (rowWords p.2) ∧ (rowDescOf (rowWords p.2)).op = p.2 ∧ rowCheck (rowDescOf (rowWords p.2)) (ctxSpan (rowDescOf (rowWords p.2)).sr 0x100) = none ∧
    ownsStat b 3 = true ∧ missingAt b 3 (rowReads (rowDescOf (rowWords p.2)) ++ rowWrites (rowDescOf (rowWords p.2)) ++ ctxSpan (rowDescOf (rowWords p.2)).sr 0x100) = none ∧ b.dbl = [] ∧ b.statDbl = [] := by decide +kernel

/-- A matrix descriptor of one element: BF16 operands, FP32 out. -/
def mxWords : List Nat := [0x22, 1 + 2 ^ 20 + 2 ^ 40, 0x1000 + 0x2000 * 2 ^ 21 + 0x3000 * 2 ^ 42, 0, 0, 0x3F800000, 0, 0]

theorem witness_EngineTasksAdvance : (runB id).Works ∧ ((runB id).dev.bench 131).gated = false ∧ fetchDesc (padWith 1 mxWords) 1 0x100 = .words mxWords ∧
    mxCheck (mxDescOf mxWords) (ctxSpan (mxDescOf mxWords).sr 0x100) = none ∧ missingAt (padWith 1 mxWords) 1 (ctxSpan (mxDescOf mxWords).sr 0x100) = none ∧
    badWord (padWith 1 mxWords) (ctxSpan (mxDescOf mxWords).sr 0x100) = none ∧ 0 < mxTiles (mxDescOf mxWords) ∧ (mxDescOf mxWords).nPart = 0 ∧
    (∀ k < 16, ownsBank (padWith 1 mxWords) 1 k = true) ∧ (padWith 1 mxWords).dbl = [] ∧
    (mxGo (fun _ => 0) (mxDescOf mxWords) (mxMoves (mxDescOf mxWords)) (padWith 1 mxWords) { off := 0x100, words := mxWords, tag := { jig := 0, queue := 0, record := 0 } }).2.drain = 1 ∧
    partialsIn run.dev 0 { off := 0x100, words := mxWords, tag := { jig := 0, queue := 0, record := 0 } } = true := by decide +kernel

/-- A DMA descriptor of one row of one byte between the scratchpad and near address 0. -/
def dmaWords (kind : Nat) : List Nat := [kind, 0, 0x1000, 1 + (if kind < 2 then 2 ^ 20 + 64 * 2 ^ 40 else 0), 0, 0, 0, 0]

theorem witness_DmaDescriptorsRun : ∀ p ∈ dmaRowTable, (dmaDescOf (dmaWords p.2)).kind = p.2 ∧ fetchDesc (padWith 0 (dmaWords p.2)) 0 0x100 = .words (dmaWords p.2) ∧
    dmaCheck (runD (fun d => { d with silkai := { d.silkai with regions := [(0, { base := 0, len := 4096, engine := true, fabRd := false, fabWr := false, fabAtom := false })] } })).dev (dmaDescOf (dmaWords p.2)) = none ∧
    dmaMissing (padWith 0 (dmaWords p.2)) (dmaDescOf (dmaWords p.2)) = none := by decide +kernel

theorem witness_PokeWritesItsSpan : rangeOf 0x7FDFFFFFC0 ≠ .unified ∧ (∀ l ∈ Memory.linesOf 0x7FDFFFFFC0 64, run.dev.tracked l = false ∧ ∀ t ∈ (run.dev.home (homeOfLine l)).txns, t.req.line ≠ l) ∧ run.dev.mem.wf = true := by
  decide +kernel

/-- A record of kind `k` and operand `a`, for bench 0, with loop register 3 and 65,535 jumps. -/
def recWords (k a : Nat) : List Nat := [k + 2 ^ 16 + 3 * 2 ^ 48, a, 0, 0, 0, 0, 65535 * 2 ^ 32, 0]

/-- A part whose jig `j` has one queue, number `q`, with one record at its head, its wait reached. -/
def headed (j q : Nat) (ws : List Nat) : State :=
  runD (fun d => ({ d with silkai := { d.silkai with regions := [(0, { base := 0, len := 2 ^ 20, engine := true, fabRd := false, fabWr := false, fabAtom := false })] } }.modJig j
    (fun g => { g with queues := [(q, { recs := [ws], state := 1, reached := true })] })).modStager 0 (fun g => { g with entries := 1, table := [[0, 0, 2 ^ 32, 0, 0, 0, 0, 0]] }))

theorem witness_JigRecordsIssue :
    (∀ k ∈ [1, 2, 3, 4], Heads (headed 3 63 (recWords k 0x1FFFC0)) 3 63 (jigRecOf (recWords k 0x1FFFC0)) ∧ (jigRecOf (recWords k 0x1FFFC0)).kind = k ∧
      recAddr ((headed 3 63 (recWords k 0x1FFFC0)).dev.queue 3 63) (jigRecOf (recWords k 0x1FFFC0)) = 0x1FFFC0 ∧ (jigRecOf (recWords k 0x1FFFC0)).mask ≠ 0) ∧
    (∀ k ∈ [0, 6, 10, 11], Heads (headed 4 255 (recWords k 0xFFFC0)) 4 255 (jigRecOf (recWords k 0xFFFC0)) ∧ (jigRecOf (recWords k 0xFFFC0)).kind = k ∧
      nearCheck (headed 4 255 (recWords k 0xFFFC0)).here (recAddr ((headed 4 255 (recWords k 0xFFFC0)).dev.queue 4 255) (jigRecOf (recWords k 0xFFFC0))) = none) := by
  unfold Heads; decide +kernel

/-- The map of an empty image at 0x100. -/
theorem witness_JigRecordsIssue_release : let s : State := { headed 0 0 (recWords 10 0x100) with dev := (headed 0 0 (recWords 10 0x100)).dev.poke 0x100 (List.replicate 64 0) }
    nearCheck s.here 0x100 = none ∧ s.here.peekPoison 0x100 64 = false ∧ s.here.mapEntries 0x100 = 0 ∧ s.here.peekPoison 0x140 (8 * s.here.mapEntries 0x100) = false := by decide +kernel

theorem witness_JigControlRecordsIssue : (∀ k ∈ [5, 8, 9, 12], Heads (headed 0 0 (recWords k 0x30001)) 0 0 (jigRecOf (recWords k 0x30001)) ∧ (jigRecOf (recWords k 0x30001)).kind = k) ∧
    (∀ i ∈ namedBenches (headed 0 0 (recWords 5 0x30001)).dev 0 (jigRecOf (recWords 5 0x30001)), ownerWriteOk (setBitsOf (bits 0x30001 0 32) 16) (bits (bits 0x30001 0 32) 16 3)
      (bitAt (bits 0x30001 0 32) 19) (bits (bits 0x30001 0 32) 20 3) ((headed 0 0 (recWords 5 0x30001)).dev.bench i) = true) ∧
    (let s : State := { headed 0 0 (recWords 7 0) with dev := { (headed 0 0 (recWords 7 0)).dev with stream := { gates := [(0, { opened := true, reach := some 0 })] } } }
     Heads s 0 0 (jigRecOf (recWords 7 0)) ∧ recAddr (s.dev.queue 0 0) (jigRecOf (recWords 7 0)) < strmLen s.dev ∧ (gateAt s.dev (gatePos s.dev (s.dev.queue 0 0) (jigRecOf (recWords 7 0)))).opened = true ∧
      (gateAt s.dev (gatePos s.dev (s.dev.queue 0 0) (jigRecOf (recWords 7 0)))).reach.isSome = true) := by
  unfold Heads; decide +kernel

theorem witness_JigEventsAct :
    (let q : Queue := { issued := [{ serial := 1, recIdx := 0, benches := 0, other := false }] }; ∃ x, q.issued = [x] ∧ x.benches = 0 ∧ x.other = false ∧ x.status = 0 ∧ x.lost = false ∧ x.aborted = false) ∧
    headWaits { recs := [[0xA0, 0, 0, 0, 0, 0, 0, 0]], state := 1 } = true ∧
    (let s := runD (fun d => { d.modJig 4 (fun g => { g with queues := [(255, { recs := [[8, 1, 0, 0, 0, 0, 0, 0]], state := 4 })] }) with life := { d.life with stopPending := some true } })
     boundaryReady s.dev = true ∧ s.dev.life.stopPending.isSome = true ∧ run.dev.life.stopPending = none) ∧
    (∃ r, headRec { recs := [[0xA0, 0, 0, 0, 0, 0, 0, 0]], state := 1 } = some r ∧ r.waitPeer = true ∧ r.waitEn = true) := by
  refine ⟨⟨_, rfl, by decide⟩, by decide, by decide +kernel, ⟨_, rfl, by decide⟩⟩

/-- T = 2 for the wait below: the signal of 2 reaches it, and a signal of 1 does not. -/
theorem witness_SignalsAdd : let q : Queue := { recs := [[0x20, 0, 0, 2 ^ 33, 0, 0, 0, 0]], state := 1 }
    let d := (headed 0 0 []).dev.modJig 4 (fun g => { g with queues := [(0, q)] })
    (d.queue 4 0).state = 1 ∧ (d.queue 4 0).recs[(d.queue 4 0).head]? = some [0x20, 0, 0, 2 ^ 33, 0, 0, 0, 0] ∧ d.life.startStep ≤ d.life.step.toNat ∧ (d.queue 4 0).reached = false ∧
    ((d.signal 4 0 2).queue 4 0).reached = true ∧ ((d.signal 4 0 1).queue 4 0).reached = false := by decide +kernel

/-- A program with one stream entry of one block runs. -/
def streaming : State := { headed 0 0 [] with dev := { (headed 0 0 []).dev with life := { loaded := true, state := .forward } } }

theorem witness_StreamFills : streaming.Works ∧ running streaming.dev = true ∧ nextFill streaming.dev 0 = some 0 ∧ fillReached streaming.dev 0 0 = true ∧
    tabFree (streaming.dev.stager 0).slots ((streaming.dev.stager 0).lookahead.toNat + 1) = some 0 ∧ (strmAt streaming.dev 0 0).nblocks = 1 ∧ (strmAt streaming.dev 0 0).remote = false ∧
    (let x : Slot := { state := 1, pos := 0, done := 0 }; x.state = 1 ∧ x.stale = false ∧ x.refetched = false ∧ x.done < (strmAt streaming.dev 0 x.pos).nblocks) ∧
    (let x : Slot := { state := 1, pos := 0, done := 1 }; (strmAt streaming.dev 0 x.pos).nblocks ≤ x.done) ∧
    (let g : Gate := { reach := some 5 }; g.reach = some 5 ∧ g.opened = false ∧ g.watchdog = false) := by decide +kernel

/-- A stager with a descriptor at its head: word 0, `n` blocks at near address 0x10000, the map at 0x20000 of 512 blocks. -/
def staging (h : StgDesc) (w0 n : Nat) : State :=
  let d := ((headed 0 0 []).dev.modStager 0 (fun g => { g with queue := [h] })).poke 0x100 ([w0, 0x10000, 0x20000, n * 2 ^ 32, 0, 0, 0, 0].flatMap (natLE 8))
  { headed 0 0 [] with dev := d.poke 0x20000 (natLE 8 0 ++ natLE 8 512 ++ List.replicate 48 0) }

/-- The head of the stager's queue is `h`, with operation `op`, signal enable `sig` and check result `st`. -/
def stgMeets (s : State) (h : StgDesc) (op : Nat) (sig : Bool) (st : Option Nat) : Bool :=
  (stgHead s.here 0).any (fun p => decide (p.1 = h) && p.2.op == op && p.2.sigEn == sig && decide (stgCheck s.here p.2 = st))

theorem witness_StagerDescriptorsRun : let fresh : StgDesc := { addr := 0x100 }
    let ended : StgDesc := { addr := 0x100, ran := true, status := 0 }
    stgMeets (staging fresh 0 0) fresh 0 false (some 0) = true ∧ stgMeets (staging fresh (1 + 2 ^ 26) 0) fresh 1 false (some 0) = true ∧ stgMeets (staging fresh 0 1) fresh 0 false none = true ∧
    stgMeets (staging fresh (1 + 2 ^ 26) 128) fresh 1 false none = true ∧ stgMeets (staging ended 0 0) ended 0 false (some 0) = true ∧ stgMeets (staging ended 0x400 0) ended 0 true (some 0) = true ∧
    fresh.ran = false ∧ ended.ran = true ∧ ended.heldBlocks = 0 ∧ ended.tag = none ∧ ((staging ended 0 0).dev.stager 0).filling = [] := by decide +kernel

theorem witness_RepairsAct : let r : Repair := { target := 0, isPage := false, entry := 0, block := 0, seg := 512, dowel := none, attempts := 1, firstFetch := List.replicate 4096 0, held := [], fixed := none, poisoned := false }
    r.fixed = none ∧ r.poisoned = false ∧ r.attempts = 1 ∧ r.held = [] ∧ (List.replicate 4096 (0 : Byte)).length = 4096 ∧ fetchOk r (List.replicate 4096 0) = true ∧
    ({ r with attempts := 0 } : Repair).attempts = 0 ∧ ({ r with poisoned := true } : Repair).poisoned = true ∧
    rewriteTarget (runD (fun d => d.modCxl 0 (fun p => { p with up := true, cap := 2 ^ 40 }))).here 512 = some 1024 := by
  refine ⟨rfl, rfl, rfl, rfl, List.length_replicate, ?_, rfl, rfl, by decide +kernel⟩
  simp [fetchOk]

theorem witness_PagesMove : lowestFrame run.here = some 0 ∧ wantsPromotion run.here 0 { res := .far, waiting := [(0, [], true)] } = true ∧
    leavingPage run.here = none ∧ sweepable { res := .near } = true ∧ ({ res := .near } : Page).referenced = false ∧
    (let s := runD (fun d => d.modFar (fun f => { f with pages := [(0, { res := .near })], lowWm := 0x3FFFF })); sweepOrder s.here = [(0, { res := .near })] ∧ freeFrames s.here < s.dev.far.lowWm.toNat) ∧
    pickSegment (runD (fun d => d.modCxl 0 (fun p => { p with up := true, cap := 2 ^ 30 }))).here 0xF 3 = some 1 ∧
    (holdOnPages run.ctl run.here 0x200000000000 0x200000).1 = false := by decide +kernel

/-- Every line of frame 0 is sound. -/
def soundLines : Tab Bool := (List.range' 0 32768).map (fun i => (i, false))
/-- A part whose page 0 leaves frame 0. -/
def leaving : State :=
  runD (fun d => { d.modFar (fun f => { f with pages := [(0, { res := .demoting, seg := 1 })] }) with mem := { cells := [], lines := soundLines } })

theorem find_sound (l : Nat) : ∀ n k : Nat, k ≤ l → l < k + n → tabFind ((List.range' k n).map (fun i => (i, false))) l = some false
  | 0, k, h1, h2 => by omega
  | n + 1, k, h1, h2 => by
    simp only [List.range'_succ, List.map_cons, tabFind]
    split
    · rfl
    · exact find_sound l n (k + 1) (by omega) (by omega)

theorem mem_linesOf {a n l : Nat} (h : l ∈ Memory.linesOf a n) : l ≤ (a + n - 1) / 64 := by
  unfold Memory.linesOf at h
  split at h
  · exact absurd h List.not_mem_nil
  · obtain ⟨i, hi, rfl⟩ := List.mem_map.1 h
    have := List.mem_range.1 hi
    omega
/-- The lines of frame 0 are those below 32,768. -/
theorem lines_of_frame (l : Nat) (h : l ∈ Memory.linesOf (0 * 0x200000) 0x200000) : l < 32768 := by
  have := mem_linesOf h
  omega
theorem leaving_sound (l : Nat) (h : l < 32768) : leaving.here.linePoison l = false := by
  have hr : rangeOf (l * 64) = .near := by unfold rangeOf; rw [if_pos (by omega)]
  have hp : leaving.here.place (l * 64) = some (l * 64) := by unfold Dev.place; rw [hr]
  have hm : leaving.here.mem.poisoned leaving.here.era l = false := by
    show (tabFind soundLines l).getD _ = false
    rw [soundLines, find_sound l 32768 0 (by omega) (by omega)]; rfl
  have ht : leaving.here.inTable (l * 64) = false := by unfold Dev.inTable; rw [hr]
  have hd : leaving.here.dirtyHolder l = none := by
    refine List.find?_eq_none.2 (fun c _ => ?_)
    have : leaving.here.cacheLine c l = {} := rfl
    rw [this]; decide
  have ho : leaving.here.ownerOf l = none := rfl
  have hw : Dev.waitingWrites (leaving.here.home (homeOfLine l)) l = [] := rfl
  have hx : leaving.here.homeData l = none := rfl
  have hb : leaving.here.badRead l = false := by unfold Dev.badRead; rw [hp]; rfl
  have hc : (leaving.here.current l).poison = false := by
    have : l * 64 / 64 = l := by omega
    simp [Dev.current, hd, hw, hx, Dev.leavingData, Dev.hostOwns, ho, Dev.backing, hp, Dev.memLine, ht, this, hm]
  simp [Dev.linePoison, hc, hb]

theorem witness_PagesMove_demotes : leaving.Works ∧ tabFind leaving.dev.far.pages 0 = some { res := .demoting, seg := 1 } ∧
    (readSpan leaving.ctl leaving.here (0 * 0x200000) 0x200000).2.1 = false := by
  refine ⟨⟨rfl, rfl⟩, rfl, ?_⟩
  have h : (Memory.linesOf (0 * 0x200000) 0x200000).filter leaving.here.linePoison = [] :=
    List.filter_eq_nil_iff.2 (fun l hl => by simp [leaving_sound l (lines_of_frame l hl)])
  simp only [readSpan, readSpanBy, h, List.isEmpty_nil, Bool.not_true]

theorem witness_RootPortEventsAct : (let s := runD (fun d => d.modCxl 3 (fun p => { p with up := true })); s.Live ∧ (s.dev.cxl 3).role = 0 ∧ (s.dev.cxl 3).up = true ∧
    (∀ b < 4, touchesPort s.here 3 b = false) ∧ s.dev.far.repairs = [] ∧ s.dev.far.repairWait = [] ∧ (∀ q ∈ s.dev.far.pages, q.2.res ≠ .demoting) ∧
    (s.dev.home (homeOfLine 0x1000000)).txns = []) := by decide +kernel

theorem witness_NearControllersRun : ((runD (fun d => d.modPc 511 (fun p => { p with writeQ := [0] }))).dev.pc 511).writeQ ≠ [] ∧ inStack 0x1FFFFFFFF = true ∧
    ((runD (fun d => d.modNearCtl 0 (fun n => { n with scrubEn := true }))).dev.nearCtl 0).scrubEn = true := by decide +kernel

theorem witness_RowRepairsRun :
    (let s := runD (fun d => d.modNearCtl 7 (fun n => { n with candidates := [5] })); s.Works ∧ (s.dev.nearCtl 7).candidates = [5] ∧ (s.dev.nearCtl 7).ppr = none ∧
      tabGet 0 s.dev.near.sparesUsed (keyBank 5) < s.dev.near.sparesAtTraining ∧ s.dev.flash.log.length < 28544) ∧
    (let s := runD (fun d => (d.modNearCtl 0 (fun n => { n with candidates := [5, 6] })).modNear (fun n => { n with sparesUsed := [(keyBank 5, 2)] }))
     s.dev.near.sparesAtTraining ≤ tabGet 0 s.dev.near.sparesUsed (keyBank 5) ∧ (s.dev.pc (keyPc 5)).st = .active) ∧
    (let s := runD (fun d => d.modNearCtl 0 (fun n => { n with ppr := some 5 })); (s.dev.nearCtl 0).ppr = some 5 ∧ s.dev.flash.log.length < 28672) := by decide +kernel

/-- Pseudo-channel 511 in one state. -/
def pcIn (st : PcState) : State := runD (fun d => (d.modPc 511 (fun p => { p with st := st })).modNear (fun n => { n with retiring := some (511, 1) }))

theorem witness_PseudoChannelsMove : (∀ st ∈ [PcState.stagingRt, .stagingRet, .retraining, .restoring, .degraded, .staged, .retiring], ((pcIn st).dev.pc 511).st = st) ∧
    (pcIn .degraded).Works ∧ otherStaged (pcIn .degraded).here 511 = false ∧ mayRetire (pcIn .degraded).here 511 = true ∧ (pcIn .staged).dev.near.retiring = some (511, 1) ∧
    sacrificedEmpty (pcIn .staged).here 1 = true ∧ (let s := runD (fun d => (d.modPc 0 (fun p => { p with st := .degraded })).modNear (fun n => { n with retired := [1, 2] }))
      (s.dev.pc 0).st = .degraded ∧ otherStaged s.here 0 = false ∧ mayRetire s.here 0 = false) := by decide +kernel

theorem witness_BayCacheSwitches : run.Works ∧ (run.dev.nearCtl 0).bcEn = true ∧ ((runD (fun d => d.modNearCtl 7 (fun n => { n with bcEn := false }))).dev.nearCtl 7).bcEn = false ∧
    ((runD (fun d => d.modNearCtl 7 (fun n => { n with bcInvalidating := true }))).dev.nearCtl 7).bcInvalidating = true := by decide +kernel

/-- A part whose panel table has the header `ws` (its first eight words, the others 0) at index 0, with its slot 0 at 0x1000. -/
def panelled (ws slot : List Nat) (f : Plane → Plane) : State :=
  let d := ((run.dev.poke 0 ((ws ++ List.replicate (32 - ws.length) 0).flatMap (natLE 8))).poke 0x1000 ((slot ++ List.replicate (8 - slot.length) 0).flatMap (natLE 8))).modPlane 0 f
  { run with dev := { d with opt := { d.opt with panels := [(0, true)] } } }

/-- Words 0 to 7 of a header: commit word, word 1, 1,024 parameters, the twin's header, the ledger at 0x1000. -/
def header (commit w1 twin : Nat) : List Nat := [commit, w1, 1024, 0, twin, 0x1000, 1, 0]

theorem witness_PlaneUpdatesAdvance :
    (let s := panelled (header 2 0 0) [] (fun p => { p with due := [(0, 5)] }); s.Works ∧ (s.dev.plane 0).halted = false ∧ (s.dev.plane 0).state = .idle ∧ (s.dev.plane 0).due = [(0, 5)] ∧ (s.dev.plane 0).parked.any (fun u => u.idx == 0) = false ∧
      (panelAt s.here 0).committed 5 = false ∧ (panelAt s.here 0).committed 0 = true ∧ (panelAt s.here 0).role = 0 ∧ slotReady s.here (panelAt s.here 0) 5 = true) ∧
    (let u : Update := { idx := 0, step := 5, mirror := false, computed := true }
     let s := panelled (header 2 0 0) [5, 4] (fun p => { p with cur := some u, state := .computing })
     (s.dev.plane 0).cur = some u ∧ (s.dev.plane 0).state = .computing ∧ (s.dev.plane 0).asks = [] ∧ twinSent s.here 0 (panelAt s.here 0) = true ∧ (panelAt s.here 0).far = false ∧ (panelAt s.here 0).twinHdr = 0 ∧
      (slotAt s.here (panelAt s.here 0) ((panelAt s.here 0).slotOf 5)).step = 5 ∧
      (∀ st ∈ [PlaneState.committed, .publishing, .releasing], ((panelled (header 2 0 0) [5, 4] (fun p => { p with cur := some u, state := st })).dev.plane 0).state = st ∧
        ((panelled (header 2 0 0) [5, 4] (fun p => { p with cur := some u, state := st })).dev.plane 0).asks = [])) ∧
    (panelAt (panelled (header 2 0 0x9000) [] id).here 0).twinHdr = 0x9000 ∧ (panelAt (panelled (header 2 0 0x9000) [] id).here 0).untwinned = false ∧
    (panelAt (panelled (header 2 (2 ^ 52) 0x9000) [] id).here 0).untwinned = true ∧
    (let s := panelled (header 2 (2 ^ 51) 0) [0, 2] id; (tabFind s.dev.opt.panels 0).isSome = true ∧ (panelAt s.here 0).sealOn = true ∧ 0 < (panelAt s.here 0).slots ∧
      (slotAt s.here (panelAt s.here 0) 0).state = 2 ∧ (panelAt s.here 0).role = 0) ∧
    ((run.dev.modPlane 0 (fun p => { p with halted := true })).plane 0).halted = true ∧ run.dev.life.starting = false := by decide +kernel

/-- A part that has joined as node 0, with an open flow 0 to itself, a region its fabric may read, write and add in, and the factory tables. -/
def joinedState : State := { runC (fun c => { c with pt := ptFactoryTab }) with dev := { run.dev with
  fab := { run.dev.fab with joined := true, flows := [(0, { state := .opn })] }
  silkai := { run.dev.silkai with regions := [(0, { base := 0, len := 2 ^ 20, engine := true, fabRd := true, fabWr := true, fabAtom := true })] } } }

/-- A sound frame of flow 0 to a near address, with its check sequence. -/
def frameOf (opc : Nat) (f : Frame) : Frame :=
  let g := { f with opc := opc, len := f.payload.length }
  { g with opc := 0, icrc := frameIcrc g }

/-- Its checks on receipt, decided. -/
def meets (s : State) (port opc : Nat) (f : Frame) : Bool :=
  decide s.Works && (bufferFrame port f.prio f.queued s.here).isSome && s.dev.fab.joined && (f.srcNode == s.dev.fab.node.toNat || (s.dev.eth port).up) && f.sound && f.ver == 1 && f.resv == 0 && f.len == f.payload.length &&
    decide (f.len ≤ 4096) && decide (f.icrc = frameIcrc { f with opc := opc }) && nodeLive s.dev f.srcNode

theorem meets_arrives {s : State} {port opc : Nat} {f : Frame} (h : meets s port opc f = true) : Arrives s port opc f := by
  simpa [meets, Arrives, and_assoc] using h

def signalFrame : Frame := frameOf 0x08 { addr := 0x1005, aux := 7 }
def writeFrame : Frame := frameOf 0x01 { addr := 0x8000, payload := [1, 2, 3] }

theorem witness_FramesArePerformed :
    (SeqRow (.signal, 0x08) ∧ meets joinedState 63 0x08 signalFrame = true ∧ contextOk joinedState.dev signalFrame = true ∧
      (performFrame joinedState.ctl 0 { signalFrame with opc := 0x08 } (booked joinedState 63 signalFrame)).1 = .done ∧
      ((performFrame joinedState.ctl 0 { signalFrame with opc := 0x08 } (booked joinedState 63 signalFrame)).2.flow 0).fenced = []) ∧
    (SeqRow (.write, 0x01) ∧ meets joinedState 0 0x01 writeFrame = true ∧ contextOk joinedState.dev writeFrame = true ∧
      (performFrame joinedState.ctl 0 { writeFrame with opc := 0x01 } (booked joinedState 0 writeFrame)).1 = .done ∧
      ((performFrame joinedState.ctl 0 { writeFrame with opc := 0x01 } (booked joinedState 0 writeFrame)).2.flow 0).fenced = []) := by
  refine ⟨⟨by simp [SeqRow], by decide +kernel, by decide +kernel, by decide +kernel, by decide +kernel⟩,
    ⟨by simp [SeqRow], by decide +kernel, by decide +kernel, by decide +kernel, by decide +kernel⟩⟩

theorem witness_FramesOutOfOrder : (∀ n ∈ [(1 : Nat), 1023, 1024, 2 ^ 31 - 1, 2 ^ 31, 2 ^ 32 - 1], meets joinedState 0 0x01 (frameOf 0x01 { fence := true, psn := BitVec.ofNat 32 n, payload := [1] }) = true ∧
      contextOk joinedState.dev (frameOf 0x01 { fence := true, psn := BitVec.ofNat 32 n, payload := [1] }) = true ∧
      (((frameOf 0x01 { fence := true, psn := BitVec.ofNat 32 n, payload := [1] }).psn - (joinedState.dev.flow 0).rxCum).toNat) = n ∧
      fenced (frameOf 0x01 { fence := true, psn := BitVec.ofNat 32 n, payload := [1] }) = true) ∧
    (joinedState.dev.flow 0).received = [] ∧ (joinedState.dev.flow 0).fenced = [] := by decide +kernel

theorem witness_MemoryFramesAct : let c := joinedState.ctl
    let d := joinedState.dev.poke 0x8000 (List.replicate 64 0)
    (attrOk d { opc := 1, addr := 0x8000, payload := [1] } = true ∧ spanCheck c d (fun r => r.fabWr) 2 0x8000 1 = none ∧ rangeOf 0x8000 = .near ∧ d.spanMapped .fabric 0x8000 1 = true) ∧
    (attrOk d { opc := 2, addr := 0x8000, attr := 4096 } = true ∧ spanCheck c d (fun r => r.fabRd) 1 0x8000 4096 = none) ∧
    (attrOk d { opc := 5, addr := 0x8000, payload := [1, 0, 0, 0, 0, 0, 0, 0] } = true ∧ spanCheck c d (fun r => r.fabAtom) 3 0x8000 8 = none ∧ (readSpanBy true c d 0x8000 8).2.1 = false ∧
      (readSpanBy true c d 0x8000 8).2.2.spanMapped .fabric 0x8000 8 = true) ∧
    (attrOk d { opc := 6, addr := 0x8000, payload := List.replicate 16 0 } = true ∧
      (∀ l ∈ [(List.replicate 8 0 : List Byte), List.replicate 8 1], (readSpanBy true c d 0x8000 8).2.2.spanMapped .fabric 0x8000 l.length = true) ∧
      (readSpanBy true c d 0x8000 8).1 = List.replicate 8 0) ∧
    (attrOk d { opc := 4, addr := 0x8000, payload := [0, 0, 0, 0] } = true ∧ atomLen (.add 0) [0, 0, 0, 0] = 4 ∧ 0x8000 % atomDst 0 = 0 ∧
      spanCheck c d (fun r => r.fabAtom) 3 0x8000 4 = none ∧ (readSpanBy true c d 0x8000 4).2.1 = false ∧
      (readSpanBy true c d 0x8000 4).2.2.spanMapped .fabric 0x8000 (addElems 0 (readSpanBy true c d 0x8000 4).1 [0, 0, 0, 0]).length = true) ∧
    (attrOk d { opc := 1, addr := 0x8000, poison := true, payload := [1] } = true) ∧
    (attrOk d { opc := 6, addr := 0x8001, payload := List.replicate 16 0 } = true ∧ spanCheck c d (fun r => r.fabAtom) 3 0x8001 8 = none) ∧
    (attrOk d { opc := 4, addr := 0x7FFFFFFFC0, payload := [0, 0, 0, 0] } = true ∧ spanCheck c d (fun r => r.fabAtom) 3 0x7FFFFFFFC0 (atomLen (.add 0) [0, 0, 0, 0]) = some 1) ∧
    (∀ e ∈ [(0 : Nat), 1, 32767, 32768, 65535], attrOk d { opc := 8, addr := 0x4FFF, aux := 1, epoch := BitVec.ofNat 16 e } = true ∧ (BitVec.ofNat 16 e - d.life.epoch).toNat = e) ∧
    (d.jig 4).early.length < 64 ∧ attrOk d { opc := 0x3F } = true := by decide +kernel

/-- A WRITE with a tag that is off by `k`. -/
def tagged (bs : List Byte) (k : W32) : Frame := { opc := 1, addr := 0x8000, tag := true, payload := bs, aux := BitVec.ofNat 32 (crc32c bs) + k }

theorem tagged_meets (bs : List Byte) (hn : bs.length = 4096) : (∀ k, attrOk joinedState.dev (tagged bs k) = true) ∧
    spanCheck joinedState.ctl joinedState.dev (fun r => r.fabWr) 2 0x8000 bs.length = none ∧
    joinedState.dev.spanMapped .fabric 0x8000 bs.length = true ∧
    crc32c (tagged bs 0).payload = (tagged bs 0).aux.toNat ∧ crc32c (tagged bs 1).payload ≠ (tagged bs 1).aux.toNat := by
  have h := crc32c_lt bs
  refine ⟨fun k => ?_, by rw [hn]; decide +kernel, by rw [hn]; decide +kernel, ?_, ?_⟩
  · have : joinedState.dev.isNear 0x8000 4096 = true := by decide +kernel
    simp [attrOk, tagBlock, tagged, this, hn]
  · simp [tagged]; omega
  · simp [tagged]; omega

theorem witness_MemoryFramesAct_tag : ∃ bs : List Byte, (∀ k, attrOk joinedState.dev (tagged bs k) = true) ∧
    spanCheck joinedState.ctl joinedState.dev (fun r => r.fabWr) 2 0x8000 bs.length = none ∧
    joinedState.dev.spanMapped .fabric 0x8000 bs.length = true ∧
    crc32c (tagged bs 0).payload = (tagged bs 0).aux.toNat ∧ crc32c (tagged bs 1).payload ≠ (tagged bs 1).aux.toNat :=
  ⟨List.replicate 4096 0, tagged_meets _ List.length_replicate⟩

/-- The joined part with an owner's panel 0 of 1,024 parameters at table index 0. -/
def panelDev : Dev :=
  let d := (joinedState.dev.poke 0 ((header 2 0 0 ++ List.replicate 24 0).flatMap (natLE 8))).poke 0x1000 (List.replicate 64 0)
  { d with opt := { d.opt with panels := [(0, true)], panelIndex := [(0, 0)] } }

theorem witness_EngineFramesAct : (∀ o ∈ [0x03, 0x07, 0x11, 0x09, 0x0B, 0x0C, 0x20, 0x23, 0x24, 0x25, 0x26, 0x27, 0x28], attrOk joinedState.dev { opc := o } = true) ∧
    ownerPanel joinedState.dev 0 = none ∧ panelIdxAt joinedState.dev 0 = none ∧ (ownerPanel panelDev 0).isSome = true ∧
    (∀ p ∈ ownerPanel panelDev 0, 0 + [(0 : Byte), 0, 0, 0].length / atomSrc 0 ≤ p.nparam ∧
      (contribute joinedState.ctl p (nearestStep panelDev 0) 0 0 0 0 [0, 0, 0, 0] false false panelDev).1 = .applied) ∧
    attrOk panelDev { opc := 9, payload := [0, 0, 0, 0] } = true ∧ panelDev.opt.ordered = false ∧ (twinDoneArrive joinedState.ctl 0 0 panelDev).isSome = true ∧
    spanCheck joinedState.ctl joinedState.dev (fun r => r.fabRd) 1 (pullSource joinedState.dev 0) (1 * 4096) = none ∧
    spanCheck joinedState.ctl joinedState.dev (fun r => r.fabRd) 1 (pullSource joinedState.dev (2 ^ 20)) (1 * 4096) ≠ none := by decide +kernel

theorem attrOk_mirror (bs : List Byte) (h : bs.length = 4096) : attrOk joinedState.dev { opc := 0x0A, payload := bs } = true := by simp [attrOk, h]; decide
theorem attrOk_records (bs : List Byte) (h : bs.length = 1088) : attrOk joinedState.dev { opc := 0x21, payload := bs } = true ∧ attrOk joinedState.dev { opc := 0x22, payload := bs } = true := by
  simp [attrOk, h]; decide

/-- Frames of the sizes that MIRROR and the clamp's records have; a mirror's header takes the chunk. -/
theorem witness_EngineFramesAct_records : (∃ f : Frame, f.opc = 0x0A ∧ attrOk joinedState.dev f = true) ∧ (∃ f : Frame, f.opc = 0x21 ∧ attrOk joinedState.dev f = true) ∧
    (∃ f : Frame, f.opc = 0x22 ∧ attrOk joinedState.dev f = true) ∧
    (mirrorArrive joinedState.ctl 0 5 1 0 0 0 [] false (panelled (header 2 (2 ^ 36) 0) [] id).dev).1 = .applied :=
  ⟨⟨_, rfl, attrOk_mirror (List.replicate 4096 0) List.length_replicate⟩, ⟨_, rfl, (attrOk_records (List.replicate 1088 0) List.length_replicate).1⟩,
    ⟨_, rfl, (attrOk_records (List.replicate 1088 0) List.length_replicate).2⟩, by decide +kernel⟩

/-- Flow 1 to node 9, in one state; a port up. -/
def flowIn (st : FlowState) : State := { joinedState with dev := { joinedState.dev with
  fab := { joinedState.dev.fab with ports := [(0, { up := true })], flows := [(1, { state := st, peerNode := 9 })], nodes := [(9, { live := true })] } } }

theorem witness_UnsequencedFramesAct :
    (∀ o ∈ [0x10, 0x12], meets (flowIn .opn) 0 o (frameOf o { srcNode := 9, dstFlow := 1 }) = true ∧ contextOk (flowIn .opn).dev (frameOf o { srcNode := 9, dstFlow := 1 }) = true) ∧
    meets (flowIn .closed) 0 0x13 (frameOf 0x13 { srcNode := 9 }) = true ∧ meets (flowIn .opening) 0 0x14 (frameOf 0x14 { srcNode := 9, dstFlow := 1, addr := 0 }) = true ∧
    ((flowIn .opening).dev.flow 1).state = .opening ∧ ((flowIn .opening).dev.flow 1).peerNode = 9 ∧ ((flowIn .opening).dev.flow 1).peerFlow = bits 0 0 16 ∧ ((flowIn .opn).dev.eth 0).up = true ∧
    (let s : State := { flowIn .closed with dev := ((flowIn .closed).dev.modAux (fun x => { x with rawRx := 0x10000 })).poke 0x10000 (natLE 8 4 ++ natLE 8 3 ++ natLE 8 1) }
     s.Works ∧ (s.dev.eth 0).up = true ∧ s.dev.fab.joined = true ∧ s.dev.aux.rawRx = 0x10000 ∧ s.here.peek32 0x10000 = 4 ∧ (s.here.peek32 0x10008 + 1) % 4 ≠ s.here.peek32 0x10010 ∧
      (∀ q ∈ [(0 : Nat), 1, 0x200000], (bufferFrame 0 (rawPrio (List.replicate 60 0)) q s.here).isSome = true)) ∧
    rawSupported (List.replicate 60 0) = true ∧ rawSupported (List.replicate 59 0) = false := by decide +kernel

/-- R293, R295, R299, R306: of the spec's worked example, flow context 0x0107 and path 2 give UDP source port 53,362, and the frame of 4,096 bytes in
IPv6 takes 4,206 bytes; a full receive buffer of 2 MiB takes no more with PFC off, and more than three quarters of it sends XOFF with PFC on. -/
theorem test_packet : udpSource 0x107 2 = 53362 ∧
    (packetBytes { v6 := true, dscp := 0, tc := 0, flow := 0x107, ent := 2, srcIp := 0, dstIp := 0, udpDst := 47904, dstMac := 0, srcMac := 0 }
      { opc := 9, payload := List.replicate 4096 0 }).length = 4206 ∧
    (bufferFrame 0 3 0x200001 (flowIn .opn).here).isNone = true ∧
    (∀ q ∈ [((0x180000 : Nat), false), (0x180001, true)], ((bufferFrame 0 3 q.1 ((flowIn .opn).here.modEth 0 (fun x => { x with pfcEn := 8 }))).any
      (fun d => decide (d.out = [.pause 0 3 true]))) = q.2) := by decide +kernel

/-- R303, R305: the header of the worked example, byte for byte as the spec writes it: words 0 to 3 and 5 to 7. -/
theorem test_header : (rhavemoBytes 3 false { opc := 9, first := true, last := true, srcNode := 0x12, dstNode := 0x35, dstFlow := 0x107, epoch := 2, psn := 0x4A10, msgId := 0x21, len := 4096, addr := 0xC310004000, attr := 0x50001, aux := 0x4B0 }).take 32 =
    [0x10, 0x09, 0x03, 0x03, 0x00, 0x12, 0x00, 0x35, 0x01, 0x07, 0x00, 0x02, 0x00, 0x00, 0x4A, 0x10, 0x00, 0x21, 0x10, 0x00, 0x00, 0x00, 0x00, 0xC3, 0x10, 0x00, 0x40, 0x00, 0x00, 0x05, 0x00, 0x01] := by
  decide +kernel

/-- A frame sent at time 0 on port 0. -/
def sent (n : W32) : TxFrame := { frame := { psn := n }, sent := 0, retries := 0, port := 0, ent := 0, issuer := .none }

/-- Flow 1 to a watched node 9, open, with an acknowledgement held, one frame unacknowledged and one period's marks. -/
def flowBusy (ce : Nat) : State :=
  let fl : Flow := { state := .opn, peerNode := 9, ackPend := 1, unacked := [sent 5], ccDelay := some 300, ccCe := ce, ccRx := 1, rate := 4000 }
  { flowIn .opn with dev := { (flowIn .opn).dev with fab := { (flowIn .opn).dev.fab with nodes := [(9, { live := true, watched := true })], flows := [(1, fl)] } } }

theorem witness_FlowTimersAct : (flowBusy 0).Works ∧ ((flowBusy 0).dev.flow 1).state = .opn ∧ ((flowBusy 0).dev.flow 1).ackPend ≠ 0 ∧
    ((flowBusy 0).dev.flow 1).unacked.find? (fun x => x.frame.psn == 5) = some (sent 5) ∧ (5 : W32) ∉ ((flowBusy 0).dev.flow 1).rnrHeld ∧ ((flowBusy 0).dev.flow 1).ccDelay = some 300 ∧
    ((flowBusy 0).dev.flow 1).ccCe = 0 ∧ 300 - baseRtt (flowBusy 0).ctl.now ((flowBusy 0).dev.flow 1) ≤ (flowBusy 0).dev.fab.ccTarget.toNat ∧ 0 < ((flowBusy 1).dev.flow 1).ccCe ∧ 0 < ((flowBusy 1).dev.flow 1).ccRx ∧
    ((flowIn .opening).dev.flow 1).state = .opening ∧ (flowBusy 0).dev.fab.joined = true ∧
    (let s : State := { flowBusy 0 with dev := { (flowBusy 0).dev with fab := { (flowBusy 0).dev.fab with flows := [] } } }
     s.Works ∧ (s.dev.node 9).watched = true ∧ (s.dev.node 9).lost = false ∧ s.dev.fab.flows = []) := by decide +kernel

/-- The part with port 0 in one state. -/
def portIn (p : EthPort) : State := runD (fun d => { d with fab := { d.fab with cfgWidth := 8, ports := [(0, p)], joined := true } })

theorem witness_LinkEventsAct : (let s := portIn { up := true, width := 1, lanes := 1 }; s.Works ∧ cfgWidthOf s.here = 8 ∧ bitAt s.dev.fab.laneFail.toNat 0 = false ∧ bitAt (s.dev.eth 0).lanes.toNat 0 = true ∧
      bitAt s.dev.fab.laneFail.toNat 1 = false ∧ bitAt (s.dev.eth 0).lanes.toNat 1 = false ∧ (s.dev.eth 0).dead = false) ∧
    (let s := portIn { retraining := true, lanes := 3 }; (s.dev.eth 0).retraining = true ∧ (s.dev.eth 0).dead = false ∧ (s.dev.eth 0).width ≤ popcount (s.dev.eth 0).lanes.toNat 64) ∧
    (let s : State := { portIn { lanes := 3 } with ctl := { run.ctl with clk := { run.ctl.clk with ethRefclkOk := true } } }; s.Works ∧ s.ctl.boot.ready = true ∧ s.ctl.clk.ethRefclkOk = true ∧ (s.dev.eth 0).up = false ∧ (s.dev.eth 0).dead = false ∧ (s.dev.eth 0).retraining = false ∧
      (s.dev.eth 0).lanes ≠ 0) ∧
    (let s : State := { portIn {} with dev := ((portIn {}).dev.modAux (fun x => { x with rawTx := 0x10000 })).poke 0x10000 (natLE 8 4) }
     s.dev.fab.joined = true ∧ s.dev.aux.rawTx = 0x10000 ∧ s.here.peek32 0x10000 = 4) := by decide +kernel

/-- Window entry 0: valid, with every permission, flow 1 of node 9. -/
def windowed : State := { flowIn .opn with dev := { (flowIn .opn).dev with fab := { (flowIn .opn).dev.fab with win := [(0, (BitVec.ofNat 64 (15 + 9 * 2 ^ 16 + 2 ^ 32), 0))] } } }

theorem witness_WindowAccessesGoOut : windowed.Works ∧ rangeOf 0x100000000000 = .fabric ∧ windowed.here.mapped (portAsker 0) 0x100000000000 = true ∧
    (∀ ty ∈ [1, 2, 3], ptPermits windowed.ctl (portAsker 0) ty 0x100000000000 8 = true ∧ (translate windowed.here ty 0x100000000000 8).isSome = true) ∧
    translate windowed.here 2 0x100100000000 8 = none ∧ ptPermits windowed.ctl (portAsker 0) 2 0x100100000000 8 = true := by decide +kernel

/-- An operation with these descriptor words, in a group 1 of these members with flow 1 to each. -/
def collOp (ws : List Nat) : CollOp := { seq := 0, desc := 0x100, tag := none, words := ws, step := 0 }
def collWith (members : List Nat) (o : CollOp) : State :=
  let d := (flowIn .opn).dev.poke 0x8000 (natLE 8 0 ++ List.replicate 120 0)
  let g : Group := { members := members, flows := members.map (fun _ => 1), fanout := 2, clamp := false, watch := false, mbMask := [] }
  { flowIn .opn with dev := { d with coll := { d.coll with groups := [(1, g)], ops := [o] } } }

/-- Word 0 of a descriptor in group 1, and spans in the registered region. -/
def collWords (op group dst len aux auxLen : Nat) : List Nat := [op + group * 2 ^ 16, if op = 6 ∨ op = 7 ∨ op = 8 then 0 else 0x1000, dst, len, aux, auxLen, 0, 0]

theorem witness_CollectivesStart : (collWith [0, 9] (collOp (collWords 2 1 0x2000 16 0 0))).Works ∧
    (∀ ms ∈ [[0], [0, 9]], ∀ ws ∈ [collWords 2 1 0x2000 16 0 0, collWords 3 1 0x2000 16 0 0, collWords 4 1 0x2000 16 0 0, collWords 5 1 0x2000 16 0 0, collWords 6 1 0 0 0 0,
      collWords 7 1 0x2000 0 0x3000 4, collWords 8 1 0 0 0x8000 0, collWords 1 0 0 1024 0x8000 0],
      nextColl (collWith ms (collOp ws)).here (collDescOf ws).op = some (collOp ws)) ∧
    (tabFind (beginOp (collOp (collWords 5 1 0x2000 16 0 0)) (collWith [0, 9] (collOp (collWords 5 1 0x2000 16 0 0))).here).2.coll.groups 1).isSome = true ∧
    (∀ g ∈ tabFind (beginOp (collOp (collWords 5 1 0x2000 16 0 0)) (collWith [9, 0] (collOp (collWords 5 1 0x2000 16 0 0))).here).2.coll.groups 1,
      myRank (collWith [9, 0] (collOp (collWords 5 1 0x2000 16 0 0))).here g ≠ (collDescOf (collWords 5 1 0x2000 16 0 0)).root) ∧
    nextColl (collWith [9, 0] (collOp (collWords 5 1 0x2000 16 0 0))).here 5 = some (collOp (collWords 5 1 0x2000 16 0 0)) ∧
    (∀ g ∈ tabFind (beginOp (collOp (collWords 5 1 0x2000 16 0 0)) (collWith [0, 9] (collOp (collWords 5 1 0x2000 16 0 0))).here).2.coll.groups 1,
      myRank (collWith [0, 9] (collOp (collWords 5 1 0x2000 16 0 0))).here g = (collDescOf (collWords 5 1 0x2000 16 0 0)).root) ∧
    (collWith [0] (collOp (collWords 7 1 0x2000 0 0x3000 4))).dev.coll.heldResult = none := by decide +kernel

/-- A clamp run of group 1 in the backward phase. -/
def clamping (members : List Nat) (r : ClampRun) : State :=
  let s := collWith members (collOp (collWords 7 1 0x2000 0 0x3000 4))
  { s with dev := { s.dev with coll := { s.dev.coll with clamp := some r, ops := [] }, life := { s.dev.life with state := .backward } } }


theorem witness_CollectiveEventsAct :
    (let o : CollOp := { collOp (collWords 6 1 0 0 0 0) with started := true, finished := true }; let s := collWith [0] o; s.Works ∧ opAt s.here o.seq = some o ∧ completing s.here o = some 0 ∧ o.own = false) ∧
    (let o : CollOp := { collOp (collWords 6 1 0 0 0 0) with started := true }; let s := collWith [0, 9] o; opAt s.here o.seq = some o ∧ o.started = true ∧ o.finished = false ∧
      (collDescOf o.words).op ≠ 1 ∧ (collDescOf o.words).op ≠ 7) ∧
    (∀ bad ∈ [true, false], let o : CollOp := { collOp (collWords 8 1 0 0 0x8000 0) with started := true, released := true, failed := bad }
      (collWith [0, 9] o).dev.coll.ops.find? (fun o => o.started && o.released && !o.finished && (collDescOf o.words).op == 8) = some o) ∧
    (let r : ClampRun := { step := 0, group := 1, op := some 0 }; let s := clamping [0, 9] r
     s.dev.life.held = none ∧ s.dev.life.state = .backward ∧ s.dev.coll.clamp = some r ∧ r.op.isSome = true ∧ r.ready = false ∧ backwardDone s.here = true ∧ openGrads s.here = [] ∧ slotsFull s.here = true) ∧
    (let r : ClampRun := { step := 0, group := 1, ready := true }; let s := clamping [0, 9] r
     s.dev.coll.clamp = some r ∧ (∀ g ∈ tabFind s.dev.coll.groups r.group, missingKids s.here g r ≠ []) ∧ (tabFind s.dev.coll.groups r.group).isSome = true ∧ r.ready = true ∧
      r.sent = false ∧ r.done = false) ∧
    (let r : ClampRun := { step := 0, group := 1, ready := true, sent := true }; let s := clamping [9, 0] r; (awaiting s.here).isSome = true ∧ r.queried = 0) := by decide +kernel

/-- The part with the factory tables, firmware up, and port 0 of the host. -/
def mapped : State := { runC (fun c => { c with pt := ptFactoryTab }) with dev := (run.dev.modCxl 0 (fun p => { p with role := 1, up := true })).modHost (fun h => { h with st := .up }) }

theorem witness_UncachedRequestsRun : (∀ l ∈ [0, 1, 2 ^ 25 - 1], Quiet (mapped.dev.home (homeOfLine l)) ∧ Dev.dirFind (mapped.dev.home (homeOfLine l)) l = none ∧
      (Dev.setWays (mapped.dev.home (homeOfLine l)) l).any (fun w => w.2.isNone) = true ∧
      (∀ k ∈ [ReqKind.rdShared, .rdOwn, .upgrade], Admitted mapped { port := 0, kind := k, line := l })) := by decide +kernel

theorem witness_UncachedRequestsRun_rest : Admitted mapped { port := 9, kind := .rdCur, line := 1 } ∧ Admitted mapped { port := 8, kind := .rdCur, line := 1 } ∧
    Admitted mapped { port := 9, kind := .atomic, line := 1, off := 8, data := [1, 0, 0, 0, 0, 0, 0, 0], op := .fetchAdd } ∧ rangeOf (1 * 64) = .near ∧
    Admitted mapped { port := 9, kind := .wrFull, line := 1, data := List.replicate 64 5 } ∧ Admitted mapped { port := 9, kind := .wrPart, line := 1, off := 63, data := [5] } := by decide +kernel

/-- A home 0 that holds one transaction of line 0. -/
def opened (x : Txn) (f : Home → Home) : State := { mapped with dev := (mapped.dev.poke 0 (List.replicate 64 0)).modHome 0 (fun m => f { m with txns := [x] }) }

theorem witness_HomeEventsAct :
    (let x : Txn := { req := { port := 0, kind := .rdCur, line := 0 }, st := .tMem }; let s := opened x id
     s.Works ∧ (s.dev.home 0).txns.find? (fun t => t.req.line == 0 && t.st == .tMem) = some x ∧ rangeOf (0 * 64) ≠ .unified ∧ readHeld s.here 0 = false ∧
       (memoryData s.ctl 0 0 x (bcCheck s.ctl 0 0 (copyOnRead 0 s.here))).2.fc.entering = false) ∧
    (let x : Txn := { req := { port := 3, kind := .rdShared, line := 0 }, st := .tAck }; let s := opened x id
     homeOfLine 0 = 0 ∧ (s.dev.home (homeOfLine 0)).txns.find? (fun t => t.req.line == 0 && t.st == .tAck && t.req.port == 3) = some x) ∧
    (∀ a ∈ [0, 8], let x : Txn := { req := { port := 9, kind := .rdCur, line := 0 }, st := .tSnp, waiting := [a] }; let s := opened x id
     (s.dev.home (homeOfLine 0)).txns.find? (fun t => t.req.line == 0 && t.waiting.contains a) = some x ∧ x ∈ (s.dev.home (homeOfLine 0)).txns ∧ a ∈ x.waiting) ∧
    Quiet (mapped.dev.home 0) ∧
    (let s : State := { mapped with dev := (mapped.dev.modHome 0 (fun m => { m with dir := [(0, { line := 0, st := .ds, sharers := 0x100 })] })) }
     Quiet (s.dev.home (homeOfLine 0)) ∧ (Dev.dirFind (s.dev.home (homeOfLine 0)) 0).isSome = true ∧ (∀ p ∈ Dev.dirFind (s.dev.home (homeOfLine 0)) 0, p.2.st = .ds)) := by decide +kernel

/-- Cluster 7 holds line 1 in one state. -/
def cached (st : LineState) : State := { mapped with dev := mapped.dev.setLine 7 1 { st := st } }

theorem witness_CacheEventsAct : mapped.Works ∧ coherent (0x7F / 64 * 64) = true ∧ coreMay mapped.ctl mapped.here 1 0x7F = true ∧ coreMay mapped.ctl mapped.here 2 0x7F = true ∧ hostLine 1 = false ∧
    (mapped.dev.cacheLine 7 1).st = .inv ∧ (∀ st ∈ [LineState.shr, .exc, .own, .mod, .wbP, .isP, .imP], ((cached st).dev.cacheLine 7 1).st = st) ∧
    (let x : CacheLine := { st := .isP, backoff := true }; x.backoff = true ∧ pendingKind x.st = some .rdShared) := by decide +kernel

theorem witness_HostEventsAct :
    (let s := runD (fun d => (d.modCxl 0 (fun p => { p with role := 1, up := true })).modHost (fun h => { h with st := .up })); s.Works ∧ hostUp s.dev = true ∧ s.dev.host.filter = []) ∧
    (let s : State := { mapped with dev := (mapped.dev.modCxl 0 (fun p => { p with role := 1, up := true })).poke 0x1000 (List.replicate 64 0) }
     s.Works ∧ (s.dev.cxl 0).role = 1 ∧ s.here.spanMapped .hostCls 0x1000 64 = true ∧ ptPermits s.ctl .hostCls 1 0x1000 64 = true ∧ s.dev.host.ahead = [] ∧
       (∀ l ∈ Memory.linesOf 0x1000 64, (s.here.backing l).poison = false)) ∧
    (let x : HostAcc := { write := true, addr := 0, len := 64, data := [], port := 9, bench := none }; let s := runD (fun d => d.modHost (fun h => { h with flight := [x] }))
     s.Works ∧ s.dev.host.flight.find? (fun y => y.write == true) = some x) ∧
    run.ctl.boot.ready = true ∧ ((runC (fun c => { c with boot := { stage := 8, ready := false } })).ctl.boot.ready = false) := by decide +kernel

/-- Mailboxes 0 and 15 idle; mailbox 15 of Puwell's class, 0 of the host's. -/
def idleMbx (f : Dev → Dev) : State :=
  let s := runC (fun c => { c with cfg := { c.cfg with mbxAccess := 1 } })
  { s with dev := f (s.dev.modSilkai (fun m => { m with mbx := [(15, { st := .idle })] })) }

theorem witness_MailboxEventsAct : let s := idleMbx id
    s.Live ∧ arrives s.dev 0 = true ∧ mbxOwner s.ctl 15 0 = true ∧ inHand (s.dev.mbx 15) = false ∧ (s.dev.mbx 15).st ≠ .notReady ∧ (s.dev.mbx 15).goPending = false ∧
    (let t := idleMbx (fun d => d.modMbx 15 (fun m => { m with st := .busy, waiting := some (.flowClose 0), goPending := true }))
     inHand (t.dev.mbx 15) = true ∧ (t.dev.mbx 15).goPending = true ∧ (List.range 32).any (waitingAt t.dev) = true ∧ (waitEnds (.flowClose 0) t.here).isSome = true) ∧
    (let t := idleMbx (fun d => (d.modMbx 15 (fun m => { m with st := .busy, waiting := some (.flowClose 0) })).modMbx 3 (fun m => { m with st := .pending }))
     (List.range 32).any (waitingAt t.dev) = true ∧ (t.dev.mbx 15).goPending = false) ∧
    firmwareRuns s.ctl s.dev = true ∧ (∀ i ∈ List.range 32, waitingAt (idleMbx (fun d => d.modMbx 15 (fun m => { m with st := .pending }))).dev i = decide (i = 2 * 15)) ∧
    ((idleMbx (fun d => (d.modMbx 15 (fun m => { m with st := .busy, waiting := some (.flowClose 0) })).modFlow 0 (fun x => { x with state := .draining }))).dev.flow 0).state ≠ .closed := by decide +kernel

/-- Opcode, code of byte 0 and payload length of the rows. -/
def ndShapes : List (Nat × Nat × Nat) :=
  [(0x0001, 3, 8), (0x0002, 4, 8), (0x0100, 0, 16), (0x0101, 0, 16), (0x0102, 0, 8), (0x0103, 1, 24), (0x0200, 0, 16), (0x0201, 0, 8), (0x0202, 0, 4), (0x0300, 0, 88), (0x0300, 1, 24),
   (0x0301, 0, 48), (0x0301, 1, 48), (0x0400, 0, 16), (0x0401, 0, 0), (0x0402, 0, 16), (0x0403, 0, 8), (0x0404, 1, 32), (0x0405, 2, 40), (0x0500, 0, 24), (0x0501, 0, 16), (0x0502, 0, 24),
   (0x0600, 1, 16), (0x0601, 2, 16), (0x0602, 3, 8), (0x0700, 0, 8), (0x0701, 1, 24), (0x0702, 2, 16)]

theorem witness_NdCommandsRun : (∀ x ∈ ndShapes, Takes (idleMbx id) 15 x.1 (payloadOf x.2.2 [(0, 1, x.2.1)])) ∧
    notAccepted 0x0402 (payloadOf 16 []) (taken (idleMbx id) 15 0x0402 (payloadOf 16 [])) = some 6 ∧
    notAccepted 0x0700 (payloadOf 8 []) (taken (idleMbx id) 15 0x0700 (payloadOf 8 [])) = none ∧ hostGone 0x0700 (payloadOf 8 []) (taken (idleMbx id) 15 0x0700 (payloadOf 8 [])) = false ∧
    (let bs := payloadOf 16 [(0, 8, 0x3E0000000000), (8, 4, 64)]
     notAccepted 0x0501 bs (taken (idleMbx id) 15 0x0501 bs) = none ∧ hostGone 0x0501 bs (taken (idleMbx id) 15 0x0501 bs) = true) := by decide +kernel

/-- Some free number and some place exist where nothing is taken, whatever the firmware chooses. -/
theorem findFree_any (free lo n : Nat) (used : Nat → Bool) (hn : 0 < n) (h : ∀ i, used i = false) : ∃ x, findFree free lo n used = some x := by
  obtain ⟨m, rfl⟩ : ∃ m, n = m + 1 := ⟨n - 1, by omega⟩
  simp [findFree, List.range_succ_eq_map, h]
theorem findPlace_any (free : Nat) : ∃ x, findPlace free 0 0x7FE0000000 4096 4096 [] = some x := by
  unfold findPlace; simp only []; split
  · exact ⟨_, rfl⟩
  · exact ⟨0, by decide +kernel⟩

theorem witness_NdSetupCommandsAct_alloc : let s := idleMbx id
    let p := payloadOf 16 [(0, 8, 4096), (10, 1, 12)]
    let b := payloadOf 24 [(1, 1, 15), (8, 8, 0x10000), (16, 8, 0x1000)]
    Takes s 15 0x0101 p ∧ leAt p 0 8 ≠ 0 ∧ leAt p 8 1 = 0 ∧ leAt p 9 1 = 0 ∧ leAt p 10 1 ≤ 30 ∧ s.dev.far.unified = false ∧ (∃ h, freeHandle s.dev = some h) ∧
    (∃ a, findPlace s.dev.free 0 0x7FE0000000 (2 ^ max 12 (leAt p 10 1)) (roundUp (leAt p 0 8) 4096) (nearTaken s.dev) = some a) ∧
    Takes s 15 0x0103 b ∧ leAt b 1 1 < 16 ∧ leAt b 16 8 ≠ 0 ∧ registrable s.dev (leAt b 8 8) (leAt b 16 8) = true ∧
    (∃ i, findFree s.dev.free 0 4096 (fun i => (tabFind s.dev.silkai.regions i).isSome) = some i) := by
  refine ⟨by decide +kernel, by decide, by decide, by decide, by decide, by decide, findFree_any _ _ _ _ (by decide) (fun _ => rfl), ?_, by decide +kernel, by decide, by decide, by decide +kernel,
    findFree_any _ _ _ _ (by decide) (fun _ => rfl)⟩
  exact findPlace_any _

/-- Region 3, allocation 1 of near memory, flow 7 FAILED. -/
def ndGiven : State :=
  let r : Region := { base := 0x40000, len := 64, engine := true, fabRd := false, fabWr := false, fabAtom := false }
  idleMbx (fun d => (d.modSilkai (fun m => { m with regions := [(3, r)], allocs := [(1, { tier := 0, addr := 0x10000, size := 4096, extent := 4096 })] })).modFlow 7 (fun x =>
    { x with state := .failed }))

theorem witness_NdSetupCommandsAct_tiers : let s := ndGiven
    (let p := payloadOf 8 [(0, 1, 3), (1, 1, 2)]; Takes s 15 1 p ∧ leAt p 0 1 = 3 ∧ leAt p 1 1 ≤ 2) ∧
    (let t := idleMbx id; let p := payloadOf 16 [(0, 1, 1), (1, 1, 3), (4, 2, 7)]; Takes t 15 0x0100 p ∧ t.dev.silkai.allocs = [] ∧ t.dev.life.loaded = false ∧ leAt p 0 1 < 2 ∧ leAt p 1 1 ≤ 3) ∧
    (let p := payloadOf 8 [(0, 4, 1)]; Takes s 15 0x0102 p ∧ (tabFind s.dev.silkai.allocs (leAt p 0 4)).isSome = true ∧ (∀ a ∈ tabFind s.dev.silkai.allocs (leAt p 0 4), a.tier ≠ 1 ∧ a.addr < 0x200000000000 ∧
      (s.dev.silkai.regions.all (fun r => !overlaps a.addr a.extent r.2.base r.2.len)) = true)) ∧
    (let b := withByte 0 1 (payloadOf 24 [(4, 4, 3)]); Takes s 15 0x0103 b ∧ leAt b 1 1 < 16 ∧ (tabFind s.dev.silkai.regions (leAt b 4 4)).isSome = true) ∧
    (let t := idleMbx id; Takes t 15 0x0401 [] ∧ t.dev.life.loaded = false ∧ t.dev.fab.flows = []) ∧
    (let p := payloadOf 8 [(0, 2, 7)]; Takes s 15 0x0403 p ∧ (s.dev.flow (leAt p 0 2)).state = .failed) := by
  refine ⟨by decide +kernel, by decide +kernel, by decide +kernel, by decide +kernel, by decide +kernel, by decide +kernel⟩

theorem witness_NdSetupCommandsAct_faults : let s := ndGiven
    (let b := withByte 0 1 (payloadOf 16 [(4, 1, 1), (5, 1, 3), (8, 4, 10000)]); Takes s 15 0x0600 b ∧ s.ctl.cfg.faultCfgLock = false ∧ leAt b 4 1 = 1 ∧ leAt b 5 1 ≤ 3 ∧ 20 ≤ leAt b 8 4 ∧ leAt b 8 4 ≤ 10000) ∧
    (let b := withByte 0 0 (payloadOf 16 [(2, 2, 21), (4, 1, 3)]); Takes s 15 0x0600 b ∧ leAt b 2 2 < 480 ∧ (s.dev.fc.src (leAt b 2 2)).lock = false ∧ sevFixed (leAt b 2 2) = false ∧ leAt b 4 1 ≤ 3 ∧ leAt b 5 1 = 0) ∧
    (∀ q ∈ [0, 1, 2], let b := withByte 0 q (payloadOf 16 [(8, 4, 16)]); Takes s 15 0x0601 b ∧ leAt b 12 1 = 0 ∧ leAt b 8 4 ≤ 4064 / (logEntries q s.dev).1) ∧
    (∀ q ∈ [1, 2, 3], let b := withByte 0 q (payloadOf 8 [(4, 4, 63)]); Takes s 15 0x0602 b ∧ leAt b 4 4 < 64 ∧ (s.dev.pc (leAt b 4 4)).st = .active ∧ s.dev.near.pcs.any (fun p => pcStaged p.2) = false ∧
      bitAt s.dev.fab.laneFail.toNat (leAt b 4 4) = false) := by
  refine ⟨by decide +kernel, by decide +kernel, by decide +kernel, by decide +kernel⟩

theorem witness_NdSetupCommandsAct_rest : let s := ndGiven
    (∀ w ∈ [400, 1600], let p := payloadOf 8 [(0, 4, w)]; Takes s 15 0x0700 p ∧ 400 ≤ leAt p 0 4 ∧ leAt p 0 4 ≤ 1600 ∧ leAt p 4 4 = 0) ∧
    (let b := withByte 0 1 (payloadOf 16 [(4, 4, 1000000)]); Takes s 15 0x0702 b ∧ 100 ≤ leAt b 4 4 ∧ leAt b 4 4 ≤ 1000000) ∧
    Takes s 15 0x0702 (withByte 0 2 (payloadOf 16 [])) ∧
    (let t : State := { idleMbx id with dev := (idleMbx id).dev.modColl (fun m => { m with groups := [(5, { members := [0], flows := [0], fanout := 2, clamp := false, watch := false, mbMask := [] })] }) }
     let t2 : State := { t with dev := t.dev.modFab (fun f => { f with joined := true }) }
     let b := withByte 0 1 (payloadOf 32 [(2, 2, 5)])
     Takes t2 15 0x0404 b ∧ t2.dev.fab.joined = true ∧ leAt b 4 4 = 0 ∧ leAt b 9 1 < 4 ∧ (tabFind t2.dev.coll.groups (leAt b 2 2)).isSome = true ∧ t2.dev.life.loaded = false) := by
  refine ⟨by decide +kernel, by decide +kernel, by decide +kernel, by decide +kernel⟩

/-- Lines of a load block of one queue at 0x1000 (jig 4, queue 0, one record at 0x2040), of a stream entry at 0x2000 that waits for its counter, and
of an END record, held by cluster 0. -/
def loadLines : List (Nat × List Byte) :=
  [(0x40, payloadOf 64 [(0, 2, 1), (2, 1, 1), (4, 4, 1), (8, 8, 0x4000), (16, 8, 0x4000), (24, 8, 0x4000), (32, 8, 0x4000), (40, 8, 0x2000), (48, 8, 0x2000), (56, 8, 0x2000)]),
   (0x41, payloadOf 64 [(0, 8, 0x2000), (8, 4, 1), (12, 4, 1), (16, 8, 0x3000)])] ++ (List.range 16).map (fun i => (0x42 + i, List.replicate 64 0)) ++
  [(0x52, payloadOf 64 [(0, 8, 4 + 2 ^ 16), (8, 8, 0x2040)]), (0x80, payloadOf 64 [(0, 4, 2 ^ 18)]), (0x81, payloadOf 64 [(0, 1, 12)])]

def loadable : State := idleMbx (fun d =>
  let e : Dev := { d with silkai := { d.silkai with regions := [(0, { base := 0, len := 2 ^ 20, engine := true, fabRd := false, fabWr := false, fabAtom := false })] } }
  loadLines.foldl (fun x p => x.setLine 0 p.1 { st := .mod, data := { bytes := p.2 } }) e)

theorem witness_NdJobCommandsAct_load : let p := payloadOf 16 [(0, 8, 0x1000), (8, 4, 1168)]
    Takes loadable 15 0x0200 p ∧ loadable.dev.life.loaded = false ∧ leAt p 8 4 ≠ 0 ∧ loadCheck (taken loadable 15 0x0200 p) (leAt p 0 8) (leAt p 8 4) = none := by
  refine ⟨by decide +kernel, by decide +kernel, by decide +kernel, by decide +kernel⟩

theorem witness_NdJobCommandsAct_program :
    (let s := idleMbx (fun d => { d with life := { d.life with loaded := true } }); let p := payloadOf 8 [(0, 8, 7)]; Takes s 15 0x0201 p ∧ s.dev.life.loaded = true ∧ s.dev.life.starting = false ∧
      s.dev.life.state = .idle ∧ s.dev.life.reload = false ∧ s.dev.life.nextStep = none ∧ s.dev.planes = [] ∧ Takes s 15 0x0202 (payloadOf 4 [(0, 1, 1)]) ∧ leAt (payloadOf 4 [(0, 1, 1)]) 0 4 < 2) ∧
    (let s := idleMbx (fun d => { d with life := { d.life with loaded := true, state := .forward } }); Takes s 15 0x0202 (payloadOf 4 []) ∧ s.dev.life.loaded = true ∧ s.dev.life.state = .forward) := by
  refine ⟨by decide +kernel, by decide +kernel⟩

theorem witness_NdJobCommandsAct_flow : let s := idleMbx (fun d => d.modFab (fun f => { f with joined := true, nodes := [(9, { live := true })] }))
    let p := payloadOf 16 [(0, 2, 1), (2, 2, 9), (6, 1, 15), (7, 1, 7)]
    Takes s 15 0x0402 p ∧ s.dev.fab.joined = true ∧ leAt p 6 1 ≤ 15 ∧ leAt p 7 1 ≤ 7 ∧ (s.dev.node (leAt p 2 2)).live = true ∧ (s.dev.node (leAt p 2 2)).lost = false ∧
    (s.dev.flow (leAt p 0 2)).state = .closed := by decide +kernel

theorem witness_NdJobCommandsAct_panels : let s := idleMbx (fun d => { d with silkai := { d.silkai with panelTable := true, regions := [(0, { base := 0, len := 2 ^ 20, engine := true, fabRd := false, fabWr := false, fabAtom := false })] } })
    (let b := withByte 0 0 (payloadOf 88 [(8, 8, 0x10000), (16, 4, 16)]); Takes s 15 0x0300 b ∧ s.dev.life.loaded = false ∧ leAt b 8 8 % 256 = 0 ∧ 1 ≤ leAt b 16 4 ∧ leAt b 16 4 ≤ 65536 ∧
      s.dev.engineSpan (leAt b 8 8) (256 * leAt b 16 4) = true ∧ s.dev.isNear (leAt b 8 8) (256 * leAt b 16 4) = true) ∧
    (let t : State := { s with dev := s.dev.modAux (fun x => { x with oraLen := 0x8000000 }) }
     let b := withByte 0 1 (payloadOf 24 []); Takes t 15 0x0300 b ∧ t.dev.silkai.panelTable = true ∧ leAt b 4 4 = 0 ∧ leAt b 16 4 ≤ (t.dev.plane 0).panelCount.toNat ∧
      ((panels t.dev).map areaOf).sum ≤ t.dev.aux.oraLen - 0x8000000) ∧
    (let b := withByte 0 0 (payloadOf 48 [(1, 1, 1), (2, 2, 8192), (4, 2, 8192), (8, 1, 4), (24, 8, 5)]); Takes s 15 0x0301 b ∧ (leAt b 1 1 = 0 ∨ leAt b 1 1 = 1) ∧
      signedByte (leAt b 7 1) ≤ signedByte (leAt b 6 1) ∧ signedByte (leAt b 6 1) ≤ signedByte (leAt b 8 1) ∧ leAt b 4 2 ≤ leAt b 2 2 ∧ 0 < leAt b 2 2 ∧ leAt b 2 2 ≤ 8192 ∧ leAt b 16 8 = 0 ∧
      s.dev.coll.groups = []) ∧
    (let b := withByte 0 1 (payloadOf 48 [(1, 1, 15), (2, 1, 2)]); Takes s 15 0x0301 b ∧ leAt b 1 1 < 16 ∧ leAt b 2 1 < 3 ∧ leAt b 3 1 = 0 ∧ tabGet [] s.dev.opt.sets (leAt b 1 1) = [] ∧
      s.dev.life.started = false ∧ s.dev.planes = []) := by
  refine ⟨by decide +kernel, by decide +kernel, by decide +kernel, by decide +kernel⟩

theorem witness_NdJobCommandsAct_rest :
    (let s0 := idleMbx (fun d => { d with active := List.replicate 4 0x0FFFFFFFF }); let s : State := { s0 with ctl := { s0.ctl with fuses := { s0.ctl.fuses with spare := [32, 32, 32, 32] } } }
     let b := withByte 0 0 (payloadOf 8 [(4, 4, 130)]); Takes s 15 0x0602 b ∧ leAt b 4 4 = 130 ∧ bitAt (s.dev.active.getD (130 / 33) 0).toNat (130 % 33) = true ∧ benchRetired s.dev 130 = false ∧
      s.dev.active.length = 4 ∧ spareUnused s.ctl s.dev (130 / 33) = true ∧ 130 % 33 ≠ s.ctl.fuses.spare.getD (130 / 33) 32 ∧ s.ctl.fuses.spare.getD (130 / 33) 32 < 33 ∧ s.dev.life.loaded = false) ∧
    (Takes (idleMbx id) 15 0x0500 (withByte 20 0 (payloadOf 24 [])) ∧ snapBusy (idleMbx id).dev = false) ∧
    (∀ q ∈ [0, 1], let b := withByte 0 q (payloadOf 24 [(8, 8, 0x1000), (16, 4, 64)]); Takes loadable 15 0x0701 b ∧ loadable.ctl.cfg.fwUpdateLock = false ∧ leAt b 16 4 ≠ 0 ∧
      rangeOf (leAt b 8 8) ≠ .host ∧ leAt b 16 4 ≤ 65536 ∧ loadable.dev.engineSpan (leAt b 8 8) (leAt b 16 4) = true ∧ loadable.dev.peekPoison (leAt b 8 8) (leAt b 16 4) = false) := by
  refine ⟨by decide +kernel, by decide +kernel, by decide +kernel⟩

theorem witness_RegistersTakeWrites : (∀ p ∈ [0, 7, 9, 15], arrives mapped.dev p = true) ∧ ptPermits mapped.ctl .puwell 2 0x3F0002000040 4 = true ∧ isCsr 0x3F0002000040 = true ∧
    (regAt run.ctl run.here 15 0x3F0100004018).isSome = true ∧ (∀ r ∈ regAt run.ctl run.here 15 0x3F0100004018, r.width = 64) ∧
    (∃ a ∈ [0x3F0000020000, 0x3F0004000010, 0x3F0002000000], (regAt run.ctl run.here 15 a).any (fun r => r.width == 32) = true) ∧ regAt run.ctl run.here 15 0x3F000FFFFFF8 = none ∧
    run.dev.benchActive 0 = true ∧ bits 1023 0 12 < ctrCount 0 ∧ run.dev.fc.entering = false ∧ bits 4095 0 12 < 4096 := by decide +kernel

theorem witness_SafeStateStopsTheBlocks : StoppedWhenSafe (.planeCommit 7) ∧ (runD (fun d => d.modFc (fun f => { f with entering := true }))).dev.fc.entering = true := by
  exact ⟨trivial, by decide⟩

theorem witness_PairWritesAreDecidedBitByBit : run.Works ∧ run.dev.benchActive 131 = false ∧ run.dev.benchActive 130 = true ∧
    (let s := runD (fun d => d.modBench 130 (fun b => { b with owner := [(0, 7), (1, 7), (2, 0)] }))
     s.Works ∧ s.dev.benchActive 130 = true ∧ tabGet 0 (s.dev.bench 130).owner 0 = 7 ∧ tabGet 0 (s.dev.bench 130).owner 1 = 7 ∧ tabGet 0 (s.dev.bench 130).owner 2 = 0 ∧ bitAt (s.dev.bench 130).paired.toNat 0 = true) := by decide +kernel

theorem witness_StagerQueueTakesSubmits : run.Works ∧ (run.dev.stager 3).queue.length < 64 ∧ bits 0x1FC0 0 48 % 64 = 0 ∧
    ((runD (fun d => d.modStager 3 (fun g => { g with queue := List.replicate 64 { addr := 0 } }))).dev.stager 3).queue.length = 64 := by decide +kernel

theorem witness_StepRunsTheFrontCommand : State.reset.pending = [] ∧ step State.reset = .next State.reset.tick := ⟨rfl, rfl⟩

/-! ## Premises of the later clauses -/

theorem witness_ResetPinsAct_refresh : (∀ b ∈ [true, false], let s := runD (fun d => d.modNear (fun n => { n with selfRefresh := b })); s.ctl.pins.pwrOk = true ∧ s.ctl.clk.counting = true ∧ s.dev.near.selfRefresh = b) ∧
    ({ otherLate := true } : BootObs).otherLate = true ∧ (booting 3).ctl.boot.stage = 3 := by decide

theorem witness_ClockAndPinEventsAct_osc : let s : State := { runC (fun c => { c with clk := { c.clk with refclkOk := false } }) with dev := run.dev.modFc (fun f => { f with safe := true }) }
    (s.ctl.clk.refclkOk = false ∨ s.ctl.clk.pllLock = false) ∧ s.dev.fc.safe = true ∧
    (∀ i ∈ [(2 : Nat), 3, 5, 8, 255], ({ s.ctl with jtag := { s.ctl.jtag with instr := i } } : Ctl).jtag.instr = i) := by decide

theorem witness_DivisionLoopsMove_hot : let hot := fun (div : Nat) => runD (fun d => { (d.modBay 0 (fun y => { y with div := div })) with pwr := { (d.modBay 0 (fun y => { y with div := div })).pwr with temps := setAt d.pwr.temps 0 1600 } })
    (bayHot (hot 3).dev.pwr 0 = true ∧ ((hot 3).dev.bay 0).div ≠ 10) ∧ (bayHot (hot 10).dev.pwr 0 = true ∧ ((hot 10).dev.bay 0).div = 10) ∧
    (let s := runD (fun d => d.modPwr (fun p => { p with temps := setAt p.temps 0 1599, warm := 31 })); bayHot s.dev.pwr 0 = false ∧ bayWarm s.dev.pwr 0 = true) ∧
    run.ctl.clk.onOsc = false ∧ run.Works ∧ run.pending = [] := by decide +kernel

theorem witness_FaultRaiseActs_contain : let sev := fun (k v : Nat) => (runD (fun d => d.modFc (fun f => { f with srcs := tabPut f.srcs k { f.src k with sev := BitVec.ofNat 2 v } })))
    let st := fun (x : StepState) => runD (fun d => { (d.modFc (fun f => { f with srcs := tabPut f.srcs 7 { f.src 7 with sev := 2 } })) with life := { d.life with state := x } })
    (∀ x ∈ [StepState.forward, .backward, .clamp], (st x).Live ∧ (st x).dev.fc.deaf = false ∧ max ((st x).dev.fc.src 7).sev.toNat (eventFloor 7 0) = 2 ∧ (st x).dev.fc.entering = false ∧
      (st x).dev.life.state = x ∧ Dev.stopping (st x).dev.life = false) ∧
    (max ((st .idle).dev.fc.src 7).sev.toNat (eventFloor 7 0) = 2 ∧ (st .idle).dev.life.state = .idle) ∧
    max ((sev 7 3).dev.fc.src 7).sev.toNat (eventFloor 7 0) = 3 ∧ max (run.dev.fc.src Fs.lockstep).sev.toNat (eventFloor Fs.lockstep 0) = 3 ∧ run.dev.fc.entering = false ∧ run.dev.fc.deaf = false := by
  decide +kernel

theorem witness_RegisterBlocksOpenAndShut :
    (∀ a ∈ [(0x3F0001000010, 4), (0x3F0001001000 + 4 * 479, 4), (0x3F0001200800, 4), (benchAddr 130 0, 4), (benchAddr 130 0x40, 4), (benchAddr 130 0x44, 4), (benchAddr 130 0x48, 4), (0x3F0007301000, 8), (0x3F0004100000, 8), (0x3F0004100000 + 4095 * 16 + 8, 8),
        (0x3F0005000010, 8), (0x3F0005700010, 8)],
      run.CsrOpen 15 a.1 a.2 ∧ run.CsrShut 0 a.1 a.2 ∧ run.CsrShut 9 a.1 a.2) ∧ mapped.CsrOpen 7 (0x3F0007301000) 8 ∧ arrives run.dev 8 = false ∧
    (let s := runC (fun c => { c with boot := { stage := 4, running := true } }); s.CsrOpen 15 0x3F0001000010 4 ∧ s.ctl.boot.stage.toNat < 5) ∧ 5 ≤ run.ctl.boot.stage.toNat := by decide +kernel

theorem witness_VectorRowsRun_moves : (∀ p ∈ vectorRows, let b := padWith 2 (vecWords p.2); vecMissing b (vecDescOf (vecWords p.2)) (ctxSpan (vecDescOf (vecWords p.2)).sr 0x100) = none ∧
      vecBad b (vecDescOf (vecWords p.2)) (ctxSpan (vecDescOf (vecWords p.2)).sr 0x100) = none) ∧
    (∀ p ∈ rowRows, let b := padWith 3 (rowWords p.2); statReady b 3 = true ∧
      missingAt b 3 (rowReadBytes (rowDescOf (rowWords p.2)) ++ rowWritten (rowDescOf (rowWords p.2)) ++ ctxSpan (rowDescOf (rowWords p.2)).sr 0x100) = none) := by decide +kernel

theorem witness_DmaDescriptorsRun_landed : (∀ p ∈ dmaRowTable, dmaHeld run.here (dmaDescOf (dmaWords p.2)) = false ∧ dmaLanding run.here (dmaDescOf (dmaWords p.2)) = false) ∧
    (padWith 1 mxWords).waits = [] ∧ (dmaDescOf (dmaWords 1)).kind = 1 ∧ (dmaDescOf (dmaWords 1)).dowelGen = false := by decide +kernel

theorem witness_PokeWritesItsSpan_busy : (∀ l ∈ Memory.linesOf 0x7FDFFFFFC0 64, run.dev.busyLine l = false) ∧
    (let s := runD (fun d => d.modHome 0 (fun m => { m with txns := [{ req := { port := 0, kind := .rdCur, line := 0 }, st := .tMem }] }))
     Memory.linesOf 8 8 = [8 / 64] ∧ s.dev.busyLine (8 / 64) = true ∧ rangeOf 8 ≠ .unified) := by decide +kernel

theorem witness_StreamFills_free : spanHeld streaming.here (slotBlock (streaming.dev.stager 0) 0 0) 4096 = false := by decide +kernel

/-- A part with a stager descriptor that lies in memory nothing homes: the firmware's area. -/
def sickStaging : State := runD (fun d => d.modStager 0 (fun g => { g with queue := [{ addr := 0x7FE0000000 }] }))

theorem witness_StagerDescriptorsRun_sick : (∀ p ∈ stgHead (staging { addr := 0x100 } 0 1).here 0, headSick (staging { addr := 0x100 } 0 1).here p.1 p.2 = false ∧
      spanSick (staging { addr := 0x100 } 0 1).here p.1.addr 64 = false ∧ spanHeld (staging { addr := 0x100 } 0 1).here p.2.nearAddr (p.2.nblocks * 4096) = false ∧ p.1.ran = false) ∧
    (stgHead (staging { addr := 0x100 } 0 1).here 0).isSome = true ∧
    (stgHead sickStaging.here 0).isSome = true ∧ (∀ p ∈ stgHead sickStaging.here 0, headSick sickStaging.here p.1 p.2 = true) := by decide +kernel

/-- A repair of segment 512 of an image at 0x100, in the table. -/
def repairing (r : Repair → Repair) : State :=
  runD (fun d => d.modFar (fun f => { f with repairs := [r { target := 0x100, isPage := false, entry := 0, block := 0, seg := 512, dowel := none, attempts := 1, firstFetch := [], held := [], fixed := none, poisoned := false }] }))

theorem witness_RepairsAct_table : (repairing id).dev.far.repairs[0]?.isSome = true ∧ (∀ r ∈ (repairing id).dev.far.repairs[0]?, r.fetch.ready = none ∧ r.held = [] ∧ r.poisoned = false) ∧
    (let f : Repair → Repair := fun r => { r with fetch := { r.fetch with ready := some none } }; ∀ r ∈ (repairing f).dev.far.repairs[0]?, r.fetch.ready = some none) ∧
    (let s := repairing (fun r => { r with poisoned := true, attempts := 2 }); let d := s.dev.modCxl 0 (fun p => { p with up := true, cap := 2 ^ 40 }); let t : State := { s with dev := d }
     (∀ q ∈ t.dev.far.repairs, q.seg = 512 → q.decided = true) ∧ foundBad t.here 512 = [] ∧ (rewriteTarget t.here 512).isSome = true ∧ t.dev.far.repairWait = [] ∧
     rangeOf (0x100 + 64 + 8 * 0) = .near ∧ t.here.homed (0x100 + 64 + 8 * 0) 8 = true) := by decide +kernel

theorem witness_PagesMove_frames : (∀ p ∈ tabFind leaving.dev.far.pages 0, p.frame * 0x200000 < 0x8000000000 ∧ p.res = .demoting) ∧ spanHeld leaving.here (0 * 0x200000) 0x200000 = false := by decide +kernel

theorem witness_RootPortEventsAct_reads : run.ctl.clk.onOsc = false ∧ (∀ a ∈ [(0x200000000000 : Nat), 0x2FFFFFFFFFFF], run.dev.near.badReads.contains (a / 64) = false ∧
      (run.dev.home (homeOfLine (a / 64))).txns.find? (fun t => t.req.line == a / 64 && t.st == .tMem) = none) ∧
    (let s := runD (fun d => d.modHome (homeOfLine 0x8000000000) (fun m => { m with txns := [{ req := { port := 0, kind := .rdCur, line := 0x8000000000 }, st := .tMem }] }))
     ((s.dev.home (homeOfLine (0x200000000000 / 64))).txns.find? (fun t => t.req.line == 0x200000000000 / 64 && t.st == .tMem)).isSome = true) := by decide +kernel

theorem witness_NearControllersRun_scrub : run.Works ∧ (∃ l ∈ ([0] : List Nat), ({ run.dev with mem := { run.dev.mem with lines := [(l, false)] } } : Dev).mem.poisoned run.dev.era l = false) ∧
    (run.dev.pc (run.dev.pcOfLine 5)).burst.length < 1023 := by decide +kernel

theorem witness_PlaneUpdatesAdvance_safe : (let s := panelled (header 2 0 0x9000) [5, 4] (fun p => { p with cur := some { idx := 0, step := 5, mirror := false, computed := true }, state := .releasing })
     let t : State := { s with dev := s.dev.modFc (fun f => { f with entering := true }) }
     t.Live ∧ (t.dev.fc.entering = false ∨ t.dev.near.selfRefresh = false) ∧ (t.dev.plane 0).cur.isSome = true ∧ (panelAt t.here 0).twinHdr ≠ 0 ∧ (panelAt t.here 0).untwinned = false) ∧
    (let s := panelled (header 2 0 0) [] (fun p => { p with due := [(0, 5)], stopped := [(1, 4)], state := .stopped })
     nextDue (s.dev.plane 0) = some (0, 5) ∧ (s.dev.plane 0).state = .stopped) := by decide +kernel

/-- Flow 1 to node 9 with one message open. -/
def messaged (m : OpenMsg) (st : FlowState) : Dev := { joinedState.dev with fab := { joinedState.dev.fab with flows := [(1, { state := st, peerNode := 9, msgs := [m] })] } }

theorem witness_EngineFramesAct_messages :
    (∀ i ∈ [Issuer.window 3, .bench 131], let m : OpenMsg := { msgId := 5, issuer := i, respDue := 8, addr := 0x1000, dest := 0x2000 }
      ((messaged m .opn).flow 1).msgs = [m] ∧ bitAt m.addr 63 = false ∧ ([1, 2] : List Byte).length < m.respDue) ∧
    (∀ st ∈ [FlowState.opn, .draining], let m : OpenMsg := { msgId := 5, issuer := .window 3, respDue := 2, addr := 0x1000, dest := 0x2000 }; let d := messaged m st
      (d.flow 1).msgs = [m] ∧ m.respDue ≠ 0 ∧ bitAt m.dest 61 = false ∧ (d.flow 1).unacked = [] ∧ (d.flow 1).waiting = [] ∧ ([1, 2] : List Byte).length = m.respDue ∧
      (d.flow 1).msgs.find? (fun x => x.msgId == 5) = some m) ∧
    joinedState.dev.aux.errValid = false := by decide +kernel

theorem witness_EngineFramesAct_contributions : panelDev.aux.holds.contains (0, 0) = false ∧ panelDev.aux.resultStep = none ∧ panelDev.aux.frozen = none ∧
    (let d := panelDev.modAux (fun x => { x with resultStep := some 7 }); d.aux.resultStep = some 7 ∧ 7 ≤ 7) ∧ (let d := panelDev.modAux (fun x => { x with frozen := some 7 }); d.aux.resultStep = none ∧ d.aux.frozen = some 7) ∧
    (∀ p ∈ ownerPanel panelDev 0, (openSlot p 0 panelDev).isSome = true ∧ (∀ d1 ∈ openSlot p 0 panelDev, cursorOf d1 p (p.slotOf 0) (0 / 1024) = 0)) ∧
    (∀ p ∈ ownerPanel panelDev 0, (let d := putSlot p 0 { step := 9, state := 1, arrived := 0, frame := 0, map := 0 } panelDev; openSlot p 0 d = none) ∧
      (let d := modRun p (p.slotOf 0) 0 (fun r => { r with cursor := 3 }) panelDev; ∀ d1 ∈ openSlot p 0 d, 2 < cursorOf d1 p (p.slotOf 0) 0 ∧ 3 = cursorOf d1 p (p.slotOf 0) 0)) := by decide +kernel

/-- The part with the header `w1`, `twin` of panel 0, and the plane that has it changed. -/
def mirroring (f : Plane → Plane) : Dev := let d := (panelled (header 2 (2 ^ 36) 0) [] f).dev; { d with opt := { d.opt with panelIndex := [(0, 0)] } }

theorem witness_EngineFramesAct_mirrors : (∀ i ∈ panelIdxAt (mirroring id) 0, (panelAt (mirroring id) i).role = 1 ∧ (panelAt (mirroring id) i).committed 5 = false ∧
      (let pl := (mirroring id).plane ((panelAt (mirroring id) i).id % 8); pl.transfer = none ∧ pl.asks = [] ∧ pl.cur = none)) ∧ (panelIdxAt (mirroring id) 0).isSome = true ∧
    (let d := mirroring (fun p => { p with transfer := some { idx := 0, step := 4, node := 1, flow := 0 } }); ∀ i ∈ panelIdxAt d 0, (panelAt d i).role ≠ 0 ∧
      (∀ t ∈ (d.plane 0).transfer, t.step ≠ 5) ∧ ({ idx := i, step := 5, node := 0, flow := 0 } : MirrorAsk) ∉ (d.plane 0).asks) ∧
    ((mirroring id).plane 0).outq = [] := by decide +kernel

theorem witness_EngineFramesAct_twins : let u : Update := { idx := 0, step := 5, mirror := false, computed := true }
    let own := fun (f : Plane → Plane) => let d := (panelled (header 2 0 0x9000) [] f).dev; ({ d with opt := { d.opt with panelIndex := [(0, 0)] } } : Dev)
    (∀ i ∈ panelIdxAt (own (fun p => { p with cur := some u })) 0, (panelAt (own (fun p => { p with cur := some u })) i).role = 0 ∧ i = u.idx) ∧ (panelIdxAt (own id) 0).isSome = true ∧
    ((own (fun p => { p with cur := some u })).plane 0).cur = some u ∧ u.step % 2 ^ 32 = 5 ∧ ((own (fun p => { p with parked := [u] })).plane 0).cur = none ∧
    ((own (fun p => { p with parked := [u] })).plane 0).parked = [u] ∧ ((own id).plane 0).parked = [] := by decide +kernel

theorem witness_WindowAccessesGoOut_arrives : (∀ p ∈ [(0 : Nat), 7, 9, 15], arrives windowed.dev p = true) := by decide +kernel

/-- A record of step 0. -/
def stepRec (n : Nat) : ClampRec := { recOfBytes (List.replicate 1088 0) with step := n }

theorem witness_CollectivesStart_clamp : let s := collWith [0] (collOp (collWords 7 1 0x2000 0 0x3000 4))
    let t : State := { s with dev := s.dev.modColl (fun m => { m with heldResult := some (stepRec 0) }) }
    nextColl t.here 7 = some (collOp (collWords 7 1 0x2000 0 0x3000 4)) ∧ t.dev.coll.heldResult.isSome = true ∧ s.dev.coll.heldResult = none ∧ s.dev.coll.clamp = none := by decide +kernel

theorem witness_CollectiveEventsAct_clamp :
    (∀ members ∈ [[0], [0, 9]], let r : ClampRun := { step := 0, group := 1, op := some 0 }; let s := clamping members r
     s.dev.life.held = none ∧ dueRun s.here = some r ∧ backwardDone s.here = true ∧ gradsDone s.here = true ∧ slotsFull s.here = true) ∧
    (let r : ClampRun := { step := 0, group := 1 }; let s : State := { clamping [0, 9] r with dev := (clamping [0, 9] r).dev.modLife (fun l => { l with state := .aborted, held := none }) }
     s.dev.life.held = none ∧ dueRun s.here = some r ∧ s.dev.life.state = .aborted) ∧
    (let s : State := { clamping [0, 9] { step := 0, group := 1 } with dev := ((clamping [0, 9] { step := 0, group := 1 }).dev.modLife (fun l => { l with state := .aborted, held := some (stepRec 0) })) }
     s.dev.life.held = some (stepRec 0) ∧ heldDue s.here = true) ∧
    (let run : ClampRun := { step := 0, group := 1, ready := true }; let s := clamping [0, 9] run
     s.dev.coll.clamp = some run ∧ (∀ g ∈ tabFind s.dev.coll.groups 1, missingKids s.here g run ≠ []) ∧ run.sent = false ∧ run.done = false) := by decide +kernel

theorem witness_CollectiveEventsAct_data : (∀ o ∈ (collWith [0, 9] (collOp (collWords 6 1 0 0 0 0))).dev.coll.ops, o.started = false ∨ o.grp ≠ 1) ∧
    (let o : CollOp := { collOp (collWords 6 1 0 0 0 0) with started := true, gseq := 3, upSent := true }; let d := (collWith [9, 0] o).dev
     d.coll.ops = [o] ∧ (∀ g ∈ tabFind d.coll.groups 1, kidsOf g (myRank d g) = []) ∧ (tabFind d.coll.groups 1).isSome = true ∧ o.released = false ∧ (collDescOf o.words).op = 6 ∧ o.own = false) := by decide +kernel

theorem witness_CollectiveEventsAct_parts : let d0 := (clamping [0, 9] { step := 0, group := 1 }).dev
    (∀ g ∈ tabFind d0.coll.groups 1, 1 ∈ kidsOf g (myRank d0 g) ∧ 0 ∉ kidsOf g (myRank d0 g) ∧ rankOf g 9 = some 1 ∧ myRank d0 g ≠ 1) ∧
    staleRec d0 (stepRec 1) = true ∧ staleRec d0 (stepRec 0) = false ∧ (d0.modColl (fun m => { m with clamp := none })).coll.clamp = none ∧ d0.life.held = none ∧
    (∀ run ∈ d0.coll.clamp, run.sent = false ∧ run.done = false ∧ run.ready = false ∧ (run.parts.any (fun p => p.1 == 1) || run.absentKids.contains 1) = false) ∧
    (({ step := 0, group := 1, absentKids := [1] } : ClampRun).parts.any (fun p => p.1 == 1) || ({ step := 0, group := 1, absentKids := [1] } : ClampRun).absentKids.contains 1) = true := by decide +kernel

theorem witness_CollectiveEventsAct_results : let d0 := (clamping [0, 9] { step := 0, group := 1, sent := true }).dev.modColl (fun m => { m with ring := some (0x2000, 4) })
    (let d := d0.modColl (fun m => { m with valid := true, lastRes := stepRec 0 }); d.coll.valid = true ∧ d.coll.lastRes.step = (stepRec 0).step ∧ d.coll.lastRes.epoch = (stepRec 0).epoch) ∧
    d0.coll.valid = false ∧ staleRec d0 (stepRec 1) = true ∧ staleRec d0 (stepRec 0) = false ∧
    (∀ run ∈ d0.coll.clamp, run.op = none ∧ run.sent = true ∧ (∀ g ∈ tabFind d0.coll.groups 1, andNot (maskAt g (myRank d0 g)) (stepRec 0).bitmap = 0)) ∧ d0.coll.ring = some (0x2000, 4) ∧
    (stepRec 0).abort = false ∧ d0.life.state = .backward ∧ { stepRec 0 with abort := true }.abort = true ∧
    (∀ st ∈ [StepState.clamp, .forward, .backward, .aborted], (d0.modLife (fun l => { l with state := st })).life.state = st) ∧
    ((d0.modLife (fun l => { l with stopPending := some false, update := true })).life.stopPending.isSome = true) := by decide +kernel

theorem witness_CollectiveEventsAct_queries : let run : ClampRun := { step := 0, group := 1, sent := true, queried := 2 }
    let d := (clamping [0, 9] run).dev
    d.coll.clamp = some run ∧ (∀ g ∈ tabFind d.coll.groups run.group, g.members.getD 0 0 = 0 ∧ g.members.getD 1 0 = 9 ∧ g.members.getD (2 - 1) 0 ≠ 0 ∧ rankOf g 9 = some 1 ∧ (d.node (g.members.getD 1 0)).lost = false ∧
      openTo d (g.flows.getD 1 0) (g.members.getD 1 0) = true) ∧ run.done = false ∧ run.pending = none ∧ (heldResults d).find? (answersQuery d 0) = none ∧
    (let e := d.modColl (fun m => { m with valid := true, lastRes := stepRec 0 }); (heldResults e).find? (answersQuery e 0) = some (stepRec 0)) ∧
    ({ run with pending := some (stepRec 0) } : ClampRun).pending = some (stepRec 0) ∧ run.step % 2 ^ 32 = 0 ∧ (d.modLife (fun l => { l with state := .aborted })).life.state = .aborted := by decide +kernel

theorem witness_HomeEventsAct_rest : mapped.ctl.clk.onOsc = false ∧ hostUp mapped.dev = true ∧
    (let b := run.here.physBlock 0; let s := runD (fun d => d.modNearCtl (run.dev.stackOf 0) (fun n => { n with ppr := some ((b / 262144 * 64 + bits b 0 2 + bits b 2 2 * 16) * 16384 + rowOf (b % 262144)) }))
     readHeld s.here 0 = true) := by decide +kernel

theorem witness_CacheEventsAct_cores : (let s : State := { run with dev := run.dev.modSilkai (fun m => { m with puwellRun := false }) }; s.Works ∧ puwellUp s.dev = false) ∧ puwellUp run.dev = true ∧
    rangeOf 0x8000000000 = .reserved ∧ coherent (0x8000000000 / 64 * 64) = false ∧ hostLine (0x8000000000 / 64) = false ∧
    (∀ st ∈ [LineState.mod, .own], mayWriteBack (cached st).here 7 1 = true) := by decide +kernel

theorem witness_HostEventsAct_snoops : let s : State := { mapped with dev := mapped.dev.modHost (fun h => { h with filter := [(0x3E0000000000 / 64, 0x80)] }) }
    s.Works ∧ hostUp s.dev = true ∧ deviceLine s.here 0 = some (0x3E0000000000 / 64) ∧ deviceLine s.here (2 ^ 34) = none ∧ (s.dev.host.filter.find? (fun p => p.1 == 0x3E0000000000 / 64)).isSome = true ∧
    mapped.dev.host.filter.find? (fun p => p.1 == 0x3E0000000000 / 64) = none ∧ hostUp run.dev = false := by decide +kernel

theorem witness_HostEventsAct_alias : let s : State := { mapped with dev := mapped.dev.poke 0x1000 (List.replicate 64 7) }
    s.Live ∧ s.ctl.clk.onOsc = false ∧ (s.dev.cxl 0).role = 1 ∧ (run.dev.cxl 0).role ≠ 1 ∧ s.ctl.boot.failed = false ∧ (halt 1 s.ctl s.here).1.boot.failed = true ∧
    (let t : State := { s with dev := s.dev.modFc (fun f => { f with entering := true }) }; t.dev.fc.entering = true) ∧
    (s.here.spanMapped .hostCls 0x7FE0000000 64 && ptPermits s.ctl .hostCls 1 0x7FE0000000 64) = false ∧ s.here.spanMapped .hostCls 0x1008 8 = true ∧ ptPermits s.ctl .hostCls 1 0x1008 8 = true ∧
    s.dev.host.ahead = [] ∧ Memory.linesOf 0x1008 8 = [0x1008 / 64] ∧ (Memory.linesOf 0x1008 8).filter (fun l => !(s.dev.host.ahead.any (fun p => p.1 == l)) && (s.here.backing l).poison) = [] := by decide +kernel

theorem witness_HostEventsAct_flight : (∀ b ∈ [none, some 131], ∀ wr ∈ [true, false], let x : HostAcc := { write := wr, addr := 0x380000000000, len := 64, data := [], port := 9, bench := b }
      (runD (fun d => d.modHost (fun h => { h with flight := [x] }))).dev.host.flight.find? (fun y => y.write == wr) = some x) ∧ run.dev.host.flight.find? (fun y => y.write == true) = none ∧
    run.ctl.boot.ready = true ∧ (booting 8).ctl.boot.ready = false ∧ (booting 8).ctl.boot.failed = false := by decide

theorem witness_MailboxEventsAct_flash : ∀ cfg ∈ [true, false], let s := idleMbx (fun d => d.modMbx 15 (fun m => { m with st := .busy, waiting := some (.fwUpdate cfg [1, 2]) }))
    s.Live ∧ firmwareRuns s.ctl s.dev = true ∧ (s.dev.mbx 15).waiting = some (.fwUpdate cfg [1, 2]) ∧ inHand (s.dev.mbx 15) = true ∧ updateRuns s.dev = true := by decide +kernel

theorem witness_MailboxEventsAct_private : 4 ≤ run.ctl.boot.stage.toNat ∧ (halt 3 (booting 3).ctl (booting 3).here).1.boot.failed = true ∧
    (let s := idleMbx (fun d => d.modMbx 15 (fun m => { m with st := .busy, waiting := some (.flowClose 0) }))
     (s.dev.mbx 15).waiting = some (.flowClose 0) ∧ (waitEnds (.flowClose 0) s.here).isSome = true) := by decide +kernel

theorem witness_NdCommandsRun_hands : firmwareRuns (booting 2).ctl (booting 2).dev = false ∧ (run.dev.mbx 0).st = .notReady ∧ firmwareRuns run.ctl run.dev = true ∧
    (let s := idleMbx id; s.Live ∧ firmwareRuns s.ctl s.dev = true ∧ inHand (s.dev.mbx 15) = false ∧ (s.dev.mbx 15).st ≠ .notReady) := by decide +kernel

theorem witness_NdJobCommandsAct_stage : let s := idleMbx (fun d => { d with silkai := { d.silkai with panelTable := true, regions := [(0, { base := 0, len := 2 ^ 20, engine := true, fabRd := false, fabWr := false, fabAtom := false })] } })
    stageAreas s.dev (withByte 0 0 (payloadOf 88 [(8, 8, 0x10000), (16, 4, 16)])) = true ∧ updateRuns loadable.dev = false := by decide +kernel

theorem witness_RegistersTakeWrites_reads : (∀ p ∈ [(0 : Nat), 7, 9, 15], arrives mapped.dev p = true) ∧ ptPermits mapped.ctl .puwell 1 0x3F0002000040 8 = true ∧ (2 : Nat) ≠ 4 ∧ (2 : Nat) ≠ 8 ∧
    regAt run.ctl run.here 15 (0x3F000FFFFFF8 - 4) = none ∧ (0x3F0100004018 : Nat) % 8 = 0 ∧ reachesCsr run.ctl 15 2 (jigBase 4 + 0x40) 8 = true := by decide +kernel

/-! ## Well-formed and ill-formed commands -/

theorem test_wellformed_commands : ∀ i ∈ ([.pwrOkRise, .nop 3 63, .nop 4 255, .rdshared 0 5 [{ port := 1, kind := .rdOwn, line := 5 }], .atomic 9 5 0 (.add 1) [0, 0] [], .atomic 9 5 56 .cmpSwap (List.replicate 16 0) [],
    .snoopResponse 8 5 .miss [] false, .fabricWindowAccess 0 0 0x1FFFFFFFFFFF [] 1, .streamSlotFull 3 8, .faultRaise [(479, 3, 0)], .jtagInstructionUpdate 31, .pmbusPoll 8 (some (65535, 65535)) false] : List Instr),
    WellFormed i = true := by decide +kernel

theorem test_illformed_poll : WellFormed (.pmbusPoll 0 (some (65536, 0)) false) = false ∧ WellFormed (.pmbusPoll 0 (some (0, 65536)) false) = false := by decide
theorem test_illformed_mailbox_bytes : WellFormed (.mbxCmdWrite 0 0 4095 [0, 0]) = false := by decide
theorem test_illformed_payload : ∃ p : List Byte, WellFormed (.ndHello 0 p) = false := by
  refine ⟨List.replicate 4081 0, ?_⟩
  show decide ((List.replicate 4081 (0 : Byte)).length ≤ 4080) = false
  rw [List.length_replicate]; decide
theorem test_illformed_scratchpad : WellFormed (.spadAccess 0 0 true 0 [0] 2 0) = false ∧ WellFormed (.spadAccess 0 0 false 0 [] 0 0) = false ∧ WellFormed (.spadAccess 0 0 false 0x1FFFFF [] 2 0) = false := by decide +kernel
theorem test_illformed_scratchpad_window : WellFormed (.spadWindowAccess 0 0 false 0 [0] 1) = false ∧ WellFormed (.spadWindowAccess 0 0 false 0 [] 0) = false ∧
    WellFormed (.spadWindowAccess 0 0 false 0 [] 129) = false ∧ WellFormed (.spadWindowAccess 0 0 false 0x1FFFFF [] 2) = false := by decide +kernel
theorem test_illformed_queue : WellFormed (.nop 0 64) = false ∧ WellFormed (.nop 4 256) = false ∧ WellFormed (.jigMx 0 64) = false ∧ WellFormed (.coll 256) = false := by decide
theorem test_illformed_slot : WellFormed (.streamBlockArrival 0 9) = false ∧ WellFormed (.streamSlotFull 0 9) = false := by decide
theorem test_illformed_segment : WellFormed (.segmentSeal 0 0x200000) = false := by decide
theorem test_illformed_repair : WellFormed (.farRepairFetchDone 65536 none) = false ∧ WellFormed (.farRepairFetchDone 0 (some [0])) = false ∧ WellFormed (.farSegmentRewriteDone 65536) = false := by decide
theorem test_illformed_page : WellFormed (.pagePromoteStart 0x800000) = false ∧ WellFormed (.pagePromoteDone 0x800000) = false ∧ WellFormed (.pageDemoteDone 0x800000) = false := by decide
theorem test_illformed_line : WellFormed (.memoryDataReturn 0 0x40000000000 0) = false ∧ WellFormed (.biconflict 0x40000000000) = false ∧ WellFormed (.rdcur 9 0x40000000000 []) = false := by decide
theorem test_illformed_near_line : WellFormed (.nearCeWriteback 0 0x200000000) = false ∧ WellFormed (.scrubRead 0x200000000 0) = false := by decide
theorem test_illformed_panel : WellFormed (.sealPutDone 65536 0) = false := by decide
theorem test_illformed_path : WellFormed (.pathPenaltyExpiry 0 1024) = false := by decide
theorem test_illformed_frame : ∀ f ∈ ([{ ver := 16 }, { resv := 32 }, { opc := 256 }, { srcNode := 65536 }, { dstNode := 65536 }, { dstFlow := 65536 }, { len := 65536 }] : List Frame),
    WellFormed (.write 0 f) = false := by decide
theorem test_illformed_window_access : WellFormed (.fabricWindowAccess 0 0 0xFFFFFFFFFFFF [] 2) = false := by decide +kernel
theorem test_illformed_store : WellFormed (.coreStore 0 63 [0, 0] false) = false ∧ WellFormed (.coreStore 0 0 [] false) = false := by decide +kernel
theorem test_illformed_same_cycle : WellFormed (.rdshared 0 5 [{ port := 1, kind := .rdOwn, line := 6 }]) = false ∧ WellFormed (.rdshared 0 5 [{ port := 0, kind := .rdOwn, line := 5 }]) = false := by decide +kernel
theorem test_illformed_line_data : WellFormed (.wrfull 9 0 [0] []) = false ∧ WellFormed (.wbdirty 0 0 [0] []) = false ∧ WellFormed (.wrpart 9 0 63 [0, 0] []) = false ∧
    WellFormed (.snoopResponse 0 0 .data [0] false) = false ∧ WellFormed (.snoopResponse 0 0 .miss [0] false) = false ∧ WellFormed (.grant 0 0 0 (some [0]) false) = false := by decide +kernel
theorem test_illformed_atomic : WellFormed (.atomic 9 0 4 .fetchAdd (List.replicate 8 0) []) = false ∧ WellFormed (.atomic 9 0 0 .cmpSwap (List.replicate 8 0) []) = false ∧
    WellFormed (.atomic 9 0 0 (.add 3) [0, 0, 0, 0] []) = false ∧ WellFormed (.atomic 9 0 60 (.add 1) [0, 0, 0, 0] []) = false ∧ WellFormed (.atomic 9 0 2 (.add 0) [0, 0, 0, 0] []) = false := by decide +kernel
theorem test_illformed_host : WellFormed (.hostH2dSnoop 0x400000000000 0) = false ∧ WellFormed (.aliasRead 0 0) = false ∧ WellFormed (.aliasRead 0x7FFFFFFFFF 2) = false := by decide +kernel
theorem test_illformed_raise : WellFormed (.faultRaise [(0, 4, 0)]) = false := by decide
theorem test_illformed_jtag : WellFormed (.jtagInstructionUpdate 32) = false := by decide

/-! ## Single steps -/

/-- The one next state of a step, or the state itself. -/
def after (i : Instr) (s : State) : State := match step { s with pending := [i] } with | .next t => t | _ => s

/-- R499: PWR_OK rises, and the boot starts. -/
theorem test_reset_waits_for_power : State.reset.ctl.live = false ∧ State.reset.pending = [] ∧ State.reset.dev.mem.cells = [] := by decide

/-- R156: CRC-32C of "123456789" is E3069283. -/
theorem test_crc32c : crc32c [0x31, 0x32, 0x33, 0x34, 0x35, 0x36, 0x37, 0x38, 0x39] = 0xE3069283 := by decide +kernel

/-- R325, R380: a fetch-and-add wraps modulo 2^64; a compare and swap stores the second operand where the first is the target. -/
theorem test_fetch_add_wraps : atomApply .fetchAdd (List.replicate 8 255) [1, 0, 0, 0, 0, 0, 0, 0] = List.replicate 8 0 := by decide +kernel
theorem test_cmp_swap : atomApply .cmpSwap [1, 0, 0, 0, 0, 0, 0, 0] ([1, 0, 0, 0, 0, 0, 0, 0] ++ [9, 0, 0, 0, 0, 0, 0, 0]) = [9, 0, 0, 0, 0, 0, 0, 0] := by decide +kernel

/-- R233: a signal of 1 to a counter at the top wraps to 0. -/
theorem test_signal_wraps : tabGet 0 (((run.dev.signal 4 5 0xFFFFFFFF).signal 4 5 1).jig 4).ctr 5 = 0 := by decide +kernel

/-- R405, R417: HELLO through a mailbox ends DONE with status 0 and the identity of the part in its reply. -/
theorem test_hello : let t := after (.ndHello 15 (payloadOf 8 [(0, 1, 3)])) (idleMbx id)
    (t.dev.mbx 15).st = .done ∧ (t.dev.mbx 15).result = 0 ∧ (t.dev.mbx 15).seq = 1 ∧ leAt (areaBytes (t.dev.mbx 15) 16 2) 0 2 = 0xC096 ∧ t.pending = [] := by decide +kernel

/-- R109: bits that would change for pairs a bench owns keep their values, and each is counted. -/
theorem test_pairing_kept : let s := runD (fun d => d.modBench 130 (fun b => { b with owner := (List.range 16).map (fun i => (i, 0)) }))
    let t := after (.spadPairWrite 130 0xFC) s
    (t.dev.bench 130).paired = (s.dev.bench 130).paired ∧ (t.dev.bench 130).handoverFailCnt = (s.dev.bench 130).handoverFailCnt + 2 := by decide +kernel

/-- R374: a load of a line that the cluster does not hold asks for it. -/
theorem test_load_misses : (after (.coreLoad 7 0x40) mapped).dev.out = [.request 7 .rdShared 1] ∧ ((after (.coreLoad 7 0x40) mapped).dev.cacheLine 7 1).st = .isP := by decide +kernel

end Sys2Proof.Tests
end

section
/-! SUPPORT. What a row leaves of the state, by the way it acts. -/

namespace Sys2Proof.Machine

open Sys2Proof

/-- A command that acts on control part and device leaves what its function answers for them. -/
theorem onAll_eq {f : Ctl → Dev → Ctl × Dev} {s : State} {c : Ctl} {d : Dev} (h : f s.ctl s.here = (c, d)) : onAll f s = .next (s.withBoth c d) := by
  change Host.Outcome.next (s.withBoth (f s.ctl s.here).1 (f s.ctl s.here).2) = _
  rw [h]

/-- A command that acts on the device, where the blocks run, leaves what its function answers. -/
theorem onDev_eq {f : Ctl → Dev → Dev} {s : State} {d : Dev} (hlive : s.Live) (h : f s.ctl s.here = d) : onDev f s = .next (s.withDev d) :=
  (onDev_live f s hlive).trans (congrArg _ (congrArg _ h))

/-- What the last command sent has no part in which accesses arrive. -/
@[simp] theorem arrives_here (s : State) (port : Nat) : arrives s.here port = arrives s.dev port := rfl

/-- A command of a block that the safe state stops, where it works, leaves what its function answers. -/
theorem onWork_eq {f : Ctl → Dev → Dev} {s : State} {d : Dev} (hw : s.Works) (h : f s.ctl s.here = d) : onWork f s = .next (s.withDev d) :=
  (onWork_live f s hw.1 hw.2).trans (congrArg _ (congrArg _ h))

section
variable {s : State} {port a n : Nat} (hw : s.Works)
include hw

/-- R66: a write by a row of a block that works: let through, dropped, or not arrived. -/
theorem guardedRow_open (h : s.CsrOpen port a n) (f : Ctl → Dev → Dev) : onWork (guardCsr port a n f) s = .next (s.withDev (f s.ctl s.here)) :=
  onWork_eq hw (guardCsr_open (d := s.here) h.1 h.2)

theorem guardedRow_shut (h : s.CsrShut port a n) (f : Ctl → Dev → Dev) :
    onWork (guardCsr port a n f) s = .next (s.withDev (dropWrite a port s.ctl s.here)) :=
  onWork_eq hw (guardCsr_shut (d := s.here) h.1 h.2)

theorem guardedRow_absent (h : arrives s.dev port = false) (f : Ctl → Dev → Dev) : onWork (guardCsr port a n f) s = .next (s.withDev s.here) :=
  onWork_eq hw (guardCsr_absent (d := s.here) h)

end

/-- A change of a unit is known by what it makes of the unit as it is. -/
theorem modBench_congr {d : Dev} {i : Nat} {f g : Bench → Bench} (h : f (d.bench i) = g (d.bench i)) : d.modBench i f = d.modBench i g :=
  congrArg (fun x => { d with benches := tabSet {} d.benches i x }) h

end Sys2Proof.Machine

end

section
/-! SUPPORT. Which commands act on the control part, and that every command goes on with the queue as it was. -/

namespace Sys2Proof.Machine

open Sys2Proof

/-- The rows that act on the control part: resets, boot, pins, clocks, JTAG, register writes and the protection tables. -/
inductive ActsOnCtl : Instr → Prop where
  | pwrOkRise : ActsOnCtl .pwrOkRise
  | pwrOkFall : ActsOnCtl .pwrOkFall
  | sysRstNAssert : ActsOnCtl .sysRstNAssert
  | sysRstNRelease : ActsOnCtl .sysRstNRelease
  | internalResetRelease : ActsOnCtl .internalResetRelease
  | bootStageEnd (obs : BootObs) : ActsOnCtl (.bootStageEnd obs)
  | bootStageLimitExpiry (obs : BootObs) (tie : Bool) : ActsOnCtl (.bootStageLimitExpiry obs tie)
  | perstN0Release : ActsOnCtl .perstN0Release
  | perstN0Assert : ActsOnCtl .perstN0Assert
  | pwrbrkNAssert : ActsOnCtl .pwrbrkNAssert
  | brakeEnd : ActsOnCtl .brakeEnd
  | refclkLoss : ActsOnCtl .refclkLoss
  | pllUnlock : ActsOnCtl .pllUnlock
  | ethRefclkLoss : ActsOnCtl .ethRefclkLoss
  | ethRefclkReturn : ActsOnCtl .ethRefclkReturn
  | oscSwitchover : ActsOnCtl .oscSwitchover
  | thermtripAssert : ActsOnCtl .thermtripAssert
  | jtagTrst (low : Bool) : ActsOnCtl (.jtagTrst low)
  | jtagInstructionUpdate (instr : Nat) : ActsOnCtl (.jtagInstructionUpdate instr)
  | jtagUnlockResp (signature : BitVec 768) : ActsOnCtl (.jtagUnlockResp signature)
  | registerWrite (port : Fin 16) (addr : BitVec 48) (width : Nat) (value : W64) : ActsOnCtl (.registerWrite port addr width value)
  | registerLowHalfWrite (port : Fin 16) (addr : BitVec 48) (value : W32) : ActsOnCtl (.registerLowHalfWrite port addr value)
  | ptLockSet (port : Fin 16) : ActsOnCtl (.ptLockSet port)
  | ptEntryWrite (port : Fin 16) (cls : Fin 4) (index : Fin 32) (high : Bool) (value : W64) : ActsOnCtl (.ptEntryWrite port cls index high value)

/-- A severity write acts on the device alone, raised sources in the same cycle or not. -/
theorem execFcSeverityWrite_next (port : Fin 16) (source : Fin 480) (value : W32) (s : State) (raised : List (Fin 480 × Nat × W64)) :
    ∃ d, execFcSeverityWrite port source value s raised = .next { s with dev := d } := by
  unfold execFcSeverityWrite
  split
  · exact onDev_next _ s
  · exact onDev_next _ s

/-- A write to a mailbox acts on the device alone. -/
theorem mbxWrite_next (k port off : Nat) (f : Ctl → Dev → Dev) (s : State) : ∃ d, mbxWrite k port off f s = .next { s with dev := d } := onDev_next _ s

/-- What a command can touch, by the way it acts: the device alone, or, in the rows of `ActsOnCtl`, the control part too. -/
theorem exec_device_or_actsOnCtl (i : Instr) (s : State) : (∃ d, exec i s = .next { s with dev := d }) ∨ ActsOnCtl i := by
  unfold exec
  cases i with
  | wakeRequest | wakeAdmit | wakeRampStep | spadOwnerWrite | spadOwnerSetWrite | spadPairWrite | spadStatOwnerWrite | spadHandoverEnd | spadAccess
  | spadAccessAccept | spadWaitLimitExpiry | spadWindowAccess | strmSubmitWrite | nop | jigMx | jigVec | jigRow | jigDma | handover | stager | gate
  | phase | loop | release | coll | endRec | jigRecordComplete | jigWaitTimeoutExpiry | jigPhaseBoundaryPass | jigHoistIssue | streamFillStart
  | streamBlockArrival | streamSlotFull | streamWatchdogExpiry | get | put | segmentSeal | stagerDescComplete | farRepairFetchDone
  | farSegmentRewriteDone | pagePromoteStart | pagePromoteDone | pageDemoteStart | pageDemoteDone | strmEpochEnd | nearCeWriteback
  | writeQueueAgeExpiry | refreshDue | scrubRead | softPprStart | softPprDone | pcStagingDone | pcRetrainDone | pcRestoreDone | pcRetirementStart
  | pcSacrificedRangeEmpty | pcRetirementCopyDone | planeUpdateStart | planeCommit | sealPutDone | write | readReq | readResp | atomicAdd
  | fetchAdd | cmpSwap | atomicResp | signal | panelAdd | mirror | mirrorCredit | twinDone | ack | status | rnr | heartbeat | flowOpen
  | rawFrameReceive | pfcFrameReceive | frameLossTimeout | ackDelayExpiry | ccPeriodTick | flowOpenResend | heartbeatSend | peerLossExpiry
  | pathPenaltyExpiry | rnrRetransmit | rawTxPoll | fabricWindowAccess | ethLaneFail | ethPortRetrainDone | ethPortLinkUp | gradSend
  | reduceScatter | allGather | allReduce | broadcast | barrier | clamp | dovetail | collData | barrierUp | barrierDown | dovePull
  | doveWaveBarrierDone | collOpComplete | clampRecordReady | clampWaitExpiry | clampPart | clampChildDeadline | clampResult | clampAck
  | clampQuery | clampNone | clampResultWaitExpiry | coreLoad | coreStore | cacheReplacement | retryBackoffExpiry | memclnevct | snpinv | snpdata
  | snpcur | snoopResponse | grant | grantack | wback | retry | cohSnoopTimeoutExpiry | biconflict | hostH2dSnoop | collectivePartTimeout
  | hostCompletion => exact .inl (onWork_next _ _)
  | mxTaskIssue | mxPartialWaitRelease | mxTaskComplete | load | store | statSave | statLoad | dmaDescComplete | copy | fill | bcast | add | sub
  | mul | fma | min | max | abs | neg | colAdd | rowMul | cmpGt | select | div | recip | sqrt | rsqrt | log | func | dfunc | rowSum | rowMax
  | rowTopk | compress | expand | gather | vecTaskComplete | lnFwd | rmsFwd | smFin | lnBwd | rmsBwd | smBwd | rowTaskComplete
    => exact .inl (onEngine_next _ _ _)
  | hbmTempRead | cohDirProbeWrite | bayCacheDisable | bayCacheInvalidateDone | bayCacheEnable | cxlLinkRetrain | cxlLinkDown | farTimeout
  | memoryDataReturn | rdshared | rdown | upgrade | wbdirty | rdcur | wrfull | wrpart | atomic | aliasRead => exact .inl (onClocked_next _ _)
  | planeCommitAck | planePublishAck | planeReleaseAck | planeTwinTimeoutExpiry => exact .inl (onCommitted_next _ _)
  | upstreamHotReset | upstreamLinkTrained | upstreamLinkRecovery | upstreamLinkL0 | upstreamLinkDown | brakeRecoveryStep | pmbAlertNFall
  | pmbusPoll | dieSensorRead | thermalLoopTick | powerLimitEval | wakeReservationRelease | mbxCommandTake | mbxWaitingCommandEnd
  | mbxWaitLimitExpiry | telemetryRewrite | counterLowHalfRead | jigCtrAddWrite | cohOrphanClear | fcHeartbeatWrite | fcPinCfgWrite | fabWinWrite
  | faultRaise | safeStateComplete | notificationDeliver | collectorSweep | silkaiHeartbeatExpiry | fltNPulseEnd | spdmRequest
  | configurationRequest | ndHello | ndTierMode | ndAlloc | ndFree | ndJigLoad | ndJigStart | ndJigStop | ndFabJoin | ndFabLeave | ndFlowOpen
  | ndFlowClose | ndSnapshot | ndSnapshotUnpin | ndRestore | ndReplayVerify | ndPowerLimit | ndQuerySummary | ndQueryBenches | ndQueryNear
  | ndQueryFar | ndQueryEthernet | ndRegionRegister | ndRegionUnregister | ndPanelDefineTable | ndPanelDefineDefine | ndOptConfigJob
  | ndOptConfigEntry | ndCollGroupDefine | ndCollGroupDelete | ndReshardBuild | ndReshardBuildRun | ndReshardRun | ndFaultCfgSource | ndFaultCfgPin
  | ndFaultLogFaults | ndFaultLogOrphans | ndFaultLogRepairs | ndRetireBench | ndRetirePcRetrain | ndRetirePcRetire | ndRetireEthLane
  | ndTelemetryKerf | ndTelemetryPeriod | ndTelemetryRewrite | ndFwUpdateFirmware | ndFwUpdateConfig => exact .inl (onDev_next _ _)
  | mbxCmdWrite | mbxDoorbell | mbxJigGo => exact .inl (mbxWrite_next _ _ _ _ _)
  | fcSeverityWrite => exact .inl (execFcSeverityWrite_next _ _ _ _ _)
  | pwrOkRise | pwrOkFall | sysRstNAssert | sysRstNRelease | internalResetRelease | bootStageEnd | bootStageLimitExpiry | perstN0Release
  | perstN0Assert | pwrbrkNAssert | brakeEnd | refclkLoss | pllUnlock | ethRefclkLoss | ethRefclkReturn | oscSwitchover | thermtripAssert
  | jtagTrst | jtagUnlockResp | registerWrite | registerLowHalfWrite | ptLockSet | ptEntryWrite | jtagInstructionUpdate => exact .inr (by constructor)

/-- A row that acts on the control part is one function of control part and device, run by `onAll`. -/
theorem ActsOnCtl.exec_eq_onAll {i : Instr} (h : ActsOnCtl i) : ∃ f, ∀ s, exec i s = onAll f s := by
  unfold exec
  cases h <;> exact ⟨_, fun _ => rfl⟩

/-- R23: every command answers a next state, and the commands that wait are those that waited. -/
theorem exec_next (i : Instr) (s : State) : ∃ c d, exec i s = .next { s with ctl := c, dev := d } := by
  rcases exec_device_or_actsOnCtl i s with ⟨d, hd⟩ | hctl
  · exact ⟨s.ctl, d, hd⟩
  · obtain ⟨f, hf⟩ := hctl.exec_eq_onAll
    exact hf s ▸ onAll_next f s

/-- R23: a step goes on, with a command at the front of the queue or with none. -/
theorem step_goesOn (s : State) : s.goesOn := by
  unfold State.goesOn step
  split
  · exact ⟨_, rfl⟩
  · next i rest _ =>
    obtain ⟨c, d, h⟩ := exec_next i { s with pending := rest }
    exact ⟨_, h⟩

end Sys2Proof.Machine

open Sys2Proof Sys2Proof.Machine

/-- Settles O58: a command answers a next state that differs in the control part and the device alone, so that the queue stays. -/
theorem everyCommandGoesOn : Obligations.EveryCommandGoesOn := by
  refine ⟨fun i s => ?_, step_goesOn⟩
  obtain ⟨c, d, h⟩ := exec_next i s
  exact ⟨_, h, rfl⟩

end

section
/-! SUPPORT. What a register write does to the protection tables: only the registers of the boot block reach them, and only while PT_LOCK is 0. -/

namespace Sys2Proof.Machine

open Sys2Proof

/-- A locked protection table is still locked, with the same entries (R18, R438). -/
def KeepsTables (c c' : Ctl) : Prop := c.ptLock = true → c'.ptLock = true ∧ c'.pt = c.pt

theorem KeepsTables.rfl {c : Ctl} : KeepsTables c c := fun h => ⟨h, Eq.refl _⟩

theorem KeepsTables.of_eq {c c' : Ctl} (hl : c'.ptLock = c.ptLock) (hp : c'.pt = c.pt) : KeepsTables c c' := fun h => ⟨hl.trans h, hp⟩

/-- A choice keeps the tables where both its ends do. -/
theorem KeepsTables.ite_ctl {c x y : Ctl} {p : Prop} [Decidable p] (hx : KeepsTables c x) (hy : KeepsTables c y) : KeepsTables c (if p then x else y) := by
  split
  · exact hx
  · exact hy

theorem KeepsTables.ite {c : Ctl} {p : Prop} [Decidable p] {x y : Ctl × Dev} (hx : KeepsTables c x.1) (hy : KeepsTables c y.1) :
    KeepsTables c (if p then x else y).1 := by
  split
  · exact hx
  · exact hy

/-- R18: a write of the protection block keeps locked tables if what it does when it is let through does. -/
theorem ptWrite_keepsTables {ok : Bool} {f : Ctl → Ctl} {c : Ctl} (h : ok = true → KeepsTables c (f c)) (addr port : Nat) (d : Dev) :
    KeepsTables c (ptWrite ok addr port f c d).1 := by
  unfold ptWrite
  refine .ite .rfl ?_
  split
  · next hok => exact h hok
  · exact .rfl

/-- PT_LOCK can only be set: its write keeps locked tables. -/
theorem setPtLock_keepsTables (c : Ctl) : KeepsTables c { c with ptLock := true } := fun _ => ⟨Eq.refl _, Eq.refl _⟩

/-- R438: an entry's write is let through only while PT_LOCK is 0. -/
theorem ptEntryWrite_keepsTables (k : Nat) (high : Bool) (v : W64) (addr port : Nat) (c : Ctl) (d : Dev) :
    KeepsTables c (ptWrite (port == 15 && !c.ptLock) addr port (setPt k high v) c d).1 := by
  refine ptWrite_keepsTables (fun hok hl => ?_) addr port d
  simp [hl] at hok

/-- No action of a register, if one stands here, changes locked tables. -/
def RegKeepsTables (o : Option Reg) : Prop := ∀ r f, o = some r → r.write = .act f → ∀ p v c d, KeepsTables c (f p v c d).1

/-! ### The kinds of registers -/

@[simp] theorem regKeepsTables_none : RegKeepsTables none := nofun

/-- A register without an action of its own keeps the tables. -/
theorem regKeepsTables_some {r : Reg} (h : ∀ f, r.write ≠ .act f) : RegKeepsTables (some r) := by
  rintro _ f ⟨⟩ hf
  exact absurd hf (h f)

/-- A register with an action keeps the tables where its action does. -/
theorem regKeepsTables_act {w : Nat} {get : Ctl → Dev → Nat} {f : Nat → Nat → Ctl → Dev → Ctl × Dev} (h : ∀ p v c d, KeepsTables c (f p v c d).1) :
    RegKeepsTables (some { width := w, read := get, write := .act f }) := by
  rintro _ _ ⟨⟩ ⟨⟩
  exact h

@[simp] theorem regKeepsTables_roReg (w : Nat) (get : Ctl → Dev → Nat) : RegKeepsTables (roReg w get) := regKeepsTables_some nofun

@[simp] theorem regKeepsTables_timeReg (f : Ctl → Dev → Nat) : RegKeepsTables (timeReg f) := regKeepsTables_some nofun

@[simp] theorem regKeepsTables_rwReg (w : Nat) (get : Dev → Nat) (set : Nat → Dev → Dev) : RegKeepsTables (rwReg w get set) := regKeepsTables_some nofun

@[simp] theorem regKeepsTables_cnt32 (get : Dev → W32) (set : W32 → Dev → Dev) : RegKeepsTables (cnt32 get set) := regKeepsTables_rwReg _ _ _

@[simp] theorem regKeepsTables_cnt64 (get : Dev → W64) (set : W64 → Dev → Dev) : RegKeepsTables (cnt64 get set) := regKeepsTables_some nofun

@[simp] theorem regKeepsTables_onesReg (w : Nat) (get : Dev → Nat) (f : Nat → Dev → Dev) : RegKeepsTables (onesReg w get f) := regKeepsTables_some nofun

@[simp] theorem regKeepsTables_actDev (w : Nat) (get : Dev → Nat) (f : Nat → Nat → Ctl → Dev → Dev) : RegKeepsTables (actDev w get f) :=
  regKeepsTables_act (fun _ _ _ _ => .rfl)

@[simp] theorem regKeepsTables_actWork (w : Nat) (get : Dev → Nat) (f : Nat → Nat → Ctl → Dev → Dev) : RegKeepsTables (actWork w get f) :=
  regKeepsTables_act (fun _ _ _ _ => .rfl)

/-- The same register with its writes dropped acts on nothing. -/
@[simp] theorem regKeepsTables_dropped (o : Option Reg) : RegKeepsTables (o.map (fun x => { x with write := .dropped })) := by
  cases o with
  | none => exact regKeepsTables_none
  | some r => exact regKeepsTables_some nofun

@[simp] theorem regKeepsTables_mirrorReg (o : Option Reg) : RegKeepsTables (mirrorReg o) := regKeepsTables_dropped o

theorem RegKeepsTables.ite {p : Prop} [Decidable p] {a b : Option Reg} (ha : RegKeepsTables a) (hb : RegKeepsTables b) :
    RegKeepsTables (if p then a else b) := by
  split
  · exact ha
  · exact hb

@[simp] theorem regKeepsTables_ite (p : Prop) [Decidable p] (a b : Option Reg) :
    RegKeepsTables (if p then a else b) ↔ (p → RegKeepsTables a) ∧ (¬p → RegKeepsTables b) := by
  split <;> simp [*]

/-! ### The blocks of the map (R64) -/

@[simp] theorem engineReg_keepsTables (i m off : Nat) : RegKeepsTables (engineReg i m off) := by
  unfold engineReg
  split <;> simp

@[simp] theorem benchReg_keepsTables (i off : Nat) : RegKeepsTables (benchReg i off) := by
  unfold benchReg
  refine .ite (by simp) (.ite (by simp) (.ite (by simp) ?_))
  split <;> simp

@[simp] theorem nearReg_keepsTables (h off : Nat) : RegKeepsTables (nearReg h off) := by
  unfold nearReg
  split <;> simp

/-- An orphan's word is read-only, as a timestamp or not. -/
@[simp] theorem regKeepsTables_timeOrRo {p : Prop} [Decidable p] (f : Ctl → Dev → Nat) : RegKeepsTables ((if p then timeReg else roReg 64) f) := by
  split <;> simp

@[simp] theorem hostReg_keepsTables (off : Nat) : RegKeepsTables (hostReg off) := by
  unfold hostReg
  split <;> simp

@[simp] theorem homeReg_keepsTables (h off : Nat) : RegKeepsTables (homeReg h off) := by
  unfold homeReg
  refine .ite (by simp) (.ite (by simp) ?_)
  split <;> simp

@[simp] theorem stager0Reg_keepsTables (off : Nat) : RegKeepsTables (stager0Reg off) := by
  unfold stager0Reg
  split <;> simp

@[simp] theorem stagerReg_keepsTables (b off : Nat) : RegKeepsTables (stagerReg b off) := by
  unfold stagerReg
  split <;> simp

@[simp] theorem jigReg_keepsTables (j off : Nat) : RegKeepsTables (jigReg j off) := by
  unfold jigReg
  refine .ite (by simp) (.ite (by simp) (.ite (by simp) (.ite (by simp) ?_)))
  split <;> simp

@[simp] theorem planeReg_keepsTables (h off : Nat) : RegKeepsTables (planeReg h off) := by
  unfold planeReg
  split <;> simp

@[simp] theorem fabCntReg_keepsTables (off : Nat) : RegKeepsTables (fabCntReg off) := by
  unfold fabCntReg
  split <;> simp

@[simp] theorem fabricReg_keepsTables (off : Nat) : RegKeepsTables (fabricReg off) := by
  unfold fabricReg
  refine .ite (by simp) (.ite (by simp) (.ite (by simp) ?_))
  split <;> simp

@[simp] theorem collReg_keepsTables (off : Nat) : RegKeepsTables (collReg off) := by
  unfold collReg
  split <;> simp

/-- R438: a protection entry is written only while PT_LOCK is 0. -/
@[simp] theorem protReg_keepsTables (k : Nat) (high : Bool) : RegKeepsTables (protReg k high) :=
  regKeepsTables_act (fun p v c d => ptEntryWrite_keepsTables k high (BitVec.ofNat 64 v) (ptAddr k high) p c d)

/-- R18: PT_LOCK is never cleared by a write. -/
theorem ptLockAct_keepsTables (p v : Nat) (c : Ctl) (d : Dev) :
    KeepsTables c (if bitAt v 0 then ptWrite true 0x3F0001200800 p (fun c => { c with ptLock := true }) c d else (c, d)).1 :=
  .ite (ptWrite_keepsTables (fun _ => setPtLock_keepsTables c) _ _ _) .rfl

@[simp] theorem bootReg_keepsTables (off : Nat) : RegKeepsTables (bootReg off) := by
  unfold bootReg
  refine .ite (by simp) (.ite (by simp) ?_)
  split
  case h_4 => exact regKeepsTables_act ptLockAct_keepsTables
  all_goals simp

@[simp] theorem powerReg_keepsTables (off : Nat) : RegKeepsTables (powerReg off) := by
  unfold powerReg
  split <;> simp

@[simp] theorem collectorReg_keepsTables (off : Nat) : RegKeepsTables (collectorReg off) := by
  unfold collectorReg
  refine .ite (by simp) (.ite (by simp) (.ite (by simp) ?_))
  split <;> simp

@[simp] theorem mbxReg_keepsTables (k off : Nat) : RegKeepsTables (mbxReg k off) := by
  unfold mbxReg
  split <;> simp

@[simp] theorem pageReg_keepsTables (k off : Nat) : RegKeepsTables (pageReg k off) := by
  unfold pageReg
  split <;> simp

@[simp] theorem globalReg_keepsTables (port off : Nat) : RegKeepsTables (globalReg port off) := by
  unfold globalReg
  split <;> simp

@[simp] theorem windowReg_keepsTables (c : Ctl) (port off : Nat) : RegKeepsTables (windowReg c port off) := by
  unfold windowReg
  simp

/-- Whatever register a requester reaches, its action keeps locked tables. -/
theorem regAt_keepsTables (c : Ctl) (d : Dev) (port a : Nat) : RegKeepsTables (regAt c d port a) := by
  unfold regAt
  simp

/-! ### Writes of registers, whole and by halves -/

theorem writeWhole_keepsTables {r : Reg} (h : RegKeepsTables (some r)) (a port v : Nat) (c : Ctl) (d : Dev) :
    KeepsTables c (writeWhole r a port v c d).1 := by
  unfold writeWhole
  split
  case h_5 f hf => exact h r f rfl hf port v c d
  all_goals exact .rfl

theorem writeHalf_keepsTables {r : Reg} (h : RegKeepsTables (some r)) (a port v : Nat) (high : Bool) (c : Ctl) (d : Dev) :
    KeepsTables c (writeHalf r a port v high c d).1 := by
  unfold writeHalf
  refine .ite (.ite (writeWhole_keepsTables h _ _ _ _ _) .rfl) ?_
  dsimp only
  split
  · exact writeWhole_keepsTables h _ _ _ _ _
  · exact writeWhole_keepsTables h _ _ _ _ _

/-- R18, R438: a register write of any requester, width and address keeps locked tables. -/
theorem regWrite_keepsTables (port a width v : Nat) (c : Ctl) (d : Dev) : KeepsTables c (regWrite port a width v c d).1 := by
  have at_keeps {b : Nat} {r : Reg} (hr : regAt c d port b = some r) : RegKeepsTables (some r) := hr ▸ regAt_keepsTables c d port b
  unfold regWrite
  refine .ite .rfl (.ite .rfl (.ite ?_ (.ite ?_ .rfl)))
  · split
    · next r hr => exact .ite (writeWhole_keepsTables (at_keeps hr) _ _ _ _ _) (.ite (writeHalf_keepsTables (at_keeps hr) _ _ _ _ _ _) .rfl)
    · split
      · next r hr => exact .ite (writeHalf_keepsTables (at_keeps hr) _ _ _ _ _ _) .rfl
      · exact .rfl
  · split
    · next r hr => exact .ite (writeWhole_keepsTables (at_keeps hr) _ _ _ _ _) .rfl
    · exact .rfl

end Sys2Proof.Machine

end

section
/-! SUPPORT. What resets, boot, pins, clocks and JTAG do to the protection tables, and that locked tables stay. -/

namespace Sys2Proof.Machine

open Sys2Proof

/-! ### Boot (R430, R438) -/

theorem beginBoot_keepsTables {c c' : Ctl} (h : KeepsTables c c') (was : Ctl) (d : Dev) : KeepsTables c (beginBoot was c' d).1 := .ite_ctl h h

theorem halt_keepsTables (code : Nat) (c : Ctl) (d : Dev) : KeepsTables c (halt code c d).1 := .of_eq rfl rfl

theorem stage3_keepsTables (other : Bool) (obs : BootObs) (c : Ctl) (d : Dev) : KeepsTables c (stage3 other obs c d).1 :=
  .ite (.of_eq rfl rfl) (.ite (.of_eq rfl rfl) (halt_keepsTables _ _ _))

/-- R438: stage 5 writes the tables only where they are not locked yet. -/
theorem stage5_keepsTables (c : Ctl) (d : Dev) : KeepsTables c (stage5 c d).1 := by
  unfold stage5
  dsimp only
  split
  · exact .of_eq rfl rfl
  · next hopen => exact fun hl => absurd hl hopen

theorem stage6_keepsTables (obs : BootObs) (c : Ctl) (d : Dev) : KeepsTables c (stage6 obs c d).1 := by
  unfold stage6
  dsimp only
  split
  · exact .of_eq rfl rfl
  · exact halt_keepsTables _ _ _

theorem stage8_keepsTables (obs : BootObs) (c : Ctl) (d : Dev) : KeepsTables c (stage8 obs c d).1 :=
  .ite (.of_eq rfl rfl) (.ite (.of_eq rfl rfl) (.of_eq rfl rfl))

theorem bootStage_keepsTables (obs : BootObs) (c : Ctl) (d : Dev) : KeepsTables c (bootStage obs c d).1 := by
  unfold bootStage
  refine .ite .rfl ?_
  split
  case h_3 => exact stage3_keepsTables _ _ _ _
  case h_5 => exact stage5_keepsTables _ _
  case h_6 => exact stage6_keepsTables _ _ _
  case h_8 => exact stage8_keepsTables _ _ _
  all_goals exact .of_eq rfl rfl

theorem bootLimit_keepsTables (obs : BootObs) (c : Ctl) (d : Dev) : KeepsTables c (bootLimit obs c d).1 := by
  unfold bootLimit
  refine .ite .rfl ?_
  split
  case h_3 => exact stage3_keepsTables _ _ _ _
  case h_5 => exact stage6_keepsTables _ _ _
  case h_7 => exact stage8_keepsTables _ _ _
  all_goals exact .of_eq rfl rfl

theorem jtagRespond_keepsTables (sig : BitVec 768) (c : Ctl) (d : Dev) : KeepsTables c (jtagRespond sig c d).1 :=
  .ite .rfl (.ite (.of_eq rfl rfl) (.of_eq rfl rfl))

/-- R18, R438: what each row that acts on the control part, but for the two of a cold reset, does to a locked table. -/
theorem ActsOnCtl.keepsTables {i : Instr} (h : ActsOnCtl i) (hrise : i ≠ .pwrOkRise) (hfall : i ≠ .pwrOkFall) :
    ∃ f, (∀ s, exec i s = onAll f s) ∧ ∀ c d, KeepsTables c (f c d).1 := by
  unfold exec
  cases h with
  | pwrOkRise => exact absurd rfl hrise
  | pwrOkFall => exact absurd rfl hfall
  | bootStageEnd obs => exact ⟨_, fun _ => rfl, bootStage_keepsTables obs⟩
  | bootStageLimitExpiry obs tie => exact ⟨_, fun _ => rfl, fun c d => .ite (.ite .rfl .rfl) (bootLimit_keepsTables obs c d)⟩
  | sysRstNAssert => exact ⟨_, fun _ => rfl, fun _ _ => .ite (.of_eq rfl rfl) (.of_eq rfl rfl)⟩
  | sysRstNRelease => exact ⟨_, fun _ => rfl, fun c d => beginBoot_keepsTables (by exact .of_eq rfl rfl) c d⟩
  | internalResetRelease => exact ⟨_, fun _ => rfl, fun c d => .ite (beginBoot_keepsTables (by exact .of_eq rfl rfl) c d) .rfl⟩
  | jtagUnlockResp signature => exact ⟨_, fun _ => rfl, jtagRespond_keepsTables signature⟩
  | registerWrite port addr width value => exact ⟨_, fun _ => rfl, regWrite_keepsTables _ _ _ _⟩
  | registerLowHalfWrite port addr value => exact ⟨_, fun _ => rfl, regWrite_keepsTables _ _ _ _⟩
  | ptLockSet port => exact ⟨_, fun _ => rfl, fun c d => ptWrite_keepsTables (fun _ => setPtLock_keepsTables c) _ _ d⟩
  | ptEntryWrite port cls index high value => exact ⟨_, fun _ => rfl, ptEntryWrite_keepsTables _ _ _ _ _⟩
  | perstN0Assert => exact ⟨_, fun _ => rfl, fun _ _ => .ite (.of_eq rfl rfl) .rfl⟩
  | perstN0Release | pwrbrkNAssert | brakeEnd | refclkLoss | pllUnlock | ethRefclkLoss | ethRefclkReturn | jtagTrst =>
    exact ⟨_, fun _ => rfl, fun _ _ => .of_eq rfl rfl⟩
  | oscSwitchover => exact ⟨_, fun _ => rfl, fun _ _ => .ite_ctl .rfl (.of_eq rfl rfl)⟩
  | thermtripAssert => exact ⟨_, fun _ => rfl, fun _ _ => .ite_ctl (.of_eq rfl rfl) .rfl⟩
  | jtagInstructionUpdate instr => exact ⟨_, fun _ => rfl, fun _ _ => .ite_ctl .rfl (.of_eq rfl rfl)⟩

end Sys2Proof.Machine

open Sys2Proof Sys2Proof.Machine

/-- Settles O13: most commands act on the device alone; of those that act on the control part, boot's stage 5 and the writes of the protection
block alone reach the tables, and both ask for PT_LOCK 0 before they change an entry. -/
theorem lockedTablesStay : Obligations.LockedTablesStay := by
  intro i s t hrise hfall hlock hexec
  rcases exec_device_or_actsOnCtl i s with ⟨d, hd⟩ | hctl
  · obtain rfl : _ = t := Host.Outcome.next.inj (hd.symm.trans hexec)
    exact ⟨hlock, rfl⟩
  · obtain ⟨f, hf, hkeeps⟩ := hctl.keepsTables hrise hfall
    obtain rfl : _ = t := Host.Outcome.next.inj ((hf s).symm.trans hexec)
    exact hkeeps _ _ hlock

end

section
/-! SUPPORT. The rows of the protection block, let through or not. -/

namespace Sys2Proof.Machine

open Sys2Proof

section
variable {c : Ctl} {d : Dev} {port : Nat} (hlive : c.live = true) (harr : arrives d port = true)
include hlive harr

theorem ptWrite_open (addr : Nat) (f : Ctl → Ctl) : ptWrite true addr port f c d = (f c, d) := by simp [ptWrite, hlive, harr]

theorem ptWrite_shut (addr : Nat) (f : Ctl → Ctl) : ptWrite false addr port f c d = (c, dropWrite addr port c d) := by simp [ptWrite, hlive, harr]

end

/-- What a word of an entry becomes (R436), and that the other entries stay. -/
theorem setPt_low (k : Nat) (v : W64) (c : Ctl) : tabGet {} (setPt k false v c).pt k = { tabGet {} c.pt k with lo := v &&& 0x0000FFFFFFFFF00F } := by
  simp [setPt, ptMask]

theorem setPt_high (k : Nat) (v : W64) (c : Ctl) : tabGet {} (setPt k true v c).pt k = { tabGet {} c.pt k with hi := v &&& 0x0000FFFFFFFFF000 } := by
  simp [setPt, ptMask]

theorem setPt_ne {k j : Nat} (h : j ≠ k) (high : Bool) (v : W64) (c : Ctl) : tabGet {} (setPt k high v c).pt j = tabGet {} c.pt j := by
  simp [setPt, tabGet_mod_ne _ _ _ h]

/-- R438: Silkai's accesses arrive always, and its write of an entry is let through while PT_LOCK is 0. -/
theorem exec_ptEntryWrite_open {s : State} (hlive : s.Live) (hopen : s.ctl.ptLock = false) (cls : Fin 4) (i : Fin 32) (high : Bool) (v : W64) :
    exec (.ptEntryWrite 15 cls i high v) s = .next (s.withBoth (setPt (cls.val * 32 + i.val) high v s.ctl) s.here) := by
  refine onAll_eq ?_
  rw [hopen]
  exact ptWrite_open hlive rfl _ _

/-- R18: a write of PT_LOCK or of an entry that is not let through changes no table and is recorded. -/
theorem exec_ptEntryWrite_shut {s : State} (hlive : s.Live) (port : Fin 16) (harr : arrives s.dev port.val = true)
    (hshut : s.ctl.ptLock = true ∨ port ≠ 15) (cls : Fin 4) (i : Fin 32) (high : Bool) (v : W64) :
    exec (.ptEntryWrite port cls i high v) s = .next (s.withDev (dropWrite (ptAddr (cls.val * 32 + i.val) high) port.val s.ctl s.here)) := by
  have hok : (port.val == 15 && !s.ctl.ptLock) = false := by
    rcases hshut with hlock | hport
    · simp [hlock]
    · simp [show port.val ≠ 15 from fun h => hport (Fin.ext h)]
  refine onAll_eq (c := s.ctl) ?_
  rw [hok]
  exact ptWrite_shut hlive ((arrives_here s port.val).trans harr) _ _

end Sys2Proof.Machine

open Sys2Proof Sys2Proof.Machine

/-- Settles O12, row by row: PT_LOCK's write reaches the block or is dropped; Silkai's write of an entry, while PT_LOCK is 0, sets the word's bits
that are not reserved, and any other is dropped. -/
theorem protectionEntriesTakeWrites : Obligations.ProtectionEntriesTakeWrites := by
  intro s hlive
  refine ⟨?_, ?_, ?_, ?_, fun port cls i high v hshut harr => exec_ptEntryWrite_shut hlive port harr hshut cls i high v⟩
  · rintro port ⟨harr, hreach⟩
    refine onAll_eq ?_
    rw [hreach]
    exact ptWrite_open hlive ((arrives_here s port.val).trans harr) _ _
  · rintro port ⟨harr, hreach⟩
    refine onAll_eq (c := s.ctl) ?_
    rw [hreach]
    exact ptWrite_shut hlive ((arrives_here s port.val).trans harr) _ _
  · exact fun cls i v hopen => ⟨_, exec_ptEntryWrite_open hlive hopen cls i false v, setPt_low _ _ _, fun k hk => setPt_ne hk _ _ _⟩
  · exact fun cls i v hopen => ⟨_, exec_ptEntryWrite_open hlive hopen cls i true v, setPt_high _ _ _, fun k hk => setPt_ne hk _ _ _⟩

end

section
/-! SUPPORT. Bits of numbers and of registers after one of them is set. -/

namespace Sys2Proof.Machine

theorem bitAt_eq_testBit (w i : Nat) : bitAt w i = w.testBit i := by
  rw [bitAt, Nat.testBit_eq_decide_div_mod_eq, Nat.shiftRight_eq_div_pow]

/-- Setting a bit leaves the number's upper part, the bit, and its lower part. -/
theorem setBit_eq (w i : Nat) (b : Bool) : setBit w i b = 2 ^ i * (2 * (w / 2 ^ (i + 1)) + b.toNat) + w % 2 ^ i := by
  have hb : (if b then 1 else 0) % 2 ^ 1 = b.toNat := by cases b <;> rfl
  rw [setBit, setBits, hb, Nat.shiftLeft_eq, Nat.shiftLeft_eq, Nat.shiftRight_eq_div_pow, Nat.pow_succ,
    Nat.mul_add, Nat.mul_comm (w / _), Nat.mul_assoc, Nat.mul_comm b.toNat]

theorem testBit_two_mul_add_toNat (a k : Nat) (b : Bool) : (2 * a + b.toNat).testBit k = if k = 0 then b else a.testBit (k - 1) := by
  cases k with
  | zero => cases b <;> simp
  | succ k =>
    have : (2 * a + b.toNat) / 2 = a := by have := b.toNat_lt; omega
    simp [Nat.testBit_succ, this]

@[simp] theorem bitAt_setBit (w i k : Nat) (b : Bool) : bitAt (setBit w i b) k = if k = i then b else bitAt w k := by
  rw [bitAt_eq_testBit, bitAt_eq_testBit, setBit_eq, Nat.testBit_two_pow_mul_add _ (Nat.mod_lt _ (Nat.two_pow_pos i))]
  split
  · next hlt => rw [if_neg (by omega), Nat.testBit_mod_two_pow, decide_eq_true hlt, Bool.true_and]
  · next hge =>
    rw [testBit_two_mul_add_toNat]
    by_cases hki : k = i
    · rw [if_pos (by omega), if_pos hki]
    · rw [if_neg (by omega), if_neg hki, Nat.testBit_div_two_pow]
      congr 1
      omega

/-- A register of `n` bits holds the bits below `n` of what is put into it. -/
theorem bitAt_ofNat {n k : Nat} (hk : k < n) (w : Nat) : bitAt (BitVec.ofNat n w).toNat k = bitAt w k := by
  simp [bitAt_eq_testBit, Nat.testBit_mod_two_pow, hk]

theorem bitAt_toNat {n : Nat} (w : BitVec n) (k : Nat) : bitAt w.toNat k = w.getLsbD k := by
  rw [bitAt_eq_testBit, BitVec.testBit_toNat]

theorem foldRange_succ {σ : Type} (n : Nat) (s : σ) (f : Nat → σ → σ) : foldRange (n + 1) s f = f n (foldRange n s f) := by
  simp [foldRange, List.range_succ]

theorem mem_setBitsOf {w n k : Nat} : k ∈ setBitsOf w n ↔ k < n ∧ bitAt w k = true := by simp [setBitsOf]

end Sys2Proof.Machine

end

section
/-! SUPPORT. Banks of a bench: owners given, handovers ended, pairs changed, and the rows by which it is done. -/

namespace Sys2Proof.Machine

open Sys2Proof

/-! ### Owners and handovers (R110, R117, R118) -/

theorem mem_withPair (b : Bench) (k : Nat) : k ∈ withPair b k := by
  unfold withPair
  split
  · simp only [List.mem_cons, List.not_mem_nil, or_false]
    omega
  · simp

theorem withPair_lt {b : Bench} {k j : Nat} (hk : k < 16) (hj : j ∈ withPair b k) : j < 16 := by
  unfold withPair at hj
  split at hj
  · simp only [List.mem_cons, List.not_mem_nil, or_false] at hj
    omega
  · simp only [List.mem_cons, List.not_mem_nil, or_false] at hj
    omega

/-- Giving banks changes their owners and handovers alone. -/
theorem giveBanks_frame (m : Nat) (b : Bench) (banks : List Nat) : { giveBanks m b banks with owner := b.owner, handover := b.handover } = b := by
  unfold giveBanks
  induction banks generalizing b with
  | nil => rfl
  | cons i banks ih =>
    have h := ih { b with owner := tabSet 0 b.owner i m, handover := BitVec.ofNat 16 (setBit b.handover.toNat i true) }
    exact congrArg (fun x : Bench => { x with owner := b.owner, handover := b.handover }) h

theorem giveBanks_spad (m : Nat) (b : Bench) (banks : List Nat) : (giveBanks m b banks).spad = b.spad := by
  simpa using congrArg Bench.spad (giveBanks_frame m b banks)

theorem giveBanks_failCnt (m : Nat) (b : Bench) (banks : List Nat) : (giveBanks m b banks).handoverFailCnt = b.handoverFailCnt := by
  simpa using congrArg Bench.handoverFailCnt (giveBanks_frame m b banks)

theorem giveBanks_owner (m : Nat) (b : Bench) (banks : List Nat) (j : Nat) :
    tabGet 0 (giveBanks m b banks).owner j = if j ∈ banks then m else tabGet 0 b.owner j := by
  unfold giveBanks
  induction banks generalizing b with
  | nil => simp
  | cons i banks ih =>
    rw [List.foldl_cons, ih]
    by_cases hj : j = i
    · simp [hj]
    · simp [hj, tabGet_set_ne]

theorem giveBanks_handover (m : Nat) (b : Bench) (banks : List Nat) {j : Nat} (hj : j < 16) :
    bitAt (giveBanks m b banks).handover.toNat j = (decide (j ∈ banks) || bitAt b.handover.toNat j) := by
  unfold giveBanks
  induction banks generalizing b with
  | nil => simp
  | cons i banks ih =>
    rw [List.foldl_cons, ih, bitAt_ofNat hj, bitAt_setBit]
    by_cases hji : j = i
    · simp [hji]
    · simp [hji]

/-- R117: a bank given has its new owner, and its handover begins. -/
theorem giveBanks_mem {m : Nat} {b : Bench} {banks : List Nat} {j : Nat} (hj : j ∈ banks) (hlt : j < 16) :
    tabGet 0 (giveBanks m b banks).owner j = m ∧ bitAt (giveBanks m b banks).handover.toNat j = true :=
  ⟨by rw [giveBanks_owner, if_pos hj], by rw [giveBanks_handover _ _ _ hlt, decide_eq_true hj, Bool.true_or]⟩

section
variable {banks : List Nat} {m : Nat} {cond : Bool} {expect : Nat} {b : Bench}

theorem writeOwner_ok (h : ownerWriteOk banks m cond expect b = true) : writeOwner banks m cond expect b = giveBanks m b (banks.flatMap (withPair b)) :=
  if_pos h

theorem writeOwner_refused (h : ownerWriteOk banks m cond expect b = false) :
    writeOwner banks m cond expect b = { b with handoverFailCnt := cntInc b.handoverFailCnt } := if_neg (fun hok => Bool.false_ne_true (h.symm.trans hok))

end

theorem writeStatOwner_ok {v : Nat} {b : Bench} (hm : bits v 0 3 = 0 ∨ bits v 0 3 = 3 ∨ bits v 0 3 = 7)
    (hc : bitAt v 3 = false ∨ b.statOwner.toNat = bits v 4 3) :
    writeStatOwner v b = { b with statOwner := BitVec.ofNat 3 (bits v 0 3), statHandover := true } := by
  refine if_pos ?_
  simp only [Bool.and_eq_true, Bool.or_eq_true, beq_iff_eq, Bool.not_eq_true']
  exact ⟨by simpa [or_assoc] using hm, hc⟩

/-- R117: where a handover ends, its banks are open. -/
theorem bitAt_clearBits {l : List Nat} {j : Nat} (h : Nat) : bitAt (l.foldl (fun h k => setBit h k false) h) j = (bitAt h j && !decide (j ∈ l)) := by
  induction l generalizing h with
  | nil => simp
  | cons k l ih =>
    rw [List.foldl_cons, ih, bitAt_setBit]
    by_cases hjk : j = k
    · simp [hjk]
    · simp [hjk]

theorem endHandover_bank {k : Nat} (hk : k < 16) (b : Bench) : bitAt (endHandover k b).handover.toNat k = false ∧ (endHandover k b).owner = b.owner := by
  unfold endHandover
  rw [if_neg (by omega)]
  refine ⟨?_, rfl⟩
  rw [bitAt_ofNat hk, bitAt_clearBits, decide_eq_true (mem_withPair b k), Bool.not_true, Bool.and_false]

/-! ### Pairs (R109) -/

/-- After the first `n` bits of a write of `v` to SPAD_PAIR: those bits hold, the others are as they were, and no owner, handover or count changed. -/
structure PairsWritten (v n : Nat) (b x : Bench) : Prop where
  owner : x.owner = b.owner
  handover : x.handover = b.handover
  failCnt : x.handoverFailCnt = b.handoverFailCnt
  paired : ∀ k < 8, bitAt x.paired.toNat k = if k < n then bitAt v k else bitAt b.paired.toNat k

/-- R109: bit `k` may take the value of `v`: it has it already, or both its banks are NONE and settled. -/
def PairFree (v k : Nat) (b : Bench) : Prop :=
  bitAt v k ≠ bitAt b.paired.toNat k → tabGet 0 b.owner (2 * k) = 7 ∧ tabGet 0 b.owner (2 * k + 1) = 7 ∧ bits b.handover.toNat (2 * k) 2 = 0

theorem PairsWritten.step {v n free : Nat} {b x : Bench} (h : PairsWritten v n b x) (hn : n < 8) (hfree : PairFree v n b) :
    PairsWritten v (n + 1) b (writePairBit free v n x) := by
  have hbit : bitAt x.paired.toNat n = bitAt b.paired.toNat n := by rw [h.paired n hn, if_neg (by omega)]
  unfold writePairBit
  split
  · next heq =>
    refine ⟨h.owner, h.handover, h.failCnt, fun k hk => ?_⟩
    rw [h.paired k hk]
    rcases Nat.lt_trichotomy k n with hlt | rfl | hgt
    · rw [if_pos hlt, if_pos (by omega)]
    · rw [if_neg (by omega), if_pos (by omega), heq, hbit]
    · rw [if_neg (by omega), if_neg (by omega)]
  · next hne =>
    obtain ⟨hlo, hhi, hset⟩ := hfree (hbit ▸ hne)
    rw [if_pos (by simp [h.owner, h.handover, hlo, hhi, hset])]
    refine ⟨h.owner, h.handover, h.failCnt, fun k hk => ?_⟩
    rw [bitAt_ofNat hk, bitAt_setBit, h.paired k hk]
    rcases Nat.lt_trichotomy k n with hlt | rfl | hgt
    · rw [if_neg (by omega), if_pos hlt, if_pos (by omega)]
    · rw [if_pos rfl, if_pos (by omega)]
    · rw [if_neg (by omega), if_neg (by omega), if_neg (by omega)]

theorem pairsWritten_foldRange {v free : Nat} {b : Bench} (hfree : ∀ k < 8, PairFree v k b) {n : Nat} (hn : n ≤ 8) :
    PairsWritten v n b (foldRange n b (writePairBit free v)) := by
  induction n with
  | zero => exact ⟨rfl, rfl, rfl, by simp [foldRange]⟩
  | succ n ih =>
    rw [foldRange_succ]
    exact (ih (by omega)).step (by omega) (hfree n (by omega))

theorem PairsWritten.paired_eq {v : W32} {b x : Bench} (h : PairsWritten v.toNat 8 b x) : x.paired = v.extractLsb' 0 8 := by
  refine BitVec.eq_of_getLsbD_eq (fun k hk => ?_)
  rw [← bitAt_toNat, h.paired k hk, if_pos hk, bitAt_toNat, BitVec.getLsbD_extractLsb', decide_eq_true hk, Bool.true_and, Nat.zero_add]

/-! ### Rows of a bench's block (R19, R66) -/

/-- A row of a bench in use, let through, does its work on the bench. -/
theorem benchRow_open {s : State} {port i off : Nat} (hw : s.Works) (hact : s.dev.benchActive i = true) (h : s.CsrOpen port (benchAddr i off) 4)
    (f : Bench → Bench) : onWork (benchRow port i off f) s = .next (s.withDev (s.here.modBench i f)) :=
  (guardedRow_open hw h _).trans (congrArg _ (congrArg _ (if_pos hact)))

/-- R110, R118: a write of an owner that takes effect gives the banks it selects, each with the other of its pair. -/
theorem ownerRow_open {s : State} {port i off : Nat} (hw : s.Works) (hact : s.dev.benchActive i = true) (h : s.CsrOpen port (benchAddr i off) 4)
    {banks : List Nat} {m : Nat} {cond : Bool} {expect : Nat} (hok : ownerWriteOk banks m cond expect (s.dev.bench i) = true) :
    onWork (benchRow port i off (writeOwner banks m cond expect)) s = .next (s.withDev (s.here.modBench i
      (fun _ => giveBanks m (s.dev.bench i) (banks.flatMap (withPair (s.dev.bench i)))))) :=
  (benchRow_open hw hact h _).trans (congrArg _ (congrArg _ (modBench_congr (writeOwner_ok hok))))

theorem exec_spadHandoverEnd {s : State} (hw : s.Works) (i : Fin 132) (k : Fin 17) :
    exec (.spadHandoverEnd i k) s = .next (s.withDev (s.here.modBench i.val (endHandover k.val))) :=
  onWork_eq (f := fun _ d => d.modBench i.val (endHandover k.val)) hw rfl

end Sys2Proof.Machine

open Sys2Proof Sys2Proof.Machine

/-- Settles O16: each row is let through, dropped or not arrived; what a row let through makes of the bench is given by `giveBanks_mem`,
`writeStatOwner_ok`, `pairsWritten_foldRange` and `endHandover_bank`. -/
theorem bankOwnersChange : Obligations.BankOwnersChange := by
  intro s i p hw hact
  refine ⟨?_, ?_, ?_, ?_, ?_, ?_, ?_, ?_⟩
  · intro k v hok hopen
    have hmem (j : Nat) : j ∈ [k.val].flatMap (withPair (s.dev.bench i.val)) ↔ j ∈ withPair (s.dev.bench i.val) k.val := by simp
    refine ⟨_, ownerRow_open hw hact hopen hok, fun j hj => giveBanks_mem ((hmem j).2 hj) (withPair_lt k.isLt hj), fun j hj => ?_,
      giveBanks_spad _ _ _, giveBanks_failCnt _ _ _⟩
    rw [giveBanks_owner, if_neg (fun h => hj ((hmem j).1 h))]
  · intro k v hrefused hopen
    refine (benchRow_open hw hact hopen _).trans (congrArg _ (congrArg _ (modBench_congr (writeOwner_refused hrefused))))
  · intro v hok hopen
    refine ⟨_, ownerRow_open hw hact hopen hok, fun k hk hbit => giveBanks_mem ?_ hk, giveBanks_spad _ _ _⟩
    exact List.mem_flatMap.2 ⟨k, mem_setBitsOf.2 ⟨hk, hbit⟩, mem_withPair _ k⟩
  · intro v hm hc hopen
    exact (benchRow_open hw hact hopen _).trans (congrArg _ (congrArg _ (modBench_congr (writeStatOwner_ok hm hc))))
  · intro v hfree hopen
    have hpairs := pairsWritten_foldRange (free := s.dev.free) hfree (Nat.le_refl 8)
    exact ⟨_, (guardedRow_open hw hopen _).trans (congrArg _ (congrArg _ (if_pos hact))), hpairs.paired_eq, hpairs.owner, hpairs.failCnt⟩
  · exact exec_spadHandoverEnd hw i 16
  · exact fun k hk => ⟨endHandover k.val (s.dev.bench i.val), exec_spadHandoverEnd hw i k, endHandover_bank hk _⟩
  · intro k v x hx
    simp only [List.mem_cons, List.not_mem_nil, or_false] at hx
    rcases hx with rfl | rfl | rfl | rfl
    all_goals exact ⟨fun h => guardedRow_shut hw h _, fun h => guardedRow_absent hw h _⟩

end

section
/-! SUPPORT. Register writes and reads by width, and what stands at the addresses of MX_BUSY_CLK and JIG_CTR_ADD. -/

namespace Sys2Proof.Machine

open Sys2Proof

/-- A high half kept and a low half written (R20). -/
theorem ofNat_highHalf_add (x : W64) (v : W32) : BitVec.ofNat 64 (x.toNat / 2 ^ 32 * 2 ^ 32 + v.toNat % 2 ^ 32) = x.extractLsb' 32 32 ++ v := by
  refine BitVec.eq_of_toNat_eq ?_
  have hx := x.isLt
  have hv := v.isLt
  have hlow : x.toNat / 2 ^ 32 * 2 ^ 32 + v.toNat < 2 ^ 64 := by omega
  rw [BitVec.toNat_ofNat, Nat.mod_eq_of_lt hv, Nat.mod_eq_of_lt hlow, BitVec.toNat_append, BitVec.extractLsb'_toNat,
    ← Nat.shiftLeft_add_eq_or_of_lt hv, Nat.shiftLeft_eq, Nat.shiftRight_eq_div_pow, Nat.mod_eq_of_lt (by omega)]

/-! ### Accesses that the tables let through (R16, R19, R20) -/

section
variable {c : Ctl} {d : Dev} {port a n : Nat} {r : Reg}

/-- R66: an access that the tables permit, or that is not a core's, is not refused by them. -/
theorem not_refused {ty : Nat} (h : 8 ≤ port ∨ ptPermits c .puwell ty a (max 1 n) = true) :
    ¬(port < 8 ∧ (!ptPermits c .puwell ty a (max 1 n)) = true) := by
  rintro ⟨hlt, hno⟩
  rcases h with h | h
  · omega
  · simp [h] at hno

section
variable (hlive : c.live = true) (hcsr : isCsr a = true) (harr : arrives d port = true)
include hlive hcsr harr

theorem regWrite_word (hpt : 8 ≤ port ∨ ptPermits c .puwell 2 a 4 = true) (hal : a % 4 = 0) (hr : regAt c d port a = some r) (hw : r.width = 32) (v : Nat) :
    regWrite port a 4 v c d = writeWhole r a port (v % 2 ^ 32) c d := by
  unfold regWrite
  rw [if_neg (by simp [hlive, hcsr, harr]), if_neg (not_refused (n := 4) hpt), if_pos ⟨rfl, hal⟩, hr]
  exact if_pos hw

theorem regWrite_low (hpt : 8 ≤ port ∨ ptPermits c .puwell 2 a 4 = true) (hal : a % 8 = 0) (hr : regAt c d port a = some r) (hw : r.width = 64) (v : Nat) :
    regWrite port a 4 v c d = writeHalf r a port (v % 2 ^ 32) false c d := by
  unfold regWrite
  rw [if_neg (by simp [hlive, hcsr, harr]), if_neg (not_refused (n := 4) hpt), if_pos ⟨rfl, by omega⟩, hr]
  simp [hw, hal]

theorem regWrite_high (hpt : 8 ≤ port ∨ ptPermits c .puwell 2 a 4 = true) (hal : a % 8 = 4) (hnone : regAt c d port a = none)
    (hr : regAt c d port (a - 4) = some r) (hw : r.width = 64) (v : Nat) :
    regWrite port a 4 v c d = writeHalf r (a - 4) port (v % 2 ^ 32) true c d := by
  unfold regWrite
  rw [if_neg (by simp [hlive, hcsr, harr]), if_neg (not_refused (n := 4) hpt), if_pos ⟨rfl, by omega⟩, hnone, hr]
  exact if_pos ⟨hw, hal⟩

theorem regWrite_double (hpt : 8 ≤ port ∨ ptPermits c .puwell 2 a 8 = true) (hal : a % 8 = 0) (hr : regAt c d port a = some r) (hw : r.width = 64) (v : Nat) :
    regWrite port a 8 v c d = writeWhole r a port v c d := by
  unfold regWrite
  rw [if_neg (by simp [hlive, hcsr, harr]), if_neg (not_refused (n := 8) hpt), if_neg (by simp), if_pos ⟨rfl, hal⟩, hr]
  exact if_pos hw

theorem regWrite_double_absent (hpt : 8 ≤ port ∨ ptPermits c .puwell 2 a 8 = true) (hnone : regAt c d port a = none) (v : Nat) :
    regWrite port a 8 v c d = (c, dropWrite a port c d) := by
  unfold regWrite
  rw [if_neg (by simp [hlive, hcsr, harr]), if_neg (not_refused (n := 8) hpt), if_neg (by omega), hnone]
  simp

end

section
variable (hcsr : isCsr a = true) (harr : arrives d port = true)
include hcsr harr

theorem regRead_word (hpt : 8 ≤ port ∨ ptPermits c .puwell 1 a 4 = true) (hal : a % 4 = 0) (hr : regAt c d port a = some r) (hw : r.width = 32) :
    regRead port a 4 c d = d.emit (.value port a (r.read c d % 2 ^ 32)) := by
  unfold regRead
  rw [if_neg (by simp [hcsr, harr]), if_neg (not_refused (n := 4) hpt), if_pos ⟨rfl, hal⟩, hr]
  exact if_pos hw

theorem regRead_low (hpt : 8 ≤ port ∨ ptPermits c .puwell 1 a 4 = true) (hal : a % 8 = 0) (hr : regAt c d port a = some r) (hw : r.width = 64) :
    regRead port a 4 c d = readLow r a port c d := by
  unfold regRead
  rw [if_neg (by simp [hcsr, harr]), if_neg (not_refused (n := 4) hpt), if_pos ⟨rfl, by omega⟩, hr]
  simp [hw, hal]

theorem regRead_high (hpt : 8 ≤ port ∨ ptPermits c .puwell 1 a 4 = true) (hal : a % 8 = 4) (hnone : regAt c d port a = none)
    (hr : regAt c d port (a - 4) = some r) (hw : r.width = 64) : regRead port a 4 c d = readHigh r (a - 4) port c d := by
  unfold regRead
  rw [if_neg (by simp [hcsr, harr]), if_neg (not_refused (n := 4) hpt), if_pos ⟨rfl, by omega⟩, hnone, hr]
  exact if_pos ⟨hw, hal⟩

theorem regRead_double (hpt : 8 ≤ port ∨ ptPermits c .puwell 1 a 8 = true) (hal : a % 8 = 0) (hr : regAt c d port a = some r) (hw : r.width = 64) :
    regRead port a 8 c d = d.emit (.value port a (r.read c d % 2 ^ 64)) := by
  unfold regRead
  rw [if_neg (by simp [hcsr, harr]), if_neg (not_refused (n := 8) hpt), if_neg (by simp), if_pos ⟨rfl, hal⟩, hr]
  exact if_pos hw

/-- R19: a read of a width that is neither 4 nor 8, permitted or not, answers zero and is recorded. -/
theorem regRead_otherWidth (h4 : n ≠ 4) (h8 : n ≠ 8) : regRead port a n c d = (dropRead a port c d).emit (.value port a 0) := by
  simp [regRead, hcsr, harr, h4, h8]

theorem regRead_absent (hnone : regAt c d port a = none) (hbelow : regAt c d port (a - 4) = none) :
    regRead port a 4 c d = (dropRead a port c d).emit (.value port a 0) := by
  simp [regRead, hcsr, harr, hnone, hbelow]

end
end

/-! ### Registers at their addresses (R64) -/

/-- A register of a bench in use, as Silkai reaches it. -/
theorem regAt_bench (c : Ctl) {d : Dev} {i off : Nat} (hi : i < 132) (hoff : off < 0x10000) (hact : d.benchActive i = true) :
    regAt c d 15 (benchAddr i off) = benchReg i off := by
  have ho : benchAddr i off - 0x3F0000000000 = 0x100000000 + i * 0x10000 + off := by
    unfold benchAddr
    omega
  have hdiv : (0x100000000 + i * 0x10000 + off - 0x100000000) / 0x10000 = i := by omega
  have hmod : (0x100000000 + i * 0x10000 + off) % 0x10000 = off := by omega
  unfold regAt
  simp only [ho, hdiv, hmod, hact]
  rw [if_neg (by unfold benchAddr; omega)]
  rw [if_neg (by omega), if_neg (by decide)]
  repeat rw [if_neg (by omega)]
  rw [if_pos (by omega), if_pos trivial]

/-- MX_BUSY_CLK of a bench. -/
def busyClkReg (i : Nat) : Reg :=
  { width := 64, read := fun _ d => (d.bench i).mx.busyClk.toNat,
    write := .value (fun v d => d.modBench i (fun b => { b with mx := { b.mx with busyClk := BitVec.ofNat 64 v } })), halves := true }

theorem benchReg_busyClk (i : Nat) : benchReg i 0x4018 = some (busyClkReg i) := rfl
theorem benchReg_busyClk_high (i : Nat) : benchReg i 0x401C = none := rfl

/-- JIG_CTR_ADD of a jig. -/
def ctrAddReg (j : Nat) : Reg := { width := 64, read := fun _ _ => 0, write := .act (fun p v c d => (c, devCtrAdd j p v c d)) }

theorem regAt_ctrAdd (c : Ctl) (d : Dev) : regAt c d 15 0x3F0002000040 = some (ctrAddReg 4) := rfl
theorem regAt_ctrAdd_high (c : Ctl) (d : Dev) : regAt c d 15 0x3F0002000044 = none := rfl

/-- R20, R21: a counter loads what is written; a write of its low half keeps the high one. -/
theorem writeHalf_busyClk_low (i a port : Nat) (v : W32) (c : Ctl) (d : Dev) :
    writeHalf (busyClkReg i) a port (v.toNat % 2 ^ 32) false c d =
      (c, d.modBench i (fun b => { b with mx := { b.mx with busyClk := (d.bench i).mx.busyClk.extractLsb' 32 32 ++ v } })) := by
  have hjoin : BitVec.ofNat 64 ((d.bench i).mx.busyClk.toNat / 2 ^ 32 * 2 ^ 32 + v.toNat % 2 ^ 32) = (d.bench i).mx.busyClk.extractLsb' 32 32 ++ v :=
    ofNat_highHalf_add _ v
  rw [← hjoin]
  rfl

theorem readLow_busyClk (i a port : Nat) (c : Ctl) (d : Dev) : readLow (busyClkReg i) a port c d =
    { d.emit (.value port a ((d.bench i).mx.busyClk.toNat % 2 ^ 32)) with
      hiLatch := tabPut d.hiLatch (latchKey port a) ((d.bench i).mx.busyClk.extractLsb' 32 32) } := by
  have hhigh : BitVec.ofNat 32 ((d.bench i).mx.busyClk.toNat / 2 ^ 32) = (d.bench i).mx.busyClk.extractLsb' 32 32 := by
    rw [← Nat.shiftRight_eq_div_pow]
    rfl
  rw [← hhigh]
  rfl

theorem readHigh_busyClk {i a port : Nat} {c : Ctl} {d : Dev} {h : W32} (hl : tabFind d.hiLatch (latchKey port a) = some h) :
    readHigh (busyClkReg i) a port c d = { d with hiLatch := tabDel d.hiLatch (latchKey port a) }.emit (.value port (a + 4) h.toNat) := by
  simp [readHigh, busyClkReg, hl]

/-- R234: an addition to a counter that the jig has is a signal. -/
theorem devCtrAdd_signal {j v : Nat} {d : Dev} (hv : bits v 0 12 < ctrCount j) (hs : d.fc.entering = false) (port : Nat) (c : Ctl) :
    devCtrAdd j port v c d = d.signal j (bits v 0 12) (bits v 32 32) := by
  simp [devCtrAdd, hs, Nat.not_le.2 hv]

/-- R524: the low half of JIG_CTR_ADD waits in the requester's latch, and the high half acts with it. -/
theorem writeHalf_ctrAdd_low (port v : Nat) (c : Ctl) (d : Dev) : writeHalf (ctrAddReg 4) 0x3F0002000040 port v false c d =
    (c, { d with loLatch := tabSet 0 d.loLatch (latchKey port 0x3F0002000040) (BitVec.ofNat 32 v) }) := rfl

theorem writeHalf_ctrAdd_high (port v : Nat) (c : Ctl) (d : Dev) : writeHalf (ctrAddReg 4) 0x3F0002000040 port v true c d =
    (c, devCtrAdd 4 port (v * 2 ^ 32 + (tabGet 0 d.loLatch (latchKey port 0x3F0002000040)).toNat) c
      { d with loLatch := tabDel d.loLatch (latchKey port 0x3F0002000040) }) := rfl

end Sys2Proof.Machine

end

section
/-! SUPPORT. The rows of register accesses, and the counter and the action register that stand for their kinds. -/

namespace Sys2Proof.Machine

open Sys2Proof

theorem exec_registerWrite (p : Fin 16) (a : BitVec 48) (n : Nat) (v : W64) (s : State) :
    exec (.registerWrite p a n v) s = onAll (regWrite p.val a.toNat n v.toNat) s := rfl

theorem exec_registerLowHalfWrite (p : Fin 16) (a : BitVec 48) (v : W32) (s : State) :
    exec (.registerLowHalfWrite p a v) s = onAll (regWrite p.val a.toNat 4 v.toNat) s := rfl

section
variable {s : State} {p : Fin 16} {a : BitVec 48} {r : Reg} (hlive : s.Live) (harr : arrives s.here p.val = true) (hcsr : isCsr a.toNat = true)
include hlive harr hcsr

theorem exec_registerWrite_word (hpt : 8 ≤ p.val ∨ ptPermits s.ctl .puwell 2 a.toNat 4 = true) (hal : a.toNat % 4 = 0)
    (hr : regAt s.ctl s.here p.val a.toNat = some r) (hw : r.width = 32) (v : W64) : exec (.registerWrite p a 4 v) s =
      .next (s.withBoth (writeWhole r a.toNat p.val (v.toNat % 2 ^ 32) s.ctl s.here).1 (writeWhole r a.toNat p.val (v.toNat % 2 ^ 32) s.ctl s.here).2) :=
  (exec_registerWrite _ _ _ _ _).trans (onAll_eq (regWrite_word hlive hcsr harr hpt hal hr hw _))

theorem exec_registerWrite_double (hpt : 8 ≤ p.val ∨ ptPermits s.ctl .puwell 2 a.toNat 8 = true) (hal : a.toNat % 8 = 0)
    (hr : regAt s.ctl s.here p.val a.toNat = some r) (hw : r.width = 64) (v : W64) : exec (.registerWrite p a 8 v) s =
      .next (s.withBoth (writeWhole r a.toNat p.val v.toNat s.ctl s.here).1 (writeWhole r a.toNat p.val v.toNat s.ctl s.here).2) :=
  (exec_registerWrite _ _ _ _ _).trans (onAll_eq (regWrite_double hlive hcsr harr hpt hal hr hw _))

theorem exec_registerWrite_absent (hpt : 8 ≤ p.val ∨ ptPermits s.ctl .puwell 2 a.toNat 8 = true) (hnone : regAt s.ctl s.here p.val a.toNat = none)
    (v : W64) : exec (.registerWrite p a 8 v) s = .next (s.withDev (dropWrite a.toNat p.val s.ctl s.here)) :=
  (exec_registerWrite _ _ _ _ _).trans (onAll_eq (regWrite_double_absent hlive hcsr harr hpt hnone _))

theorem exec_registerLowHalfWrite_low (hpt : 8 ≤ p.val ∨ ptPermits s.ctl .puwell 2 a.toNat 4 = true) (hal : a.toNat % 8 = 0)
    (hr : regAt s.ctl s.here p.val a.toNat = some r) (hw : r.width = 64) (v : W32) {c : Ctl} {d : Dev}
    (hd : writeHalf r a.toNat p.val (v.toNat % 2 ^ 32) false s.ctl s.here = (c, d)) :
    exec (.registerLowHalfWrite p a v) s = .next (s.withBoth c d) :=
  (exec_registerLowHalfWrite _ _ _ _).trans (onAll_eq ((regWrite_low hlive hcsr harr hpt hal hr hw _).trans hd))

theorem exec_registerLowHalfWrite_high (hpt : 8 ≤ p.val ∨ ptPermits s.ctl .puwell 2 a.toNat 4 = true) (hal : a.toNat % 8 = 4)
    (hnone : regAt s.ctl s.here p.val a.toNat = none) (hr : regAt s.ctl s.here p.val (a.toNat - 4) = some r) (hw : r.width = 64) (v : W32)
    {c : Ctl} {d : Dev} (hd : writeHalf r (a.toNat - 4) p.val (v.toNat % 2 ^ 32) true s.ctl s.here = (c, d)) :
    exec (.registerLowHalfWrite p a v) s = .next (s.withBoth c d) :=
  (exec_registerLowHalfWrite _ _ _ _).trans (onAll_eq ((regWrite_high hlive hcsr harr hpt hal hnone hr hw _).trans hd))

theorem exec_read_word (hpt : 8 ≤ p.val ∨ ptPermits s.ctl .puwell 1 a.toNat 4 = true) (hal : a.toNat % 4 = 0)
    (hr : regAt s.ctl s.here p.val a.toNat = some r) (hw : r.width = 32) :
    exec (.counterLowHalfRead p a) s = .next (s.withDev (s.here.emit (.value p.val a.toNat (r.read s.ctl s.here % 2 ^ 32)))) :=
  onDev_eq hlive (regRead_word hcsr harr hpt hal hr hw)

theorem exec_read_double (hpt : 8 ≤ p.val ∨ ptPermits s.ctl .puwell 1 a.toNat 8 = true) (hal : a.toNat % 8 = 0)
    (hr : regAt s.ctl s.here p.val a.toNat = some r) (hw : r.width = 64) :
    exec (.counterLowHalfRead p a 8) s = .next (s.withDev (s.here.emit (.value p.val a.toNat (r.read s.ctl s.here % 2 ^ 64)))) :=
  onDev_eq hlive (regRead_double hcsr harr hpt hal hr hw)

theorem exec_read_low (hpt : 8 ≤ p.val ∨ ptPermits s.ctl .puwell 1 a.toNat 4 = true) (hal : a.toNat % 8 = 0)
    (hr : regAt s.ctl s.here p.val a.toNat = some r) (hw : r.width = 64) :
    exec (.counterLowHalfRead p a) s = .next (s.withDev (readLow r a.toNat p.val s.ctl s.here)) :=
  onDev_eq hlive (regRead_low hcsr harr hpt hal hr hw)

theorem exec_read_high (hpt : 8 ≤ p.val ∨ ptPermits s.ctl .puwell 1 a.toNat 4 = true) (hal : a.toNat % 8 = 4)
    (hnone : regAt s.ctl s.here p.val a.toNat = none) (hr : regAt s.ctl s.here p.val (a.toNat - 4) = some r) (hw : r.width = 64) :
    exec (.counterLowHalfRead p a) s = .next (s.withDev (readHigh r (a.toNat - 4) p.val s.ctl s.here)) :=
  onDev_eq hlive (regRead_high hcsr harr hpt hal hnone hr hw)

/-- R19: what no register answers is answered with zero. -/
theorem exec_read_otherWidth {n : Nat} (h4 : n ≠ 4) (h8 : n ≠ 8) : exec (.counterLowHalfRead p a n) s =
    .next (s.withDev ((dropRead a.toNat p.val s.ctl s.here).emit (.value p.val a.toNat 0))) :=
  onDev_eq hlive (regRead_otherWidth hcsr harr h4 h8)

theorem exec_read_absent (hnone : regAt s.ctl s.here p.val a.toNat = none) (hbelow : regAt s.ctl s.here p.val (a.toNat - 4) = none) :
    exec (.counterLowHalfRead p a) s = .next (s.withDev ((dropRead a.toNat p.val s.ctl s.here).emit (.value p.val a.toNat 0))) :=
  onDev_eq hlive (regRead_absent hcsr harr hnone hbelow)

end

/-! ### MX_BUSY_CLK of a bench, as Silkai reaches it -/

theorem busyClk_toNat (i : Fin 132) : (0x3F0100004018 + BitVec.ofNat 48 (0x10000 * i.val)).toNat = 0x3F0100004018 + 0x10000 * i.val := by
  have := i.isLt
  bv_omega

theorem busyClkHigh_toNat (i : Fin 132) : (0x3F010000401C + BitVec.ofNat 48 (0x10000 * i.val)).toNat = 0x3F010000401C + 0x10000 * i.val := by
  have := i.isLt
  bv_omega

theorem isCsr_bench {a : Nat} (hlo : 0x3F0100000000 ≤ a) (hhi : a < 0x3F8000000000) : isCsr a = true := by
  unfold isCsr
  rw [decide_eq_true (by omega), decide_eq_true hhi, decide_eq_false (by omega)]
  rfl

section
variable (c : Ctl) {d : Dev} (i : Fin 132) (hact : d.benchActive i.val = true)
include hact

theorem regAt_busyClk : regAt c d 15 (0x3F0100004018 + 0x10000 * i.val) = some (busyClkReg i.val) := by
  rw [show 0x3F0100004018 + 0x10000 * i.val = benchAddr i.val 0x4018 by unfold benchAddr; omega, regAt_bench c i.isLt (by omega) hact]
  exact benchReg_busyClk i.val

theorem regAt_busyClk_high : regAt c d 15 (0x3F010000401C + 0x10000 * i.val) = none := by
  rw [show 0x3F010000401C + 0x10000 * i.val = benchAddr i.val 0x401C by unfold benchAddr; omega, regAt_bench c i.isLt (by omega) hact]
  exact benchReg_busyClk_high i.val

end

section
variable {s : State} (hlive : s.Live) (i : Fin 132) (hact : s.dev.benchActive i.val = true) {a : BitVec 48}
include hlive hact

section
variable (ha : a.toNat = 0x3F0100004018 + 0x10000 * i.val)
include ha

/-- R21: a counter loads the value written. -/
theorem exec_write_busyClk (v : W64) : exec (.registerWrite 15 a 8 v) s =
    .next (s.withDev (s.here.modBench i.val (fun b => { b with mx := { b.mx with busyClk := v } }))) := by
  have hr : regAt s.ctl s.here 15 a.toNat = some (busyClkReg i.val) := ha ▸ regAt_busyClk s.ctl i hact
  rw [exec_registerWrite_double (p := 15) hlive rfl (isCsr_bench (by omega) (by omega)) (.inl (by decide)) (by omega) hr rfl v]
  simp only [writeWhole, busyClkReg, BitVec.ofNat_toNat, BitVec.setWidth_eq]
  rfl

/-- R20: a 64-bit counter written by its low half keeps its high half. -/
theorem exec_writeLow_busyClk (v : W32) : exec (.registerLowHalfWrite 15 a v) s =
    .next (s.withDev (s.here.modBench i.val (fun b =>
      { b with mx := { b.mx with busyClk := (s.dev.bench i.val).mx.busyClk.extractLsb' 32 32 ++ v } }))) := by
  have hr : regAt s.ctl s.here 15 a.toNat = some (busyClkReg i.val) := ha ▸ regAt_busyClk s.ctl i hact
  exact exec_registerLowHalfWrite_low (p := 15) hlive rfl (isCsr_bench (by omega) (by omega)) (.inl (by decide)) (by omega) hr rfl v
    (writeHalf_busyClk_low _ _ _ _ _ _)

/-- R20: a read of the low half answers it and latches the high half. -/
theorem exec_readLow_busyClk : exec (.counterLowHalfRead 15 a) s =
    .next (s.withDev { s.here.emit (.value 15 a.toNat ((s.dev.bench i.val).mx.busyClk.toNat % 2 ^ 32)) with
      hiLatch := tabPut s.dev.hiLatch (latchKey 15 a.toNat) ((s.dev.bench i.val).mx.busyClk.extractLsb' 32 32) }) := by
  have hr : regAt s.ctl s.here 15 a.toNat = some (busyClkReg i.val) := ha ▸ regAt_busyClk s.ctl i hact
  rw [exec_read_low (p := 15) hlive rfl (isCsr_bench (by omega) (by omega)) (.inl (by decide)) (by omega) hr rfl]
  exact congrArg _ (congrArg _ (readLow_busyClk _ _ _ _ _))

end

/-- R20: a read of the high half answers the latched one, once. -/
theorem exec_readHigh_busyClk (ha : a.toNat = 0x3F010000401C + 0x10000 * i.val) {h : W32}
    (hl : tabFind s.dev.hiLatch (latchKey 15 (0x3F0100004018 + 0x10000 * i.val)) = some h) : exec (.counterLowHalfRead 15 a) s =
      .next (s.withDev ({ s.here with hiLatch := tabDel s.dev.hiLatch (latchKey 15 (0x3F0100004018 + 0x10000 * i.val)) }.emit
        (.value 15 (0x3F010000401C + 0x10000 * i.val) h.toNat))) := by
  have hnone : regAt s.ctl s.here 15 a.toNat = none := ha ▸ regAt_busyClk_high s.ctl i hact
  have hlow : a.toNat - 4 = 0x3F0100004018 + 0x10000 * i.val := by omega
  have hr : regAt s.ctl s.here 15 (a.toNat - 4) = some (busyClkReg i.val) := hlow ▸ regAt_busyClk s.ctl i hact
  have hsum : 0x3F0100004018 + 0x10000 * i.val + 4 = 0x3F010000401C + 0x10000 * i.val := by omega
  rw [exec_read_high (p := 15) hlive rfl (isCsr_bench (by omega) (by omega)) (.inl (by decide)) (by omega) hnone hr rfl, hlow, ← hsum]
  exact congrArg _ (congrArg _ (readHigh_busyClk hl))

end

/-! ### JIG_CTR_ADD -/

/-- R234: an addition to a counter that the jig has is a signal. -/
theorem exec_jigCtrAddWrite {s : State} (hlive : s.Live) {p : Fin 16} (harr : arrives s.dev p.val = true) {j : Fin 5} {v : W64}
    (hreach : reachesCsr s.ctl p.val 2 (jigBase j.val + 0x40) 8 = true) (hsafe : s.dev.fc.entering = false) (hv : bits v.toNat 0 12 < ctrCount j.val) :
    exec (.jigCtrAddWrite j p v) s = .next (s.withDev (s.here.signal j.val (bits v.toNat 0 12) (bits v.toNat 32 32))) :=
  onDev_eq hlive ((guardCsr_open (d := s.here) harr hreach).trans (devCtrAdd_signal (d := s.here) hv hsafe _ _))

/-- The halves of JIG_CTR_ADD, put together: the counter's index from the low one, the addend from the high one. -/
theorem ctrAdd_halves (lo hi : W32) :
    bits (hi.toNat % 2 ^ 32 * 2 ^ 32 + lo.toNat) 0 12 = bits lo.toNat 0 12 ∧ bits (hi.toNat % 2 ^ 32 * 2 ^ 32 + lo.toNat) 32 32 = hi.toNat := by
  have hlo := lo.isLt
  have hhi := hi.isLt
  rw [Nat.mod_eq_of_lt hhi]
  simp only [bits, Nat.shiftRight_eq_div_pow]
  omega

/-- R524: the low half of JIG_CTR_ADD, which Silkai writes first, waits in its latch. -/
theorem exec_ctrAddLow {s : State} (hlive : s.Live) (lo : W32) : exec (.registerLowHalfWrite 15 0x3F0002000040 lo) s =
    .next (s.withDev { s.here with loLatch := tabSet 0 s.dev.loLatch (latchKey 15 0x3F0002000040) lo }) := by
  have hlo : BitVec.ofNat 32 (lo.toNat % 2 ^ 32) = lo := by rw [Nat.mod_eq_of_lt lo.isLt, BitVec.ofNat_toNat, BitVec.setWidth_eq]
  have hlow := writeHalf_ctrAdd_low 15 (lo.toNat % 2 ^ 32) s.ctl s.here
  rw [hlo] at hlow
  exact exec_registerLowHalfWrite_low (p := 15) (a := 0x3F0002000040) hlive rfl rfl (.inl (by decide)) rfl (regAt_ctrAdd _ _) rfl lo hlow

/-- R524: the high half acts with the low one that waits in the latch. -/
theorem exec_ctrAddHigh {s : State} (hlive : s.Live) (hsafe : s.dev.fc.entering = false) {lo : W32}
    (hlatch : tabGet 0 s.dev.loLatch (latchKey 15 0x3F0002000040) = lo) (hlo : bits lo.toNat 0 12 < 4096) (hi : W32) :
    exec (.registerLowHalfWrite 15 0x3F0002000044 hi) s = .next (s.withDev
      ({ s.here with loLatch := tabDel s.dev.loLatch (latchKey 15 0x3F0002000040) }.signal 4 (bits lo.toNat 0 12) hi.toNat)) := by
  obtain ⟨hidx, hadd⟩ := ctrAdd_halves lo hi
  have hsignal := devCtrAdd_signal (j := 4) (v := hi.toNat % 2 ^ 32 * 2 ^ 32 + lo.toNat)
    (d := { s.here with loLatch := tabDel s.dev.loLatch (latchKey 15 0x3F0002000040) }) (hidx ▸ hlo) hsafe 15 s.ctl
  rw [hidx, hadd, ← hlatch] at hsignal
  rw [← hlatch, ← hsignal]
  exact exec_registerLowHalfWrite_high (p := 15) (a := 0x3F0002000044) hlive rfl rfl (.inl (by decide)) rfl (regAt_ctrAdd_high _ _)
    (regAt_ctrAdd _ _) rfl hi (writeHalf_ctrAdd_high _ _ _ _)

/-- What a signal makes of the jigs depends on the jigs and on the step alone. -/
theorem signal_jigs_congr {d e : Dev} (hjigs : d.jigs = e.jigs) (hlife : d.life = e.life) (j k n : Nat) :
    (d.signal j k n).jigs = (e.signal j k n).jigs := by
  simp only [Dev.signal, Dev.modJig, Dev.relStep, hjigs, hlife]

/-- R524: JIG_CTR_ADD of the global jig written by halves: nothing happens to the jigs at the low half, and the addition at the high one. -/
theorem exec_ctrAdd_halves {s : State} (hlive : s.Live) (hsafe : s.dev.fc.entering = false) {lo : W32} (hlo : bits lo.toNat 0 12 < 4096) (hi : W32) :
    ∃ t u, exec (.registerLowHalfWrite 15 0x3F0002000040 lo) s = .next t ∧ t.dev.jigs = s.dev.jigs ∧
      exec (.registerLowHalfWrite 15 0x3F0002000044 hi) t = .next u ∧ u.dev.jigs = (s.dev.signal 4 (bits lo.toNat 0 12) hi.toNat).jigs := by
  have hlow := exec_ctrAddLow hlive lo
  generalize ht : s.withDev _ = t at hlow
  have hjigs : t.dev.jigs = s.dev.jigs := ht ▸ rfl
  have hlife : t.dev.life = s.dev.life := ht ▸ rfl
  have hlatch : tabGet 0 t.dev.loLatch (latchKey 15 0x3F0002000040) = lo := by
    subst ht
    simp [State.withDev]
  exact ⟨t, _, hlow, hjigs, exec_ctrAddHigh (ht ▸ hlive) (ht ▸ hsafe) hlatch hlo hi, signal_jigs_congr hjigs hlife _ _ _⟩

end Sys2Proof.Machine

open Sys2Proof Sys2Proof.Machine

/-- Settles O56: accesses of a register's own width, of none and of other widths by the rows' equations; the halves by MX_BUSY_CLK, a counter, and
JIG_CTR_ADD, an action. -/
theorem registersTakeWrites : Obligations.RegistersTakeWrites := by
  intro s p hlive harr
  replace harr : arrives s.here p.val = true := harr
  refine ⟨?_, ?_, ?_, ?_, ?_, ?_, ?_, ?_, ?_, ?_⟩
  · exact fun a v r hcsr hpt hal hr hw => exec_registerWrite_word hlive harr hcsr hpt hal hr hw v
  · exact fun a r hcsr hpt hal hr hw => exec_read_word hlive harr hcsr hpt hal hr hw
  · exact fun a r hcsr hpt hal hr hw => exec_read_double hlive harr hcsr hpt hal hr hw
  · exact fun a n hcsr h4 h8 => exec_read_otherWidth hlive harr hcsr h4 h8
  · exact fun a hcsr hnone hbelow => exec_read_absent hlive harr hcsr hnone hbelow
  · exact fun a v r hcsr hpt hal hr hw => exec_registerWrite_double hlive harr hcsr hpt hal hr hw v
  · exact fun a v hcsr hpt hnone => exec_registerWrite_absent hlive harr hcsr hpt hnone v
  · rintro rfl i hact
    have ha := busyClk_toNat i
    refine ⟨exec_write_busyClk hlive i hact ha, exec_writeLow_busyClk hlive i hact ha, ⟨_, exec_readLow_busyClk hlive i hact ha, ?_⟩, fun h hl => ?_⟩
    · rw [ha]
      exact ⟨rfl, by simp [State.withDev, tabGet], fun q hq => tabFind_put_ne _ _ hq, by simp [State.withDev, State.here, Dev.emit]⟩
    · exact ⟨_, exec_readHigh_busyClk hlive i hact (busyClkHigh_toNat i) hl, rfl, tabFind_del_same _ _⟩
  · exact fun j v hreach hsafe hv => exec_jigCtrAddWrite hlive harr hreach hsafe hv
  · rintro lo hi rfl hsafe hlo
    exact exec_ctrAdd_halves hlive hsafe hlo hi

end

section
/-! SUPPORT. How the array and the drain of a matrix task move on (R83, R84, R95): what their moves leave of the bench, and that they get
through every tile where every bank is the engine's and sound. -/

namespace Sys2Proof.Machine

open Sys2Proof

/-! ### What the two streams leave of the bench -/

/-- Bench `b'` with the fields of `b` that the moves of a matrix task write: contents and error marks of the scratchpad, the non-finite
elements counted (R139), TILE of SPAD_MX_STATUS. -/
def mxUnmoved (b b' : Bench) : Bench :=
  { b' with spad := b.spad, dbl := b.dbl, mx := { b'.mx with nonfinite := b.mx.nonfinite, nonfinCnt := b.mx.nonfinCnt, tile := b.mx.tile } }

/-- Bench `b'` is bench `b` but for what the moves of a matrix task write. -/
structure MxMoved (b b' : Bench) : Prop where
  eq : mxUnmoved b b' = b

theorem MxMoved.trans {b b' b'' : Bench} (h : MxMoved b b') (h' : MxMoved b' b'') : MxMoved b b'' :=
  ⟨(congrArg (mxUnmoved b) h'.eq).trans h.eq⟩

section
variable {rand : Nat → Nat} {x : MxDesc} {b b' : Bench} {t : Task}

theorem mxDrain_moved : MxMoved b (mxDrain rand b x t).1 := ⟨rfl⟩

theorem mxFill_moved : MxMoved b (mxFill b x t).1 := ⟨rfl⟩

theorem mxGo_moved (n : Nat) (b : Bench) (t : Task) : MxMoved b (mxGo rand x n b t).1 := by
  induction n generalizing b t with
  | zero => exact ⟨rfl⟩
  | succ n ih =>
    unfold mxGo
    split
    · exact mxDrain_moved.trans (ih _ _)
    · exact mxFill_moved.trans (ih _ _)
    · exact ⟨rfl⟩

/-- What reads none of the fields written reads as before. -/
theorem MxMoved.read {α : Type} (h : MxMoved b b') (f : Bench → α) (hf : f (mxUnmoved b b') = f b' := by rfl) : f b' = f b :=
  hf.symm.trans (congrArg f h.eq)

theorem MxMoved.ownsBank (h : MxMoved b b') (m k : Nat) : ownsBank b' m k = ownsBank b m k := by
  unfold Machine.ownsBank
  rw [h.read Bench.owner, h.read Bench.handover]

end

/-! ### Every bank the engine's and sound -/

/-- Nothing holds an access of the matrix engine up: it owns every bank, waits for none, and no word is uncorrectable. -/
structure MxUnhindered (b : Bench) : Prop where
  owns : ∀ k < 16, ownsBank b 1 k = true
  waits : b.waits = []
  sound : b.dbl = []

namespace MxUnhindered

variable {rand : Nat → Nat} {x : MxDesc} {b b' : Bench} {t : Task}

theorem moved (h : MxUnhindered b) (hm : MxMoved b b') (hdbl : b'.dbl = []) : MxUnhindered b' :=
  ⟨fun k hk => (hm.ownsBank 1 k).trans (h.owns k hk), (hm.read Bench.waits).trans h.waits, hdbl⟩

theorem drain (h : MxUnhindered b) : MxUnhindered (mxDrain rand b x t).1 :=
  h.moved mxDrain_moved (show soundWords _ b.dbl = [] by rw [h.sound]; rfl)

theorem fill (h : MxUnhindered b) : MxUnhindered (mxFill b x t).1 := h.moved mxFill_moved h.sound

theorem missingAt_none (h : MxUnhindered b) (ss : List Span) : missingAt b 1 ss = none := by
  refine List.findSome?_eq_none_iff.2 (fun k hk => if_pos ?_)
  simp [bankReady, waitsFor, h.waits, h.owns k (List.mem_range.1 hk)]

theorem access (h : MxUnhindered b) (reads writes : List Span) : mxAccess b reads writes = .go := by
  have hbad : badWord b reads = none := by simp [badWord, h.sound]
  simp only [mxAccess, h.missingAt_none, hbad]

/-- R84: a tile that the array has finished is drained at once. -/
theorem drainMove (h : MxUnhindered b) (hpart : x.nPart = 0) (hlt : t.drain < t.fill) : mxDrainMove b x t = .go :=
  (if_neg (by simp [hpart, hlt])).trans (h.access _ _)

/-- R83: where every finished tile is drained, the array goes on to the next. -/
theorem fillMove (h : MxUnhindered b) (hlt : t.fill < mxTiles x) (hfree : t.fill < t.drain + 2) : mxFillMove b x t = .go :=
  (if_neg (by simp [hlt, hfree])).trans (h.access _ _)

end MxUnhindered

theorem mxDrainMove_rests {b : Bench} {x : MxDesc} {t : Task} (h : t.fill ≤ t.drain) : mxDrainMove b x t = .rests := if_pos (by simp [h])

/-- R83, R84, R95: from a task whose tiles are filled and drained up to `fill` and `drain`, as many moves as are left drain the last one.
Each move is a drain where the array is ahead, a fill where it is not. -/
theorem mxGo_drainsAll {rand : Nat → Nat} {x : MxDesc} (hpart : x.nPart = 0) (n : Nat) (b : Bench) (t : Task) (hb : MxUnhindered b)
    (hle : t.drain ≤ t.fill) (hfill : t.fill ≤ mxTiles x) (hn : n + (t.fill + t.drain) = mxMoves x) : (mxGo rand x n b t).2.drain = mxTiles x := by
  unfold mxMoves at hn
  induction n generalizing b t with
  | zero =>
    change t.drain = mxTiles x
    omega
  | succ n ih =>
    rcases Nat.lt_or_ge t.drain t.fill with hlt | hge
    · simp only [mxGo, hb.drainMove hpart hlt]
      refine ih _ _ hb.drain ?_ hfill ?_
      · exact hlt
      · change n + (t.fill + (t.drain + 1)) = 2 * mxTiles x
        omega
    · have hlast : t.fill < mxTiles x := by omega
      simp only [mxGo, mxDrainMove_rests hge, hb.fillMove hlast (by omega)]
      refine ih _ _ hb.fill ?_ hlast ?_
      · change t.drain ≤ t.fill + 1
        omega
      · change n + (t.fill + 1 + t.drain) = 2 * mxTiles x
        omega

end Sys2Proof.Machine

end

section
/-! SUPPORT. The end of an engine's task: what it makes of its bench, and that benches that clock-gate (R250) are else as they were. -/

namespace Sys2Proof.Machine

open Sys2Proof

/-! ### Clock gating -/

/-- Bench `b'` is bench `b`, clock-gated or not. -/
structure SameButGate (b b' : Bench) : Prop where
  eq : { b' with gated := b.gated } = b

/-- What does not read the gate reads as before. -/
theorem SameButGate.read {α : Type} {b b' : Bench} (h : SameButGate b b') (f : Bench → α) (hf : f { b' with gated := b.gated } = f b' := by rfl) :
    f b' = f b := hf.symm.trans (congrArg f h.eq)

/-- Device `e` is device `d`, but for benches that are clock-gated (R250). -/
structure OnlyGates (d e : Dev) : Prop where
  dev : { e with benches := d.benches } = d
  bench : ∀ k, SameButGate (d.bench k) (e.bench k)

namespace OnlyGates

theorem refl (d : Dev) : OnlyGates d d := ⟨rfl, fun _ => ⟨rfl⟩⟩

theorem trans {d e f : Dev} (h : OnlyGates d e) (h' : OnlyGates e f) : OnlyGates d f where
  dev := (congrArg (fun x : Dev => { x with benches := d.benches }) h'.dev).trans h.dev
  bench k := ⟨(congrArg (fun x : Bench => { x with gated := (d.bench k).gated }) (h'.bench k).eq).trans (h.bench k).eq⟩

theorem foldl {α : Type} {f : Dev → α → Dev} (hf : ∀ d a, OnlyGates d (f d a)) (l : List α) (d : Dev) : OnlyGates d (l.foldl f d) := by
  induction l generalizing d with
  | nil => exact refl d
  | cons a l ih => exact (hf d a).trans (ih _)

/-- A bench is clock-gated. -/
theorem gate (d : Dev) (i : Nat) : OnlyGates d (d.modBench i (fun b => { b with gated := true })) where
  dev := rfl
  bench k := by
    by_cases hk : k = i
    · rw [hk, Dev.bench_modBench_same]
      exact ⟨rfl⟩
    · rw [Dev.bench_modBench_ne _ _ hk]
      exact ⟨rfl⟩

end OnlyGates

theorem gateBay_onlyGates (d : Dev) (bay : Nat) : OnlyGates d (gateBay d bay) := by
  refine OnlyGates.foldl (fun e p => ?_) _ d
  split
  · exact .gate e p.1
  · exact .refl _

theorem gateIdle_onlyGates (d : Dev) : OnlyGates d (gateIdle d) := by
  unfold gateIdle
  split
  · exact .foldl gateBay_onlyGates _ d
  · exact .refl _

/-! ### A task completes (R134) -/

/-- The bench once the running task of engine `m` has ended with `st`: its slot is free, LAST_RESULT and the count are written. -/
def taskEnded (m st : Nat) (b : Bench) : Bench :=
  leaveSlot m 0 (setEng b m { engOf b m with slots := (engOf b m).slots.drop 1, last := BitVec.ofNat 4 st, taskCnt := cntInc (engOf b m).taskCnt })

/-- Device `e` is device `d` once the running task of engine `m` of bench `i` has ended with `st`: beside that bench, only the jigs (R235)
and the clock gates (R250) change. -/
structure EndsTask (i m st : Nat) (d e : Dev) : Prop where
  dev : { e with benches := d.benches, jigs := d.jigs } = d
  bench : SameButGate (taskEnded m st (d.bench i)) (e.bench i)
  others : ∀ k, k ≠ i → SameButGate (d.bench k) (e.bench k)

/-- R134, R235, R250: what the end of a task does. -/
theorem endTask_endsTask {i m : Nat} {d : Dev} {t : Task} {rest : List Task} (st : Nat) (hslots : (engOf (d.bench i) m).slots = t :: rest) :
    EndsTask i m st d (endTask i m st d) := by
  have heq : endTask i m st d = gateIdle ((d.modBench i (taskEnded m st)).noteTask t.tag (some (logicalOf d i)) (stOfEng st)) := by
    unfold endTask
    rw [hslots]
    rfl
  rw [heq]
  obtain ⟨hdev, hbench⟩ := gateIdle_onlyGates ((d.modBench i (taskEnded m st)).noteTask t.tag (some (logicalOf d i)) (stOfEng st))
  refine ⟨congrArg (fun x : Dev => { x with benches := d.benches, jigs := d.jigs }) hdev, ?_, fun k hk => ?_⟩
  · exact Dev.bench_modBench_same d i (taskEnded m st) ▸ hbench i
  · exact Dev.bench_modBench_ne d (taskEnded m st) hk ▸ hbench k

end Sys2Proof.Machine

end

section
/-! SUPPORT. The rows of the matrix engine, and the completion rows of the vector and row engines. -/

namespace Sys2Proof.Machine

open Sys2Proof

/-- A row of a bench's engine, where the blocks work and the bench is not gated, leaves what its function answers. -/
theorem onEngine_eq {i : Nat} {f : Ctl → Dev → Dev} {s : State} {d : Dev} (hw : s.Works) (hg : (s.dev.bench i).gated = false)
    (h : f s.ctl s.here = d) : onEngine i f s = .next (s.withDev d) :=
  (onEngine_live i f s hw.1 hw.2 hg).trans (congrArg _ (congrArg _ h))

section
variable {s : State} {i : Fin 132} (hw : s.Works) (hg : (s.dev.bench i.val).gated = false)
include hw hg

theorem exec_mxTaskIssue : exec (.mxTaskIssue i) s = .next (s.withDev (devMxIssue i.val s.ctl s.here)) :=
  onEngine_eq (f := devMxIssue i.val) hw hg rfl

theorem exec_mxPartialWaitRelease : exec (.mxPartialWaitRelease i) s = .next (s.withDev (devMxRelease i.val s.ctl s.here)) :=
  onEngine_eq (f := devMxRelease i.val) hw hg rfl

theorem exec_mxTaskComplete (n : Nat) : exec (.mxTaskComplete i n) s = .next (s.withDev (devMxComplete i.val n s.ctl s.here)) :=
  onEngine_eq (f := devMxComplete i.val n) hw hg rfl

theorem exec_vecTaskComplete : exec (.vecTaskComplete i) s = .next (s.withDev (devVecComplete i.val s.ctl s.here)) :=
  onEngine_eq (f := devVecComplete i.val) hw hg rfl

theorem exec_rowTaskComplete : exec (.rowTaskComplete i) s = .next (s.withDev (devRowComplete i.val s.ctl s.here)) :=
  onEngine_eq (f := devRowComplete i.val) hw hg rfl

end

section
variable {c : Ctl} {d : Dev} {i : Nat} {t : Task} {rest : List Task}

section
variable (hslots : (d.bench i).mx.slots = t :: rest)
include hslots

/-- A change of the running matrix task. -/
theorem modSlot_mx_running (f : Task → Task) :
    modSlot d i 1 0 f = d.modBench i (fun b => { b with mx := { b.mx with slots := f t :: rest } }) :=
  modBench_congr (congrArg (fun l => { d.bench i with mx := { (d.bench i).mx with slots := modAt f l 0 } }) hslots)

/-- R83, R86: a task whose descriptor passes its checks is issued, its stream context read with the descriptor. -/
theorem devMxIssue_passes {ws : List Nat} (hnew : t.issued = false) (hfetch : fetchDesc (d.bench i) 1 t.off = .words ws)
    (hcheck : mxCheck (mxDescOf ws) (ctxSpan (mxDescOf ws).sr t.off) = none)
    (hmiss : missingAt (d.bench i) 1 (ctxSpan (mxDescOf ws).sr t.off) = none)
    (hbad : badWord (d.bench i) (ctxSpan (mxDescOf ws).sr t.off) = none) :
    devMxIssue i c d = modSlot d i 1 0 (fun y =>
      { y with issued := true, words := ws,
               ctx := if (mxDescOf ws).sr then leNat (spadRead (d.bench i).spad (t.off + 64) 8) else 0 }) := by
  have hfirst : (d.bench i).mx.slots.zipIdx.find? (fun p => !p.1.issued) = some (t, 0) := by simp [hslots, hnew]
  simp only [devMxIssue, hfirst, hfetch, hcheck, hmiss, hbad]

/-- R95: the next tile of the running task is released once its partial tiles have arrived. -/
theorem devMxRelease_released (hissued : t.issued = true) (hran : t.ran = false) (htile : t.tile < mxTiles (mxDescOf t.words))
    (hparts : partialsIn d i t = true) : devMxRelease i c d = modSlot d i 1 0 (fun y => { y with tile := y.tile + 1 }) := by
  simp [devMxRelease, hslots, hissued, hran, htile, hparts]

end

/-- The bench once the running matrix task has drained its last tile after `clocks` clocks: busy and useful clocks are counted (R103). -/
def mxDone (clocks : Nat) (x : MxDesc) (r : Bench × Task) : Bench :=
  { withMx r with mx := { (withMx r).mx with busyClk := cntAdd r.1.mx.busyClk clocks, usefulClk := cntAdd r.1.mx.usefulClk (mxUseful x) } }

/-- R84, R103: what the completion row makes of a task whose streams get through every tile. -/
theorem devMxComplete_ends {clocks : Nat} (hslots : (d.bench i).mx.slots = t :: rest) (hissued : t.issued = true) (hran : t.ran = false)
    {r : Bench × Task} (hr : mxGo (mxRand d.opt.seed t) (mxDescOf t.words) (mxMoves (mxDescOf t.words)) (d.bench i) t = r)
    (hall : mxTiles (mxDescOf t.words) ≤ r.2.drain) :
    ∃ d', EndsTask i 1 resOk d' (devMxComplete i clocks c d) ∧ d'.bench i = mxDone clocks (mxDescOf t.words) r ∧
      { d' with benches := d.benches } = d ∧ ∀ k, k ≠ i → d'.bench k = d.bench k := by
  have hrow : devMxComplete i clocks c d = endTask i 1 resOk
      (((d.modBench i (fun _ => withMx r)).modBench i (fun b => { b with mx := { b.mx with busyClk := cntAdd b.mx.busyClk clocks } })).modBench i
        (fun b => { b with mx := { b.mx with usefulClk := cntAdd b.mx.usefulClk (mxUseful (mxDescOf t.words)) } })) := by
    simp [devMxComplete, hslots, hissued, hran, hr, hall]
  rw [hrow]
  refine ⟨_, endTask_endsTask (t := r.2) (rest := r.1.mx.slots.drop 1) resOk ?_, ?_, rfl, fun k hk => ?_⟩
  · simp [engOf, withMx]
  · simp [mxDone, withMx]
  · simp [Dev.bench_modBench_ne _ _ hk]

/-- R134: the head task of the vector engine completes as it ran. -/
theorem devVecComplete_ends (hslots : (d.bench i).vec.slots = t :: rest) (hran : t.ran = true) :
    EndsTask i 2 t.res d (devVecComplete i c d) := by
  have hrow : devVecComplete i c d = endTask i 2 t.res d := by simp [devVecComplete, hslots, hran]
  exact hrow ▸ endTask_endsTask t.res hslots

/-- R141: and so does the head task of the row engine. -/
theorem devRowComplete_ends (hslots : (d.bench i).row.slots = t :: rest) (hran : t.ran = true) :
    EndsTask i 3 t.res d (devRowComplete i c d) := by
  have hrow : devRowComplete i c d = endTask i 3 t.res d := by simp [devRowComplete, hslots, hran]
  exact hrow ▸ endTask_endsTask t.res hslots

end

end Sys2Proof.Machine

open Sys2Proof Sys2Proof.Machine

/-- Settles O20: the issue and release rows change the running task alone; `mxGo_drainsAll` counts the moves of a whole task; the completion
rows end the task as `endTask_endsTask` says. -/
theorem engineTasksAdvance : Obligations.EngineTasksAdvance := by
  intro s i t rest hw hg
  refine ⟨?_, ?_, ?_, ?_, ?_, ?_⟩
  · intro ws hslots hnew hfetch hcheck hmiss hbad
    rw [exec_mxTaskIssue hw hg, devMxIssue_passes (d := s.here) hslots hnew hfetch hcheck hmiss hbad, modSlot_mx_running (d := s.here) hslots]
    rfl
  · intro hslots hissued hran htile hparts
    rw [exec_mxPartialWaitRelease hw hg, devMxRelease_released (d := s.here) hslots hissued hran htile hparts, modSlot_mx_running (d := s.here) hslots]
  · intro howns hwaits hsound hpart hfill hdrain
    exact mxGo_drainsAll hpart _ _ t ⟨howns, hwaits, hsound⟩ (by omega) (by omega) (by omega)
  · intro n hslots hissued hran r hall
    have hr : mxGo (mxRand s.here.opt.seed t) (mxDescOf t.words) (mxMoves (mxDescOf t.words)) (s.here.bench i.val) t = r := rfl
    have hmoved : MxMoved (s.dev.bench i.val) r.1 := mxGo_moved _ _ _
    have hrest : r.1.mx.slots.drop 1 = rest := congrArg (List.drop 1) ((hmoved.read (·.mx.slots)).trans hslots)
    clear_value r
    obtain ⟨d, hends, hbench, hdev, hothers⟩ := devMxComplete_ends (c := s.ctl) (d := s.here) (clocks := n) hslots hissued hran hr hall
    have hend := hbench ▸ hends.bench
    refine ⟨_, exec_mxTaskComplete hw hg n, hend.read Bench.spad, ?_, hend.read (·.mx.last), ?_, ?_, ?_, fun k hk => ?_, ?_⟩
    · exact (hend.read (·.mx.slots)).trans hrest
    · exact (hend.read (·.mx.taskCnt)).trans (congrArg cntInc (hmoved.read (·.mx.taskCnt)))
    · exact (hend.read (·.mx.busyClk)).trans (congrArg (cntAdd · n) (hmoved.read (·.mx.busyClk)))
    · exact (hend.read (·.mx.usefulClk)).trans (congrArg (cntAdd · _) (hmoved.read (·.mx.usefulClk)))
    · exact (hothers k hk ▸ hends.others k hk).eq
    · exact (congrArg (fun x : Dev => { x with benches := s.dev.benches, jigs := s.dev.jigs }) hends.dev).trans
        (congrArg (fun x : Dev => { x with jigs := s.dev.jigs }) hdev)
  · intro hslots hran
    obtain ⟨hdev, hbench, -⟩ := devVecComplete_ends (c := s.ctl) (d := s.here) hslots hran
    refine ⟨_, exec_vecTaskComplete hw hg, ?_, hbench.read (·.vec.last), hbench.read (·.vec.taskCnt), hbench.read Bench.spad, hdev⟩
    exact (hbench.read (·.vec.slots)).trans (congrArg (List.drop 1) hslots)
  · intro hslots hran
    obtain ⟨hdev, hbench, -⟩ := devRowComplete_ends (c := s.ctl) (d := s.here) hslots hran
    refine ⟨_, exec_rowTaskComplete hw hg, ?_, hbench.read (·.row.last), hbench.read (·.row.taskCnt), hbench.read Bench.spad, hdev⟩
    exact (hbench.read (·.row.slots)).trans (congrArg (List.drop 1) hslots)

end

section
/-! SUPPORT. A write to SPAD_PAIR decided bit by bit (R109): what each bit makes of the bench, and what the eight of them make of it. -/

namespace Sys2Proof.Machine

open Sys2Proof

/-! ### Saturating counters, and the bytes of a scratchpad -/

theorem cntAdd_zero {w : Nat} (c : BitVec w) : cntAdd c 0 = c := by
  refine BitVec.eq_of_toNat_eq ?_
  have hlt := c.isLt
  rw [cntAdd, BitVec.toNat_ofNat, Nat.add_zero, Nat.min_eq_left (by omega), Nat.mod_eq_of_lt hlt]

/-- A counter that stops at its maximum counts the same one by one and at once. -/
theorem cntInc_cntAdd {w : Nat} (c : BitVec w) (n : Nat) : cntInc (cntAdd c n) = cntAdd c (n + 1) := by
  have hpos := Nat.two_pow_pos w
  unfold cntInc cntAdd
  congr 1
  rw [BitVec.toNat_ofNat, Nat.mod_eq_of_lt (by omega)]
  omega

theorem tabFind_eq_none {α : Type} {t : Tab α} {q : Nat} (h : ∀ p ∈ t, p.1 ≠ q) : tabFind t q = none := by
  induction t with
  | nil => rfl
  | cons p t ih =>
    rw [tabFind, if_neg (h p (.head _))]
    exact ih (fun r hr => h r (.tail _ hr))

/-- R107: a write to a scratchpad leaves every byte outside its span. -/
theorem spadRd_spadWrite_outside (m : Spad) {o q : Nat} {bs : List Byte} (h : q < o ∨ o + bs.length ≤ q) :
    spadRd (spadWrite m o bs) q = spadRd m q := by
  have hbytes : tabFind ((bs.zipIdx.filter (fun p => p.1 != 0)).map (fun p => (o + p.2, p.1))) q = none := by
    refine tabFind_eq_none (fun p hp => ?_)
    obtain ⟨r, hr, rfl⟩ := List.mem_map.1 hp
    have hidx := List.snd_lt_of_mem_zipIdx (List.mem_filter.1 hr).1
    simp only
    omega
  unfold spadRd tabGet spadWrite
  rw [tabFind_append, tabFind_append, hbytes, tabFind_filter m q (fun x => decide (x < o)),
    tabFind_filter m q (fun x => decide (o + bs.length ≤ x))]
  rcases h with hlo | hhi
  · simp [hlo, show ¬ o + bs.length ≤ q by omega]
  · simp [hhi, show ¬ q < o by omega]

/-! ### One bit of the write -/

/-- Would a write of `v` to SPAD_PAIR change bit `k`? -/
def pairWants (v : Nat) (b : Bench) (k : Nat) : Bool := bitAt v k != bitAt b.paired.toNat k

/-- May pair `k` change: both its banks are NONE, and no handover is in progress on either (R109)? -/
def pairSettled (b : Bench) (k : Nat) : Bool :=
  tabGet 0 b.owner (2 * k) == 7 && tabGet 0 b.owner (2 * k + 1) == 7 && !bitAt b.handover.toNat (2 * k) && !bitAt b.handover.toNat (2 * k + 1)

theorem bits_two_beq_zero (w i : Nat) : (bits w i 2 == 0) = (!bitAt w i && !bitAt w (i + 1)) := by
  have hhigh : w / 2 ^ (i + 1) = w / 2 ^ i / 2 := by rw [Nat.pow_succ, Nat.div_div_eq_div_mul]
  rw [Bool.eq_iff_iff]
  simp only [bits, bitAt, Nat.shiftRight_eq_div_pow, hhigh, Bool.and_eq_true, Bool.not_eq_true', beq_iff_eq, decide_eq_false_iff_not]
  omega

/-- The bench once bit `k` of SPAD_PAIR has changed to that of `v`. -/
def pairChanged (free v k : Nat) (b : Bench) : Bench :=
  { b with paired := BitVec.ofNat 8 (setBit b.paired.toNat k (bitAt v k)), spad := Dev.undefSpan (free + k) b.spad (k * 0x40000, 0x40000),
           dbl := b.dbl.filter (fun p => p.1 / 0x8000 != k) }

/-- R109: a bit that would not change leaves the bench; one that would changes its pair, where this is settled, else it is counted. -/
theorem writePairBit_eq (free v k : Nat) (b : Bench) : writePairBit free v k b =
    if pairWants v b k then (if pairSettled b k then pairChanged free v k b else { b with handoverFailCnt := cntInc b.handoverFailCnt }) else b := by
  unfold writePairBit
  by_cases heq : bitAt v k = bitAt b.paired.toNat k
  · rw [if_pos heq, if_neg (by simp [pairWants, heq])]
  · have hwants : pairWants v b k = true := by simpa [pairWants] using heq
    rw [if_neg heq, hwants, bits_two_beq_zero]
    simp only [if_true, pairSettled, pairChanged, Bool.and_assoc]

theorem pairChanged_spad {free v k q : Nat} (b : Bench) (h : q / 0x40000 ≠ k) : spadRd (pairChanged free v k b).spad q = spadRd b.spad q := by
  refine spadRd_spadWrite_outside _ ?_
  rw [show (Dev.undefBytes (free + k) 0x40000).length = 0x40000 by rw [Dev.undefBytes, List.length_map, List.length_range]]
  omega

/-! ### The eight bits -/

/-- Bench `x` is bench `b` after the first `n` bits of a write of `v` to SPAD_PAIR (R109). -/
structure PairsDecided (v n : Nat) (b x : Bench) : Prop where
  owner : x.owner = b.owner
  handover : x.handover = b.handover
  paired : ∀ k < 8, bitAt x.paired.toNat k = if k < n ∧ (pairWants v b k && pairSettled b k) = true then bitAt v k else bitAt b.paired.toNat k
  failCnt : x.handoverFailCnt = cntAdd b.handoverFailCnt ((List.range n).filter (fun k => pairWants v b k && !pairSettled b k)).length
  spad : ∀ q, (q / 0x40000 < n → (pairWants v b (q / 0x40000) && pairSettled b (q / 0x40000)) = false) → spadRd x.spad q = spadRd b.spad q

/-- The bits before it have no part in how a bit is decided. -/
theorem PairsDecided.step {v n free : Nat} {b x : Bench} (h : PairsDecided v n b x) (hn : n < 8) :
    PairsDecided v (n + 1) b (writePairBit free v n x) := by
  have hwants : pairWants v x n = pairWants v b n := by rw [pairWants, pairWants, h.paired n hn, if_neg (by omega)]
  have hsettled : pairSettled x n = pairSettled b n := by rw [pairSettled, pairSettled, h.owner, h.handover]
  have hbelow {k : Nat} (hk : k ≠ n) : k < n + 1 ↔ k < n := by omega
  rw [writePairBit_eq, hwants, hsettled]
  cases hw : pairWants v b n with
  | false =>
    refine ⟨h.owner, h.handover, fun k hk => ?_, ?_, fun q hq => h.spad q (fun hlt => hq (by omega))⟩
    · rw [if_neg Bool.false_ne_true, h.paired k hk]
      by_cases hkn : k = n
      · simp [hkn, hw]
      · simp only [hbelow hkn]
    · rw [if_neg Bool.false_ne_true, h.failCnt, List.range_succ, List.filter_append]
      simp [hw]
  | true =>
    cases hs : pairSettled b n with
    | false =>
      refine ⟨h.owner, h.handover, fun k hk => ?_, ?_, fun q hq => h.spad q (fun hlt => hq (by omega))⟩
      · rw [if_pos rfl, if_neg Bool.false_ne_true]
        refine (h.paired k hk).trans ?_
        by_cases hkn : k = n
        · simp [hkn, hs]
        · simp only [hbelow hkn]
      · rw [if_pos rfl, if_neg Bool.false_ne_true, List.range_succ, List.filter_append]
        refine (congrArg cntInc h.failCnt).trans ?_
        simp [hw, hs, cntInc_cntAdd]
    | true =>
      rw [if_pos rfl, if_pos rfl]
      refine ⟨h.owner, h.handover, fun k hk => ?_, ?_, fun q hq => ?_⟩
      · rw [pairChanged, bitAt_ofNat hk, bitAt_setBit, h.paired k hk]
        by_cases hkn : k = n
        · simp [hkn, hw, hs]
        · simp only [if_neg hkn, hbelow hkn]
      · refine h.failCnt.trans ?_
        rw [List.range_succ, List.filter_append]
        simp [hw, hs]
      · have hqn : q / 0x40000 ≠ n := by
          rintro rfl
          simpa [hw, hs] using hq (by omega)
        exact (pairChanged_spad x hqn).trans (h.spad q (fun hlt => hq (by omega)))

theorem pairsDecided_foldRange (free v : Nat) (b : Bench) {n : Nat} (hn : n ≤ 8) : PairsDecided v n b (foldRange n b (writePairBit free v)) := by
  induction n with
  | zero => exact ⟨rfl, rfl, fun k _ => by rw [if_neg (by omega)]; rfl, (cntAdd_zero _).symm, fun _ _ => rfl⟩
  | succ n ih =>
    rw [foldRange_succ]
    exact (ih (by omega)).step (by omega)

/-- R66, R109: Silkai's write to SPAD_PAIR of a bench in use is let through. -/
theorem exec_spadPairWrite {s : State} {i : Fin 132} (hw : s.Works) (hact : s.dev.benchActive i.val = true) (v : W32) :
    exec (.spadPairWrite i v) s = .next (s.withDev ({ s.here with free := s.dev.free + 8 }.modBench i.val
      (fun b => foldRange 8 b (writePairBit s.dev.free v.toNat)))) :=
  (guardedRow_open (port := 15) hw ⟨rfl, rfl⟩ _).trans (congrArg _ (congrArg _ (if_pos hact)))

end Sys2Proof.Machine

open Sys2Proof Sys2Proof.Machine

/-- Settles O60: `pairsDecided_foldRange` says what the eight bits, each decided by itself, make of the bench; the row changes no other. -/
theorem pairWritesAreDecidedBitByBit : Obligations.PairWritesAreDecidedBitByBit := by
  intro s i v hw hact b wants free
  refine ⟨_, exec_spadPairWrite hw hact v, ?_⟩
  have hpairs : PairsDecided v.toNat 8 b ((s.withDev ({ s.here with free := s.dev.free + 8 }.modBench i.val
      (fun b => foldRange 8 b (writePairBit s.dev.free v.toNat)))).dev.bench i.val) :=
    Dev.bench_modBench_same { s.here with free := s.dev.free + 8 } i.val _ ▸ pairsDecided_foldRange _ _ _ (Nat.le_refl 8)
  refine ⟨fun k hk => ?_, hpairs.failCnt, hpairs.owner, hpairs.handover, fun q hq hkeeps => hpairs.spad q (fun _ => hkeeps), ?_, rfl, rfl⟩
  · exact (hpairs.paired k hk).trans (ite_congr (propext (and_iff_right hk)) (fun _ => rfl) (fun _ => rfl))
  · exact fun j hj => Dev.bench_modBench_ne { s.here with free := s.dev.free + 8 } _ hj

end

section
/-! SUPPORT. An access to a bank of another master waits; and what of it the wait holds. -/

namespace Sys2Proof.Machine

open Sys2Proof

/-- R114: an access to a bank that is not its master's joins the waits. What the error code finds is of a read's data alone (R112): a write
waits without. -/
theorem exec_spadAccess_waits {s : State} {i : Fin 132} (hw : s.Works) (hact : s.dev.benchActive i.val = true) {m : Fin 5} {off : BitVec 21} {len : Nat}
    (hunit : oneUnit off.toNat len = true) (hother : ownsBank (s.dev.bench i.val) m.val (bankOfOff (s.dev.bench i.val) off.toNat) = false)
    (hlimit : (s.dev.bench i.val).waitLimit ≠ 0) (wr : Bool) (bs : List Byte) (ecc : Fin 3) :
    exec (.spadAccess i m wr off bs len ecc) s = .next (s.withDev (s.here.modBench i.val (fun b => { b with waits := b.waits ++
      [{ master := m.val, write := wr, off := off.toNat, len := len, data := bs, port := 9 + i.val / 33, ecc := if wr then 0 else ecc.val }] }))) := by
  refine onWork_eq (f := devSpadAccess i.val m.val wr off.toNat bs len ecc.val) hw ?_
  have hlate : goesNow (s.here.bench i.val) m.val off.toNat = false := by
    rw [goesNow, bankReady, Bool.and_eq_false_iff]
    exact .inl hother
  unfold devSpadAccess accessBank
  rw [if_neg (by simp [hunit, show s.here.benchActive i.val = true from hact]), hlate, if_neg Bool.false_ne_true]
  exact if_neg hlimit

/-- The blocks run; every bank of every bench is the DMA's, as after reset (R119). -/
def banksOfDma : State := { State.reset with ctl := { State.reset.ctl with live := true } }

end Sys2Proof.Machine

open Sys2Proof Sys2Proof.Machine

/-- Refutes O17: a write of the matrix engine to a bank of the DMA, its `ecc` 1, waits with `ecc` 0 and not with the 1 that the statement's clause
on waits gives it. The statement lets `ecc` stand for writes too; the model gives a write none (`exec_spadAccess_waits`). -/
theorem not_bankAccessesRun : ¬ Obligations.BankAccessesRun := by
  intro h
  obtain ⟨-, hwaits, -⟩ := h banksOfDma 0 ⟨rfl, rfl⟩ (by decide)
  have hunit : oneUnit (0 : BitVec 21).toNat 1 = true := by decide
  have hother : ownsBank (banksOfDma.dev.bench 0) 1 (bankOfOff (banksOfDma.dev.bench 0) (0 : BitVec 21).toNat) = false := by decide
  have hlimit : (banksOfDma.dev.bench 0).waitLimit ≠ 0 := by decide
  have hclaim := hwaits 1 true 0 [0] 1 1 hunit hother hlimit
  have hmodel := exec_spadAccess_waits (s := banksOfDma) (i := 0) (m := 1) ⟨rfl, rfl⟩ (by decide) hunit hother hlimit true [0] 1
  have heq := Host.Outcome.next.inj (hmodel.symm.trans hclaim)
  have hecc : ([0] : List Nat) = [1] := congrArg (fun t : State => (t.dev.bench 0).waits.map WaitAcc.ecc) heq
  exact absurd hecc (by decide)

end

section
/-! SUPPORT. The rows of the vector and row engines: a head task whose operation is the row's, whose checks pass and whose banks are the
engine's and sound, has run. -/

namespace Sys2Proof.Machine

open Sys2Proof

/-! ### The running task of an engine -/

/-- A change of the running task of engine `m`. -/
theorem modSlot_running {d : Dev} {i m : Nat} {t : Task} {rest : List Task} (hslots : (engOf (d.bench i) m).slots = t :: rest) (f : Task → Task) :
    modSlot d i m 0 f = d.modBench i (fun b => setEng b m { engOf b m with slots := f t :: rest }) :=
  modBench_congr (congrArg (fun l => setEng (d.bench i) m { engOf (d.bench i) m with slots := modAt f l 0 }) hslots)

/-- A task that has run and stands ready to complete with OK (R134). -/
def ranOk (ws : List Nat) (t : Task) : Task := { t with issued := true, ran := true, words := ws, res := resOk }

/-- Device `e` is device `d` once the head task `t` of engine `m` of bench `i` has run, the task's data moved by `f`: no other bench changes,
and nothing beside the benches. -/
structure RunsTask (i m : Nat) (f : Bench → Bench) (ws : List Nat) (t : Task) (rest : List Task) (d e : Dev) : Prop where
  bench : e.bench i = setEng (f (d.bench i)) m { engOf (f (d.bench i)) m with slots := ranOk ws t :: rest }
  others : ∀ k, k ≠ i → e.bench k = d.bench k
  dev : { e with benches := d.benches } = d

/-- What is read of the bench after the run. -/
theorem RunsTask.read {i m : Nat} {f : Bench → Bench} {ws : List Nat} {t : Task} {rest : List Task} {d e : Dev} (h : RunsTask i m f ws t rest d e)
    {α : Type} (g : Bench → α) : g (e.bench i) = g (setEng (f (d.bench i)) m { engOf (f (d.bench i)) m with slots := ranOk ws t :: rest }) :=
  congrArg g h.bench

theorem modSlot_runsTask {i m : Nat} {f : Bench → Bench} {ws : List Nat} {t : Task} {rest : List Task} {d : Dev}
    (hslots : (engOf (f (d.bench i)) m).slots = t :: rest) : RunsTask i m f ws t rest d (modSlot (d.modBench i f) i m 0 (ranOk ws)) := by
  rw [modSlot_running (by rw [Dev.bench_modBench_same]; exact hslots)]
  refine ⟨?_, fun k hk => ?_, rfl⟩
  · rw [Dev.bench_modBench_same, Dev.bench_modBench_same]
  · rw [Dev.bench_modBench_ne _ _ hk, Dev.bench_modBench_ne _ _ hk]

section
variable {op i : Nat} {c : Ctl} {d : Dev} {t : Task} {rest : List Task} {ws : List Nat}

/-! ### The vector engine (R128, R132) -/

/-- What a run of the vector engine with results `r` writes to its bench (R112, R139). -/
def vecRan (x : VecDesc) (r : Spad × Nat) (b : Bench) : Bench :=
  noteNonfin 2 r.2 { b with spad := r.1, dbl := soundWords (vecWritten (spadRd b.spad) x) b.dbl }

/-- The words written are found in what the scratchpad held before the run. -/
theorem modBench_vecRan (x : VecDesc) (r : Spad × Nat) (d : Dev) (i : Nat) :
    d.modBench i (fun b => noteNonfin 2 r.2 { b with spad := r.1, dbl := soundWords (vecWritten (spadRd (d.bench i).spad) x) b.dbl }) =
      d.modBench i (vecRan x r) := modBench_congr rfl

/-- R132, R134: a task whose checks pass and whose banks are ready and sound runs. -/
theorem vecPerform_runs {r : Spad × Nat} (hr : vecRun (d.bench i).spad (vecDescOf ws) d.free (taskRand d i t (vecDescOf ws).streamId) = r)
    (hmiss : vecMissing (d.bench i) (vecDescOf ws) (ctxSpan (vecDescOf ws).sr t.off) = none)
    (hbad : vecBad (d.bench i) (vecDescOf ws) (ctxSpan (vecDescOf ws).sr t.off) = none) :
    vecPerform i t ws c d =
      { modSlot (d.modBench i (vecRan (vecDescOf ws) r)) i 2 0 (ranOk ws) with free := d.free + 1 } := by
  simp only [vecPerform, hmiss, hbad, hr]
  exact congrArg (fun x : Dev => { modSlot x i 2 0 (ranOk ws) with free := d.free + 1 }) (modBench_vecRan _ r d i)

/-- R128: the row of the operation that the head descriptor names runs it. -/
theorem devVec_performs (hslots : (d.bench i).vec.slots = t :: rest) (hran : t.ran = false) (hfetch : fetchDesc (d.bench i) 2 t.off = .words ws)
    (hop : (vecDescOf ws).op = op) (hchecks : vecChecks (d.bench i) (vecDescOf ws) (ctxSpan (vecDescOf ws).sr t.off) = .passes) :
    devVec op i c d = vecPerform i t ws c d := by
  simp [devVec, hslots, hran, hfetch, hop, hchecks]

theorem exec_vectorRow : ∀ p ∈ vectorRows, ∀ (i : Fin 132) (s : State), exec (p.1 i) s = onEngine i.val (devVec p.2 i.val) s := by
  unfold vectorRows
  repeat refine List.forall_mem_cons.2 ⟨fun _ _ => rfl, ?_⟩
  exact fun _ hp => absurd hp List.not_mem_nil

/-! ### The row engine (R135, R138) -/

/-- What a run of the row engine with results `r` writes to its bench (R112, R135, R139). -/
def rowRan (x : RowDesc) (r : Spad × Tab Nat × Nat) (b : Bench) : Bench :=
  noteNonfin 3 r.2.2 { b with spad := r.1, dbl := soundWords (rowWritten x) b.dbl, stat := r.2.1 }

/-- R141: a task runs where no word of the scratchpad and no record of the stat store is uncorrectable. -/
theorem rowGo_runs {r : Spad × Tab Nat × Nat}
    (hr : rowRun (d.bench i).spad (d.bench i).stat (rowDescOf ws) (taskRand d i t (rowDescOf ws).streamId) = r) (hdbl : (d.bench i).dbl = []) (hstat : (d.bench i).statDbl = []) :
    rowGo i t ws c d = modSlot (d.modBench i (rowRan (rowDescOf ws) r)) i 3 0 (ranOk ws) := by
  have hword : badWord (d.bench i) (rowReadBytes (rowDescOf ws) ++ ctxSpan (rowDescOf ws).sr t.off) = none := by simp [badWord, hdbl]
  have hrecord : (if rowReadsRecord (rowDescOf ws) then badRecord (d.bench i) (rowDescOf ws).statBase (rowDescOf ws).rows else none) = none := by
    simp [badRecord, hstat]
  simp only [rowGo, hword, hrecord, hr]
  refine congrArg (modSlot · i 3 0 (ranOk ws)) (modBench_congr ?_)
  simp only [hstat, List.filter_nil, ite_self]
  rw [rowRan, ← hstat]

/-- R114, R135: a task whose checks pass runs where the stat store, if it uses it, and its banks are the engine's. No error is met in a
record, so that none is marked. -/
theorem rowPerform_goes
    (hstore : rowUsesStore (rowDescOf ws) = true → statReady (d.bench i) 3 = true)
    (hmiss : missingAt (d.bench i) 3 (rowReadBytes (rowDescOf ws) ++ rowWritten (rowDescOf ws) ++ ctxSpan (rowDescOf ws).sr t.off) = none) :
    rowPerform i t ws none c d = rowGo i t ws c d := by
  have hready : (rowUsesStore (rowDescOf ws) && !statReady (d.bench i) 3) = false := by
    cases huses : rowUsesStore (rowDescOf ws) with
    | false => rfl
    | true => rw [hstore huses]; rfl
  simp only [rowPerform, hready, hmiss, Bool.false_eq_true, if_false]
  exact congrArg (rowGo i t ws c) (ite_self d)

/-- R138: the row of the operation that the head descriptor names runs it. -/
theorem devRow_performs (hslots : (d.bench i).row.slots = t :: rest) (hran : t.ran = false) (hfetch : fetchDesc (d.bench i) 3 t.off = .words ws)
    (hop : (rowDescOf ws).op = op) (hcheck : rowCheck (rowDescOf ws) (ctxSpan (rowDescOf ws).sr t.off) = none) (e : Option (Fin 8192 × Bool)) :
    devRow op i e c d = rowPerform i t ws e c d := by
  simp [devRow, hslots, hran, hfetch, hop, hcheck]

theorem exec_rowRow : ∀ p ∈ rowRows, ∀ (i : Fin 132) (s : State), exec (p.1 i) s = onEngine i.val (devRow p.2 i.val none) s := by
  unfold rowRows
  repeat refine List.forall_mem_cons.2 ⟨fun _ _ => rfl, ?_⟩
  exact fun _ hp => absurd hp List.not_mem_nil

end

end Sys2Proof.Machine

open Sys2Proof Sys2Proof.Machine

/-- Settles O18: every vector row is `devVec` of its operation, which runs the head task as `modSlot_runsTask` says. -/
theorem vectorRowsRun : Obligations.VectorRowsRun := by
  intro p hp s i t rest ws hw hg hslots hran hfetch hop hchecks hmiss hbad r
  have hr : vecRun (s.here.bench i.val).spad (vecDescOf ws) s.here.free (taskRand s.here i.val t (vecDescOf ws).streamId) = r := rfl
  clear_value r
  have hrun := modSlot_runsTask (f := vecRan (vecDescOf ws) r) (ws := ws) (m := 2) (d := s.here) hslots
  refine ⟨_, (exec_vectorRow p hp i s).trans (onEngine_eq hw hg
    ((devVec_performs (d := s.here) hslots hran hfetch hop hchecks).trans (vecPerform_runs (d := s.here) hr hmiss hbad))), rfl, rfl, ?_⟩
  exact ⟨hrun.read Bench.spad, hrun.read (·.vec.slots), hrun.read (·.vec.nonfinCnt), hrun.read (·.vec.nonfinite),
    hrun.read Bench.owner, hrun.read Bench.stat, hrun.others, congrArg (fun x : Dev => { x with free := s.dev.free }) hrun.dev⟩

/-- Settles O19: every row of the row engine is `devRow` of its operation, which runs the head task as `modSlot_runsTask` says. -/
theorem rowEngineRowsRun : Obligations.RowEngineRowsRun := by
  intro p hp s i t rest ws hw hg hslots hran hfetch hop hcheck hstore hmiss hdbl hstat r
  have hr : rowRun (s.here.bench i.val).spad (s.here.bench i.val).stat (rowDescOf ws) (taskRand s.here i.val t (rowDescOf ws).streamId) = r := rfl
  clear_value r
  have hrun := modSlot_runsTask (f := rowRan (rowDescOf ws) r) (ws := ws) (m := 3) (d := s.here) hslots
  refine ⟨_, (exec_rowRow p hp i s).trans (onEngine_eq hw hg ((devRow_performs (d := s.here) hslots hran hfetch hop hcheck none).trans
    ((rowPerform_goes (d := s.here) hstore hmiss).trans (rowGo_runs (d := s.here) hr hdbl hstat)))), rfl, rfl, ?_⟩
  exact ⟨hrun.read Bench.spad, hrun.read Bench.stat, hrun.read (·.row.slots), hrun.read (·.row.nonfinCnt),
    hrun.others, hrun.dev⟩

end

section
/-! SUPPORT. The rows of the bench DMA: how a descriptor runs, and how one whose accesses are all acknowledged completes. -/

namespace Sys2Proof.Machine

open Sys2Proof

theorem exec_dmaRow : ∀ p ∈ dmaRowTable, ∀ (i : Fin 132) (s : State), exec (p.1 i) s = onEngine i.val (devDma p.2 i.val none) s := by
  unfold dmaRowTable
  repeat refine List.forall_mem_cons.2 ⟨fun _ _ => rfl, ?_⟩
  exact fun _ hp => absurd hp List.not_mem_nil

theorem exec_dmaDescComplete {s : State} {i : Fin 132} (hw : s.Works) (hg : (s.dev.bench i.val).gated = false) :
    exec (.dmaDescComplete i) s = .next (s.withDev (devDmaComplete i.val s.ctl s.here)) :=
  onEngine_eq (f := devDmaComplete i.val) hw hg rfl

section
variable {kind i : Nat} {c : Ctl} {d : Dev} {t : Task} {rest : List Task} (hslots : (d.bench i).dma.slots = t :: rest)
include hslots

/-- R121, R165: the row of the kind that the head descriptor names moves its data, where its checks pass, no block of its spans is held and
its banks are the DMA's. No error is met in a record, so that none is marked. -/
theorem devDma_runs {ws : List Nat} (hran : t.ran = false) (hfetch : fetchDesc (d.bench i) 0 t.off = .words ws) (hkind : (dmaDescOf ws).kind = kind)
    (hcheck : dmaCheck d (dmaDescOf ws) = none) (hheld : dmaHeld d (dmaDescOf ws) = false) (hmiss : dmaMissing (d.bench i) (dmaDescOf ws) = none) :
    devDma kind i none c d =
      let d1 := modSlot d i 0 0 (fun y => { y with issued := true, ran := true, words := ws })
      dmaStopped i (if kind = 0 ∨ kind = 3 then dmaLoad i (dmaDescOf ws) c d1 else dmaStore i (dmaDescOf ws) c d1) := by
  have hmark : (if kind = 2 then statEcc i (ownEcc (dmaDescOf ws).spadOff (dmaDescOf ws).h none) c d else d) = d := ite_self d
  simp only [devDma, hslots, hran, hfetch, hkind, hcheck, hheld, hmiss, hmark]
  simp

/-- R123: a STORE that is to end with OK and writes no tags completes, its data being in memory. -/
theorem devDmaComplete_store (hran : t.ran = true) (hacked : t.hostWrites = 0) (hlanded : dmaLanding d (dmaDescOf t.words) = false)
    (hkind : (dmaDescOf t.words).kind = 1) (htags : (dmaDescOf t.words).dowelGen = false) (hres : t.res = 0) (hsrc : t.badSrc = false) :
    devDmaComplete i c d = dmaSignal (dmaDescOf t.words) resOk (endTask i 0 resOk d) := by
  have hends : dmaEnds t = resOk := by simp [dmaEnds, hres, hsrc, resOk]
  have hfinish : dmaFinish i t (dmaDescOf t.words) d = d := by simp [dmaFinish, hkind, htags, hres]
  cases hmiss : dmaMissing (d.bench i) (dmaDescOf t.words) with
  | none => simp [devDmaComplete, hslots, hran, hacked, hlanded, hmiss, hends, hfinish]
  | some p => simp [devDmaComplete, hslots, hran, hacked, hlanded, hmiss, hkind, hends, hfinish]

end

/-- R123: the signal of a descriptor changes the jigs alone. -/
theorem dmaSignal_jigs (x : DmaDesc) (st : Nat) (d : Dev) : ∃ jigs, dmaSignal x st d = { d with jigs := jigs } := by
  unfold dmaSignal
  split
  · exact ⟨_, rfl⟩
  · exact ⟨d.jigs, rfl⟩

end Sys2Proof.Machine

open Sys2Proof Sys2Proof.Machine

/-- Settles O21: `devDma_runs` says how a descriptor runs; one that completes ends its task as `endTask_endsTask` says, and its signal changes
the jigs alone. -/
theorem dmaDescriptorsRun : Obligations.DmaDescriptorsRun := by
  intro s i t rest hw hg hslots
  refine ⟨?_, ?_⟩
  · intro p hp ws hran hfetch hkind hcheck hheld hmiss d
    refine (exec_dmaRow p hp i s).trans (onEngine_eq hw hg ((devDma_runs (d := s.here) hslots hran hfetch hkind hcheck hheld hmiss).trans ?_))
    rw [modSlot_running (m := 0) (d := s.here) hslots]
    rfl
  · intro hran hacked hlanded hkind htags hres hsrc
    have hends := endTask_endsTask (m := 0) (d := s.here) resOk hslots
    obtain ⟨jigs, hsignal⟩ := dmaSignal_jigs (dmaDescOf t.words) resOk (endTask i.val 0 resOk s.here)
    have hrow := (devDmaComplete_store (c := s.ctl) (d := s.here) hslots hran hacked hlanded hkind htags hres hsrc).trans hsignal
    refine ⟨_, (exec_dmaDescComplete hw hg).trans (congrArg _ (congrArg _ hrow)), rfl, ?_, ?_, ?_, fun k hk => ?_, hends.dev⟩
    · exact (hends.bench.read (·.dma.slots)).trans (congrArg (List.drop 1) hslots)
    · exact hends.bench.read (·.dma.last)
    · exact hends.bench.read (·.dma.taskCnt)
    · exact (hends.others k hk).eq

end

section
/-! SUPPORT. How the control records of a jig issue (R118, R237, R241, R242, R248). -/

namespace Sys2Proof.Machine

open Sys2Proof

section
variable {j qi kind : Nat} {r : JigRec} {c : Ctl} {d : Dev} (hhead : headRec (d.queue j qi) = some r) (hchosen : chosenQueue d j = some qi)

/-- R228: a record that completes at issue signals, and its queue's head moves on. -/
theorem issueHead_done {act : Nat → Dev → IssueResult × Dev} {e : Dev} (h : act (d.jig j).serial (takeSerial j qi d) = (.done, e)) :
    issueHead c j qi r act d = moveStream c (moveHead c.now j qi ((d.queue j qi).head + 1) (signalRec c j qi (d.queue j qi).head r e)) := by
  simp only [issueHead, h]

include hhead

/-- R248: a GATE record whose gate is reached already, and stands in the stream, issues as its kind does. -/
theorem devGate_reached (hkind : r.kind = 7) (hin : recAddr (d.queue j qi) r < strmLen d)
    (hreach : (gateAt d (gatePos d (d.queue j qi) r)).reach.isSome = true) : devGate j qi c d = issueKind 7 j qi (issueGate j qi) c d := by
  have hgate : reachGate c.now (gatePos d (d.queue j qi) r) d = d := if_pos hreach
  simp [devGate, hhead, hkind, Nat.not_le.2 hin, hgate]

include hchosen

/-- R228: the record at the head of the chosen queue issues by the row of its kind. -/
theorem issueKind_heads (hkind : r.kind = kind) (act : JigRec → Queue → Nat → Dev → IssueResult × Dev) :
    issueKind kind j qi act c d = issueHead c j qi r (act r (d.queue j qi)) d := by
  simp [issueKind, hhead, hkind, hchosen]

/-- R241: PHASE holds its queue at the boundary. -/
theorem devPhase_heads (hkind : r.kind = 8) :
    devPhase j qi c d = gateIdle ((takeSerial j qi d).modQueue j qi (fun q => { q with state := 4, phases := q.phases + 1 })) := by
  simp [devPhase, hhead, hkind, hchosen]

/-- R237: LOOP counts; it jumps back while it has jumps left, else it clears its register and falls through. -/
theorem devLoop_heads (hkind : r.kind = 9) {v : Nat} (hv : v = (d.queue j qi).loopIdx.getD r.loopSel 0 + 1) :
    devLoop j qi c d = moveStream c (moveHead c.now j qi (if v ≤ r.jumps then bits r.addr 0 16 else (d.queue j qi).head + 1)
      (signalRec c j qi (d.queue j qi).head r
        ((takeSerial j qi d).modQueue j qi (fun x => { x with loopIdx := setAt x.loopIdx r.loopSel (if v ≤ r.jumps then v else 0) })))) := by
  subst hv
  simp only [devLoop, hhead, hkind, hchosen, decide_eq_true_eq, and_self, if_true]

/-- R242, R245: END ends its queue for the step, and leaves the stream the mark of the next. -/
theorem devEnd_heads (hkind : r.kind = 12) :
    devEnd j qi c d = moveStream c (signalRec c j qi (d.queue j qi).head r ((takeSerial j qi d).modQueue j qi (fun x =>
      { x with state := 5, gates := x.gates ++ [((d.life.step.toNat + 1) * strmLen d, (d.jig j).serial)] }))) := by
  simp [devEnd, hhead, hkind, hchosen]

end

/-- R118, R236: HANDOVER completes where the value takes effect in every bench it names. -/
theorem issueHandover_done {j serial : Nat} {r : JigRec} {q : Queue} {d : Dev} (h : ∀ i ∈ namedBenches d j r,
    ownerWriteOk (setBitsOf (bits r.addr 0 32) 16) (bits (bits r.addr 0 32) 16 3) (bitAt (bits r.addr 0 32) 19) (bits (bits r.addr 0 32) 20 3) (d.bench i) = true) :
    issueHandover j r q serial d = (.done, (namedBenches d j r).foldl (fun x i => x.modBench i (writeOwnerSet (bits r.addr 0 32))) d) :=
  congrArg (Prod.mk · _) (if_pos (List.all_eq_true.2 h))

/-- The jig of a queue that PHASE holds: its record has taken a serial number, the pointer is past the queue, and the queue waits. -/
theorem jig_phaseHeld (j qi : Nat) (f : Queue → Queue) (d : Dev) : ((takeSerial j qi d).modQueue j qi f).jig j =
    { d.jig j with serial := (d.jig j).serial + 1, ptr := qi + 1, queues := tabMod {} (d.jig j).queues qi f } := by
  rw [Dev.modQueue, Dev.jig_modJig_same, takeSerial, Dev.jig_modJig_same]

theorem queue_takeSerial (j qi k : Nat) (d : Dev) : (takeSerial j qi d).queue j k = d.queue j k := by
  rw [Dev.queue, takeSerial, Dev.jig_modJig_same]
  rfl

/-- Benches that clock-gate leave the jigs. -/
theorem OnlyGates.jig {d e : Dev} (h : OnlyGates d e) (j : Nat) : e.jig j = d.jig j := congrArg (·.jig j) h.dev

end Sys2Proof.Machine

open Sys2Proof Sys2Proof.Machine

/-- Settles O24: each row is the function of its kind, of which the lemmas above say what it does to the head of the chosen queue. -/
theorem jigControlRecordsIssue : Obligations.JigControlRecordsIssue := by
  intro s r
  refine ⟨?_, ?_, ?_, ?_, ?_⟩
  · rintro b qi ⟨hw, hhead, hchosen⟩ hkind hok
    exact onWork_eq (f := issueKind 5 b.val qi (issueHandover b.val)) hw
      ((issueKind_heads (d := s.here) hhead hchosen hkind _).trans (issueHead_done (issueHandover_done hok)))
  · rintro b qi ⟨hw, hhead, hchosen⟩ hkind hin - hreach
    exact onWork_eq (f := devGate b.val qi) hw ((devGate_reached (d := s.here) hhead hkind hin hreach).trans
      ((issueKind_heads (d := s.here) hhead hchosen hkind _).trans (issueHead_done (if_neg (Nat.not_le.2 hin)))))
  · rintro j qi ⟨hw, hhead, hchosen⟩ hkind
    have hgates := gateIdle_onlyGates ((takeSerial j.val qi s.here).modQueue j.val qi (fun q => { q with state := 4, phases := q.phases + 1 }))
    have hjig := (hgates.jig j.val).trans (jig_phaseHeld _ _ _ _)
    refine ⟨_, onWork_eq (f := devPhase j.val qi) hw (devPhase_heads (d := s.here) hhead hchosen hkind), rfl, ?_, congrArg Jig.serial hjig,
      congrArg Jig.ptr hjig, (congrArg Jig.ctr hjig).trans rfl, fun k hk => ?_, fun k => (hgates.bench k).eq, congrArg (fun x : Dev => { x with jigs := s.dev.jigs }) hgates.dev⟩
    · refine (congrArg (·.queue j.val qi) hgates.dev).trans ((Dev.queue_modQueue_same _ _ _ _).trans ?_)
      rw [queue_takeSerial]
      rfl
    · exact (hgates.jig k).trans ((Dev.jig_modJig_ne _ _ hk).trans (Dev.jig_modJig_ne _ _ hk))
  · rintro j qi ⟨hw, hhead, hchosen⟩ hkind v
    exact onWork_eq (f := devLoop j.val qi) hw (devLoop_heads (d := s.here) hhead hchosen hkind rfl)
  · rintro j qi ⟨hw, hhead, hchosen⟩ hkind
    exact onWork_eq (f := devEnd j.val qi) hw (devEnd_heads (d := s.here) hhead hchosen hkind)

end

section
/-! SUPPORT. What a sound read by an engine leaves of the device: all but the near tier's own state (R152, R153, R177, R178). -/

namespace Sys2Proof.Machine

open Sys2Proof

/-- `e` differs from `d` in the state of the near tier alone. -/
def OnlyNear (d e : Dev) : Prop := e = { d with near := e.near }

namespace OnlyNear

theorem refl (d : Dev) : OnlyNear d d := rfl

theorem trans {d e g : Dev} (h : OnlyNear d e) (h' : OnlyNear e g) : OnlyNear d g :=
  Eq.trans h' (congrArg (fun x : Dev => { x with near := g.near }) h)

theorem ite {p : Prop} [Decidable p] {e g : Dev} (h : OnlyNear d e) (h' : OnlyNear d g) : OnlyNear d (if p then e else g) := by
  split
  · exact h
  · exact h'

theorem foldl {α : Type} {f : Dev → α → Dev} (h : ∀ d x, OnlyNear d (f d x)) (l : List α) (d : Dev) : OnlyNear d (l.foldl f d) :=
  List.foldlRecOn (motive := OnlyNear d) l f (refl d) fun e he x _ => he.trans (h e x)

theorem modNear (f : Near → Near) (d : Dev) : OnlyNear d (d.modNear f) := rfl

theorem turn (n k : Nat) (d : Dev) : OnlyNear d (turn n k d) := rfl

theorem benches {d e : Dev} (h : OnlyNear d e) : e.benches = d.benches := by
  rw [OnlyNear] at h
  rw [h]

theorem modPc (n : Nat) (f : Pc → Pc) (d : Dev) : OnlyNear d (d.modPc n f) := rfl

end OnlyNear

theorem writePeriod_onlyNear (n : Nat) (d : Dev) : OnlyNear d (writePeriod n d) := by
  have hstarted : OnlyNear d (if (d.pc n).writing then d else turn n 1 d) := .ite (.refl d) (.turn n 1 d)
  exact (OnlyNear.ite (hstarted.trans (.turn n 1 _)) hstarted).trans (.modPc n _ _)

theorem queueRead_onlyNear (line : Nat) (d : Dev) : OnlyNear d (queueRead line d) :=
  .ite (.refl d) (.ite ((OnlyNear.turn _ 1 d).trans (.modPc _ _ _)) (.refl d))

theorem readServed_onlyNear (line : Nat) (d : Dev) : OnlyNear d (readServed line d) :=
  .ite (.refl d) (.ite (.refl d) (writePeriod_onlyNear _ d))

/-- R178: a read that does not allocate counts in its bay-cache half, no more. -/
theorem countBc_onlyNear (line : Nat) (d : Dev) : OnlyNear d (countBc false d line) := by
  unfold countBc
  split
  · exact .refl d
  · refine .ite (.refl d) (.ite (.refl d) (.ite (.modNear _ d) ?_))
    simp only [Bool.false_eq_true, if_false]
    exact .modNear _ d

theorem readLine_onlyNear (d : Dev) (line : Nat) : OnlyNear d (readLine false d line) := by
  have hcount := countBc_onlyNear line d
  unfold readLine
  split
  · exact .refl d
  · exact .ite hcount ((hcount.trans (queueRead_onlyNear _ _)).trans (readServed_onlyNear _ _))

/-- R153: a read outside the unified range that meets no poison, by an engine whose reads do not allocate, changes the near tier's state alone. -/
theorem readSpan_sound_onlyNear {c : Ctl} {d : Dev} {a n : Nat} (hrange : rangeOf a ≠ .unified) (hsound : (readSpan c d a n).2.1 = false) :
    OnlyNear d (readSpan c d a n).2.2 := by
  have hclean : (Memory.linesOf a n).filter d.linePoison = [] := List.isEmpty_iff.1 (Bool.not_eq_false' _ ▸ hsound)
  have hreads : d.noteReads a n = d := if_pos (.inr hrange)
  have hbad : noteFarBad c a n d = d := by
    have hnone : badFarBlocks d a n = [] := if_pos (.inr (.inl hrange))
    rw [noteFarBad, hnone, List.foldl_nil]
  have hread : (readSpan c d a n).2.2 = (Memory.linesOf a n).foldl (readLine false) d := by
    simp only [readSpan, readSpanBy, hclean, hreads, hbad, List.foldl_nil]
  exact hread ▸ OnlyNear.foldl readLine_onlyNear _ d

end Sys2Proof.Machine

end

section
/-! SUPPORT. What the rows of the far tier change: STRM_SUBMIT (R214), the events of a root port (R190, R226), the movement of pages (R218,
R219), and which identifiers name the same segment (R193). -/

namespace Sys2Proof.Machine

open Sys2Proof

/-- A command of a domain that stops at the switch to the oscillator, before it, leaves what its function answers. -/
theorem onClocked_eq {f : Ctl → Dev → Dev} {s : State} {d : Dev} (hlive : s.Live) (hosc : s.ctl.clk.onOsc = false) (h : f s.ctl s.here = d) :
    onClocked f s = .next (s.withDev d) :=
  (onClocked_live f s hlive hosc).trans (congrArg _ (congrArg _ h))

/-- A change of the far tier that leaves it as it is leaves the device as it is. -/
theorem modFar_eq_self {d : Dev} {f : FarTier → FarTier} (h : f d.far = d.far) : d.modFar f = d :=
  congrArg (fun x => { d with far := x }) h

section
variable {c : Ctl} {d : Dev}

/-! ### The queue of a stager (R214) -/

/-- R214: an aligned address that finds room is queued; any other is counted. -/
theorem devSubmit_eq (bay v : Nat) : devSubmit bay v c d = d.modStager bay (fun g =>
    if bits v 0 48 % 64 = 0 ∧ g.queue.length < 64 then { g with queue := g.queue ++ [{ addr := bits v 0 48 }] }
    else { g with submitFullCnt := cntInc g.submitFullCnt }) := by
  refine congrArg (d.modStager bay) (funext fun g => ?_)
  have hdropped : (bits v 0 48 % 64 ≠ 0 ∨ 64 ≤ g.queue.length) ↔ ¬(bits v 0 48 % 64 = 0 ∧ g.queue.length < 64) := by omega
  simp only [hdropped, ite_not]

/-! ### The events of a root port (R190, R226) -/

/-- R190: a stager whose descriptor touches no segment of the port is left as it is by the port's link-down. -/
theorem stagerLinkDown_untouched {n b : Nat} (h : touchesPort d n b = false) : stagerLinkDown n b d = d := if_pos (by rw [h]; rfl)

/-- R190: a page that is not demoted stays as it is at a link-down. -/
theorem pageLinkDown_settled {n : Nat} {q : Nat × Page} (h : q.2.res ≠ .demoting) : pageLinkDown n d q = d := if_neg fun hq => h hq.1

/-- R225: with no bad block waiting, none is let into the repair table. -/
theorem admitRepairs_noneWait (h : d.far.repairWait = []) : admitRepairs c d = d := by
  have hsame (room : Nat) : d.modFar (fun f => { f with repairs := f.repairs ++ f.repairWait.take room, repairWait := f.repairWait.drop room }) = d := by
    have htaken : d.far.repairs ++ d.far.repairWait.take room = d.far.repairs := by rw [h, List.take_nil, List.append_nil]
    have hleft : d.far.repairWait.drop room = d.far.repairWait := by rw [h, List.drop_nil]
    refine modFar_eq_self ?_
    rw [htaken, hleft]
  simp only [admitRepairs, hsame, h, List.take_nil, List.foldl_nil]

/-- R190: a link-down with nothing open on the port unmaps its window and is recorded. -/
theorem devCxlDown_idle {n : Nat} (hrole : (d.cxl n).role = 0) (hup : (d.cxl n).up = true) (hstagers : ∀ b < 4, touchesPort d n b = false)
    (hrepairs : d.far.repairs = []) (hwait : d.far.repairWait = []) (hpages : ∀ q ∈ d.far.pages, q.2.res ≠ .demoting) :
    devCxlDown n c d = raise c (d.modCxl n (fun p => { p with up := false })) (Fs.farLinkDown n) 0 := by
  have hstagersStay : foldRange 4 d (stagerLinkDown n) = d :=
    List.foldlRecOn (motive := (· = d)) _ _ rfl fun _ hx b hb => hx.symm ▸ stagerLinkDown_untouched (hstagers b (List.mem_range.1 hb))
  have hpagesStay : d.far.pages.foldl (pageLinkDown n) d = d :=
    List.foldlRecOn (motive := (· = d)) _ _ rfl fun _ hx q hq => hx.symm ▸ pageLinkDown_settled (hpages q hq)
  have hlost (p : Repair → Bool) : (d.far.repairs ++ d.far.repairWait).filter p = [] := by rw [hrepairs, hwait, List.append_nil, List.filter_nil]
  have htableStays (keep : Repair → Bool) : d.modFar (fun f => { f with repairs := f.repairs.filter keep, repairWait := f.repairWait.filter keep }) = d := by
    have hin : d.far.repairs.filter keep = d.far.repairs := by rw [hrepairs, List.filter_nil]
    have hwaiting : d.far.repairWait.filter keep = d.far.repairWait := by rw [hwait, List.filter_nil]
    refine modFar_eq_self ?_
    rw [hin, hwaiting]
  simp only [devCxlDown, hrole, hup, BEq.rfl, Bool.and_true, Bool.not_true, Bool.false_eq_true, if_false, hstagersStay, hpagesStay, hlost, List.foldl_nil,
    htableStays, admitRepairs_noneWait hwait]

/-- R226: a time-out of a line that no transaction waits for leaves poison to the engine that reads it next. -/
theorem devFarTimeout_unasked {a : Nat} (n : Nat) (hnone : (d.home (homeOfLine (a / 64))).txns.find? (fun t => t.req.line == a / 64 && t.st == .tMem) = none)
    (hfresh : d.near.badReads.contains (a / 64) = false) :
    devFarTimeout n a false c d = raise c (d.modNear (fun m => { m with badReads := m.badReads ++ [a / 64] })) (Fs.farTimeout n) a := by
  simp only [devFarTimeout, hnone, Dev.modNear, hfresh, Bool.false_eq_true, if_false]

/-- R226: a time-out of a line that a transaction waits for answers poison to it. -/
theorem devFarTimeout_asked {a : Nat} (n : Nat) {t : Txn}
    (hfind : (d.home (homeOfLine (a / 64))).txns.find? (fun t => t.req.line == a / 64 && t.st == .tMem) = some t) :
    devFarTimeout n a false c d =
      raise c (deliver c (homeOfLine (a / 64)) (a / 64) t { bytes := List.replicate 64 0, poison := true } d) (Fs.farTimeout n) a := by
  simp only [devFarTimeout, hfind, Bool.false_eq_true, if_false]

/-! ### Pages (R218, R219) -/

theorem devPromoteStart_wanted {n f : Nat} {p : Page} (hpage : tabFind d.far.pages n = some p) (hframe : lowestFrame d = some f)
    (hwants : wantsPromotion d n p = true) : devPromoteStart n c d = d.modPage n { p with res := .promoting, frame := f } := by
  simp only [devPromoteStart, hpage, hframe, hwants, if_true]

/-- R219: a promotion that no bad block holds places the page's blocks and makes it NEAR_CLEAN. -/
theorem devPromoteDone_places {n : Nat} {p : Page} (hpage : tabFind d.far.pages n = some p) (hres : p.res = .promoting) (hwaiting : p.waiting = [])
    (hheld : (holdOnPages c d (0x200000000000 + n * 0x200000) 0x200000).1 = false) :
    devPromoteDone n c d = ((foldRange 512 (noteFarBad c (0x200000000000 + n * 0x200000) 0x200000 d) (placeBlock n p.seg p.frame)).modPage n
      { p with res := .nearClean, waiting := [] }).modStager (pageStager n) (fun g => { g with promoteCnt := cntInc g.promoteCnt }) := by
  simp only [devPromoteDone, hpage, hres, hwaiting, hheld, ne_eq, not_true_eq_false, Bool.false_eq_true, if_false, List.foldl_nil]

/-- R218: below the low watermark the first page of the sweep, if the sweep may take it and it was not referenced, starts to leave. -/
theorem devDemoteStart_takesFirst {n : Nat} {p : Page} {rest : Tab Page} (hleaving : leavingPage d = none) (hlow : freeFrames d < d.far.lowWm.toNat)
    (horder : sweepOrder d = (n, p) :: rest) (hsweepable : sweepable p = true) (href : p.referenced = false) :
    devDemoteStart c d = demote n (d.modFar (fun f => { f with sweeping := true })) := by
  have hgo : (decide (freeFrames d < d.far.lowWm.toNat) || (d.far.sweeping && decide (freeFrames d < highWm d))) = true := by
    rw [decide_eq_true hlow, Bool.true_or]
  have hfirst : sweepOrder (d.modFar (fun f => { f with sweeping := true })) = (n, p) :: rest := horder
  simp only [devDemoteStart, hleaving, hgo, hfirst, List.cons_append, clockSweep, hsweepable, href, Bool.not_true, Bool.false_eq_true, if_false]

/-! ### Segments (R193) -/

theorem seg_modSeg_same (id : Nat) (f : Seg → Seg) (d : Dev) : (d.modSeg id f).seg id = f (d.seg id) := by
  rw [Dev.seg, Dev.modSeg, Dev.cxl_modCxl_same, tabGet_mod_same]
  rfl

/-- R196: a segment that is sealed is SEALED. -/
theorem seg_sealSegment_state (now id : Nat) (d : Dev) : ((sealSegment now id d).seg id).state = 2 := congrArg Seg.state (seg_modSeg_same id _ d)

/-- R193: identifiers of one port and one index name one segment. -/
theorem seg_congr {id id' : Nat} (hport : Dev.segPort id = Dev.segPort id') (hidx : Dev.segIdx id = Dev.segIdx id') (d : Dev) : d.seg id = d.seg id' := by
  rw [Dev.seg, Dev.seg, hport, hidx]

/-! ### A demotion ends (R218) -/

/-! The kernel compares whole devices where it has to unfold these equations together: the proofs below rewrite with them one by one. -/

theorem benches_modPage (n : Nat) (p : Page) (d : Dev) : (d.modPage n p).benches = d.benches := rfl
theorem benches_sealSegment (now id : Nat) (d : Dev) : (sealSegment now id d).benches = d.benches := rfl
theorem benches_writeSegment (id owner : Nat) (packed : Packed) (d : Dev) : (writeSegment id owner packed d).benches = d.benches := rfl
theorem seg_modPage (n : Nat) (p : Page) (id : Nat) (d : Dev) : (d.modPage n p).seg id = d.seg id := rfl
theorem seg_modStager (b : Nat) (f : Stager → Stager) (id : Nat) (d : Dev) : (d.modStager b f).seg id = d.seg id := rfl
theorem page_modPage_same (n : Nat) (p : Page) (d : Dev) : tabFind (d.modPage n p).far.pages n = some p := tabFind_put_same _ _ _

/-- What a demotion whose frame reads sound makes of the page `p` of number `n`: FAR, on its segment, which is sealed. -/
structure Demoted (n : Nat) (p : Page) (d e : Dev) : Prop where
  benches : e.benches = d.benches
  lastPort : (e.stager (pageStager n)).lastPort = Dev.segPort p.seg
  seg : (e.seg p.seg).state = 2
  page : tabFind e.far.pages n = some { p with res := .far, reads := 0 }

theorem devDemoteDone_demotes {n : Nat} {p : Page} (hpage : tabFind d.far.pages n = some p) (hres : p.res = .demoting)
    (hframe : p.frame * 0x200000 < 0x8000000000) (hheld : spanHeld d (p.frame * 0x200000) 0x200000 = false)
    (hsound : (readSpan c d (p.frame * 0x200000) 0x200000).2.1 = false) : Demoted n p d (devDemoteDone n c d) := by
  have hrange : rangeOf (p.frame * 0x200000) ≠ .unified := by simp only [rangeOf, hframe, if_true, ne_eq, reduceCtorEq, not_false_eq_true]
  have hread := readSpan_sound_onlyNear hrange hsound
  simp only [devDemoteDone, hpage, hres, hheld, hsound, ne_eq, not_true_eq_false, Bool.false_eq_true, or_self, if_false]
  exact {
    benches := by rw [Dev.modStager_benches, benches_modPage, benches_sealSegment, benches_writeSegment, hread.benches]
    lastPort := by rw [Dev.stager_modStager_same]
    seg := by rw [seg_modStager, seg_modPage, seg_sealSegment_state]
    page := by rw [Dev.modStager_far, page_modPage_same] }

end

end Sys2Proof.Machine

open Sys2Proof Sys2Proof.Machine

/-- Settles O28: the row is the write of a register of the stager's block, let through, dropped or not arrived. -/
theorem stagerQueueTakesSubmits : Obligations.StagerQueueTakesSubmits := by
  intro s b p v hw
  refine ⟨fun hopen => ?_, fun hshut => guardedRow_shut hw hshut _, fun habsent => guardedRow_absent hw habsent _⟩
  exact (guardedRow_open hw hopen (devSubmit b.val v.toNat)).trans (congrArg _ (congrArg _ (devSubmit_eq b.val v.toNat)))

/-- Settles O31: each row is its function, of which the lemmas above say what it makes of the page; a demotion reads its frame, which changes the
near tier's state alone. -/
theorem pagesMove : Obligations.PagesMove := by
  intro s hw
  refine ⟨?_, ?_, ?_, ?_, ?_⟩
  · intro n f p hpage hframe hwants
    exact onWork_eq (f := devPromoteStart n) hw (devPromoteStart_wanted (d := s.here) hpage hframe hwants)
  · intro n p hpage hres hwaiting hheld
    refine onWork_eq (f := devPromotionEnds n) hw ?_
    exact congrArg (fun d => foldRange 8 d (fun h x => Dev.represent s.ctl h x)) (devPromoteDone_places (d := s.here) hpage hres hwaiting hheld)
  · intro n p rest hleaving hlow horder hsweepable href
    exact onWork_eq (f := devDemoteStart) hw (devDemoteStart_takesFirst (d := s.here) hleaving hlow horder hsweepable href)
  · intro n p hpage hres hframe hheld hsound
    have hdemoted := devDemoteDone_demotes (d := s.here) hpage hres hframe hheld hsound
    exact ⟨_, onWork_eq (f := devDemoteDone n) hw rfl, rfl, hdemoted.benches, hdemoted.lastPort, hdemoted.seg, _, hdemoted.page, rfl, rfl, rfl, rfl, rfl⟩
  · exact onWork_eq (f := devEpochEnd) hw rfl

/-- Settles O32: each event is its function; a link-down that finds nothing open on the port leaves stagers, pages and the repair table as they
are (`devCxlDown_idle`). -/
theorem rootPortEventsAct : Obligations.RootPortEventsAct := by
  intro s n hlive hosc
  refine ⟨?_, ?_, ?_, ?_, ?_⟩
  · intro hrole hup
    exact onClocked_eq (f := devCxlRetrain n.val) hlive hosc (if_pos ⟨hrole, hup⟩)
  · intro hrole hup hstagers hrepairs hwait hpages
    exact onClocked_eq (f := devCxlDown n.val) hlive hosc (devCxlDown_idle (d := s.here) hrole hup hstagers hrepairs hwait hpages)
  · intro a hnone hfresh
    exact onClocked_eq (f := devFarTimeout n.val a.toNat false) hlive hosc (devFarTimeout_unasked (d := s.here) n.val hnone hfresh)
  · intro a t hfind
    exact onClocked_eq (f := devFarTimeout n.val a.toNat false) hlive hosc (devFarTimeout_asked (d := s.here) n.val hfind)
  · intro a
    exact onClocked_eq (f := devFarTimeout n.val a.toNat true) hlive hosc rfl

end

section
/-! SUPPORT. A bad block whose segment identifier is past the bits that identifiers have (R193). -/

namespace Sys2Proof.Machine

open Sys2Proof

/-- A bad block that was given up. Its segment's identifier, 2^21 + 1, is past the 21 bits that identifiers have and names segment 1 of port 0. -/
def pastIdsRepair : Repair :=
  { target := 0x100, isPage := false, entry := 0, block := 0, seg := 2 ^ 21 + 1, dowel := none, attempts := 2, firstFetch := [], held := [], fixed := none, poisoned := true }

/-- The blocks run; port 0 is up with 1 GiB, all of it free, and the repair table holds that block alone. -/
def pastIdsState : State :=
  { State.reset with ctl := { State.reset.ctl with live := true },
                     dev := State.reset.dev.modFar (fun f => { f with ports := [(0, { up := true, cap := 2 ^ 30 })], repairs := [pastIdsRepair] }) }

end Sys2Proof.Machine

open Sys2Proof Sys2Proof.Machine

/-- Refutes O30: the identifiers 2^21 + 1, of a bad block's segment, and 1, of the free segment that the rewrite takes for it, differ and name one
segment of port 0 (`seg_congr`), which the last clause wants QUARANTINED and SEALED at once. R193 gives identifiers 21
bits; the clause bounds them by nothing. -/
theorem not_repairsAct : ¬ Obligations.RepairsAct := by
  intro h
  obtain ⟨-, -, hrewrite⟩ := h pastIdsState 0 pastIdsRepair ⟨rfl, rfl⟩ rfl
  have hdecided : ∀ q ∈ pastIdsState.dev.far.repairs, q.seg = pastIdsRepair.seg → q.decided = true := by decide
  have htarget : rewriteTarget pastIdsState.here pastIdsRepair.seg = some 1 := by decide
  obtain ⟨t, -, -, hquarantined, hsealed, -⟩ := hrewrite 1 hdecided (by decide) htarget rfl (.inr ⟨by decide, by decide⟩)
  have hsame : t.dev.seg pastIdsRepair.seg = t.dev.seg 1 := seg_congr (by decide) (by decide) t.dev
  have hstates : 3 = 2 := hquarantined.symm.trans ((congrArg Seg.state hsame).trans (hsealed (by decide)))
  exact absurd hstates (by decide)

end

section
/-! SUPPORT. What a signal makes of the counters and of the waits of a jig (R233, R234). -/

namespace Sys2Proof.Machine

open Sys2Proof

/-- An entry that the map does not make the absent one's value stands changed, also where a table lists its key twice. -/
theorem tabGet_tabMap {α : Type} [DecidableEq α] {d : α} {t : Tab α} {f : α → α} {k : Nat} (h : tabGet d t k ≠ d) (hf : f (tabGet d t k) ≠ d) :
    tabGet d (tabMap d t f) k = f (tabGet d t k) := by
  unfold tabGet at h hf ⊢
  induction t with
  | nil => exact absurd rfl h
  | cons p t ih =>
    obtain ⟨a, b⟩ := p
    by_cases ha : a = k
    · simp only [tabFind, ha, if_true, Option.getD_some] at hf ⊢
      simp [tabMap, hf, tabFind]
    · simp only [tabFind, ha, if_false] at h hf ⊢
      rw [← ih h hf]
      by_cases hb : f b = d
      · simp [tabMap, hb]
      · simp [tabMap, hb, tabFind, ha]

/-! ### The threshold rule (R233) -/

theorem reachedBy_iff (v : W32) (t : Nat) : reachedBy v t = true ↔ (v - BitVec.ofNat 32 t).toNat < 2 ^ 31 := by
  rw [reachedBy, decide_eq_true_iff, BitVec.toNat_sub, BitVec.toNat_ofNat]
  have hlt := v.isLt
  omega

/-- A wait once reached stays reached. -/
theorem latchQueue_latched {q : Queue} (h : q.reached = true) (g : Jig) (rel : Nat) : (latchQueue g rel q).reached = true := by simp [latchQueue, h]

/-- The head of an issuing queue is released where the threshold of its wait is reached. -/
theorem latchQueue_waits {q : Queue} {r : List Nat} (hstate : q.state = 1) (hrec : q.recs[q.head]? = some r) (hwait : bitAt (wordAt r 0) 5 = true)
    (hnot : q.reached = false) (g : Jig) (rel : Nat) :
    (latchQueue g rel q).reached = reachedBy (tabGet 0 g.ctr (bits (wordAt r 3) 0 12)) (waitThreshold r q rel) := by
  simp [latchQueue, waitReached, hstate, hrec, hwait, hnot]

/-! ### The jig that is signalled (R234) -/

/-- The jig with its counter `k` added to, before its waits are tested. -/
def ctrAdded (k add : Nat) (g : Jig) : Jig := { g with ctr := tabMod 0 g.ctr k (fun v => v + BitVec.ofNat 32 add) }

theorem jig_signal (d : Dev) (j k add : Nat) : (d.signal j k add).jig j = latchJig d.relStep (ctrAdded k add (d.jig j)) := Dev.jig_modJig_same _ _ _

theorem ctr_signal (d : Dev) (j k add : Nat) : ((d.signal j k add).jig j).ctr = tabMod 0 (d.jig j).ctr k (fun v => v + BitVec.ofNat 32 add) :=
  congrArg Jig.ctr (jig_signal d j k add)

/-- A queue that reads as no absent one does has its wait tested against the counters as added to. -/
theorem queue_signal {d : Dev} {j q : Nat} (k add : Nat) (h : d.queue j q ≠ {})
    (hlatch : latchQueue (ctrAdded k add (d.jig j)) d.relStep (d.queue j q) ≠ {}) :
    (d.signal j k add).queue j q = latchQueue (ctrAdded k add (d.jig j)) d.relStep (d.queue j q) :=
  (congrArg (fun g : Jig => tabGet ({} : Queue) g.queues q) (jig_signal d j k add)).trans (tabGet_tabMap h hlatch)

theorem queue_signal_latched {d : Dev} {j q : Nat} (k add : Nat) (h : (d.queue j q).reached = true) : ((d.signal j k add).queue j q).reached = true := by
  have hlatched := latchQueue_latched h (ctrAdded k add (d.jig j)) d.relStep
  rw [queue_signal k add (fun e => absurd (e ▸ h) nofun) (fun e => absurd (e ▸ hlatched) nofun), hlatched]

theorem queue_signal_waits {d : Dev} {j q : Nat} {r : List Nat} (k add : Nat) (hstate : (d.queue j q).state = 1)
    (hrec : (d.queue j q).recs[(d.queue j q).head]? = some r) (hwait : bitAt (wordAt r 0) 5 = true) (hnot : (d.queue j q).reached = false) :
    ((d.signal j k add).queue j q).reached = true ↔
      (tabGet 0 ((d.signal j k add).jig j).ctr (bits (wordAt r 3) 0 12) - BitVec.ofNat 32 (waitThreshold r (d.queue j q) d.relStep)).toNat < 2 ^ 31 := by
  have hissuing : (latchQueue (ctrAdded k add (d.jig j)) d.relStep (d.queue j q)).state = 1 := hstate
  rw [queue_signal k add (fun e => absurd (e ▸ hstate) (by decide)) (fun e => absurd (e ▸ hissuing) (by decide)),
    latchQueue_waits hstate hrec hwait hnot, reachedBy_iff, ctr_signal]
  rfl

/-! ### What a latched wait asks for -/

/-- The time-out of R240 does not apply to a wait that is reached. -/
theorem headWaits_reached {q : Queue} (h : q.reached = true) : headWaits q = false := by
  unfold headWaits
  split
  · simp [h]
  · rfl

/-- Whether a head issues (R228) depends on no counter but by the latch of its queue. -/
theorem queueReady_counters (d : Dev) (j : Nat) (q : Queue) (ctr : Tab W32) :
    queueReady (d.modJig j (fun x => { x with ctr := ctr })) j q = queueReady d j q := rfl

end Sys2Proof.Machine

open Sys2Proof Sys2Proof.Machine

/-- Settles O26: a signal adds to one counter of one jig, then tests the waits of its issuing heads by the threshold rule (`queue_signal_waits`). -/
theorem signalsAdd : Obligations.SignalsAdd := by
  intro d j k add g
  have hctr : g.ctr = _ := ctr_signal d j k add
  refine ⟨?_, fun n hn => ?_, fun n hn => Dev.jig_modJig_ne _ _ hn, rfl, fun q hq => queue_signal_latched k add hq,
    fun q ctr hq => ⟨headWaits_reached hq, queueReady_counters d j q ctr⟩, fun q r hstate hrec hwait _ hnot => queue_signal_waits k add hstate hrec hwait hnot⟩
  · rw [hctr, tabGet_mod_same]
  · rw [hctr, tabGet_mod_ne _ _ _ hn]

end

section
/-! SUPPORT. How the records issue whose work stays open: engine tasks, stager descriptors, collectives and releases (R228, R231, R526). -/

namespace Sys2Proof.Machine

open Sys2Proof

/-- R228: a record at the head of the chosen queue whose work is open after issue joins its queue's open records; the head moves on. -/
theorem issueKind_open {j qi kind : Nat} {r : JigRec} {c : Ctl} {d e : Dev} {m : BitVec 32} {o : Bool} {act : JigRec → Queue → Nat → Dev → IssueResult × Dev}
    (hhead : headRec (d.queue j qi) = some r) (hchosen : chosenQueue d j = some qi) (hkind : r.kind = kind)
    (h : act r (d.queue j qi) (d.jig j).serial (takeSerial j qi d) = (.openOn m o, e)) :
    issueKind kind j qi act c d = openRec j qi { serial := (d.jig j).serial, recIdx := (d.queue j qi).head, benches := m, other := o }
      (moveHead c.now j qi ((d.queue j qi).head + 1) e) := by
  rw [issueKind_heads hhead hchosen hkind]
  simp only [issueHead, h]

/-! ### What a serial number leaves -/

theorem nearCheck_takeSerial (j qi a : Nat) (d : Dev) : nearCheck (takeSerial j qi d) a = nearCheck d a := rfl
theorem peekPoison_takeSerial (j qi a n : Nat) (d : Dev) : (takeSerial j qi d).peekPoison a n = d.peekPoison a n := rfl
theorem mapEntries_takeSerial (j qi a : Nat) (d : Dev) : (takeSerial j qi d).mapEntries a = d.mapEntries a := rfl

/-! ### The kinds (R231, R526) -/

section
variable {j qi serial : Nat} {r : JigRec} {q : Queue} {d : Dev}

/-- An engine record hands its descriptor, aligned and inside the scratchpad, to every bench of its mask. -/
theorem issueEngine_hands (hal : recAddr q r % 64 = 0) (hin : recAddr q r + 64 ≤ 0x200000) (hmask : r.mask ≠ 0) :
    issueEngine j qi r q serial d = (.openOn (BitVec.ofNat 32 r.mask) false,
      handTask j qi r.kind serial (Config.microBatch j qi q.head q.loopIdx).toNat (recAddr q r) d.life.step.toNat (namedBenches d j r) d) := by
  simp only [issueEngine]
  rw [if_neg (not_not_intro hal), if_neg (Nat.not_lt.2 hin), if_neg hmask]

/-- A STAGER record queues its descriptor at its stager. -/
theorem issueStager_queues (hnear : nearCheck d (recAddr q r) = none) : issueStager j qi r q serial d =
    (.openOn 0 true, d.modStager (stagerOf j r) (fun g =>
      { g with queue := g.queue ++ [{ addr := recAddr q r, tag := some { jig := j, queue := qi, record := serial } }] })) := by
  simp only [issueStager, hnear]

/-- A RELEASE record frees the segments of an image whose map can be read. -/
theorem issueRelease_frees {c : Ctl} (hnear : nearCheck d (recAddr q r) = none) (hhead : d.peekPoison (recAddr q r) 64 = false)
    (hentries : d.peekPoison (recAddr q r + 64) (8 * d.mapEntries (recAddr q r)) = false) :
    issueRelease c r q serial d = (.openOn 0 false, releaseImage (recAddr q r) d) := by
  simp only [issueRelease, hnear, hhead, hentries, Bool.or_self, Bool.false_eq_true, if_false]

/-- The collective operation that a COLL record of global queue `qi` names (R340). -/
def collOpOf (qi a serial : Nat) (d : Dev) : CollOp :=
  { seq := d.coll.seq, desc := a, tag := some { jig := 4, queue := qi, record := serial }, words := wordsOf (d.peekBytes a 64),
    poison := d.peekPoison a 64, step := d.life.step.toNat }

/-- A COLL record's operation joins the others, and its group is named. -/
theorem issueColl_joins (hnear : nearCheck d (recAddr q r) = none) {o : CollOp} (ho : o = collOpOf qi (recAddr q r) serial d) :
    issueColl qi r q serial d = (.openOn 0 true, d.modColl (fun m => { m with
      ops := m.ops ++ [o]
      seq := m.seq + 1
      named := if m.named.contains (collDescOf o.words).group then m.named else m.named ++ [(collDescOf o.words).group] })) := by
  subst ho
  simp only [issueColl, hnear]
  rfl

end

/-- The rows of the engine records, each with its kind. -/
theorem exec_jigEngineRow : ∀ p ∈ [(Instr.jigMx, 1), (.jigVec, 2), (.jigRow, 3), (.jigDma, 4)], ∀ (b : Fin 4) (qi : Nat) (s : State),
    exec (p.1 b qi) s = onWork (issueKind p.2 b.val qi (issueEngine b.val qi)) s := by
  repeat refine List.forall_mem_cons.2 ⟨fun _ _ _ => rfl, ?_⟩
  exact fun _ hp => absurd hp List.not_mem_nil

end Sys2Proof.Machine

open Sys2Proof Sys2Proof.Machine

/-- Settles O23: the record at the head of the chosen queue issues by its kind (`issueKind_heads`); NOP completes at once, and of the others the
lemmas above say what they hand on and that they stay open. -/
theorem jigRecordsIssue : Obligations.JigRecordsIssue := by
  intro s r
  refine ⟨?_, ?_, ?_, ?_, ?_⟩
  · rintro j qi ⟨hw, hhead, hchosen⟩ hkind
    exact onWork_eq (f := issueKind 0 j.val qi (fun _ _ _ d => (.done, d))) hw
      ((issueKind_heads (d := s.here) hhead hchosen hkind _).trans (issueHead_done rfl))
  · rintro p hp b qi ⟨hw, hhead, hchosen⟩ hkind hal hin hmask
    refine (exec_jigEngineRow p hp b qi s).trans (onWork_eq hw (issueKind_open (d := s.here) hhead hchosen hkind ?_))
    rw [← hkind]
    exact issueEngine_hands hal hin hmask
  · rintro j qi ⟨hw, hhead, hchosen⟩ hkind hnear
    exact onWork_eq (f := issueKind 6 j.val qi (issueStager j.val qi)) hw (issueKind_open (d := s.here) hhead hchosen hkind
      (issueStager_queues ((nearCheck_takeSerial _ _ _ _).trans hnear)))
  · rintro j qi ⟨hw, hhead, hchosen⟩ hkind hnear hmap hentries
    exact onWork_eq (f := fun c => issueKind 10 j.val qi (issueRelease c) c) hw (issueKind_open (d := s.here) hhead hchosen hkind
      (issueRelease_frees ((nearCheck_takeSerial _ _ _ _).trans hnear) ((peekPoison_takeSerial _ _ _ _ _).trans hmap)
        (by rw [mapEntries_takeSerial, peekPoison_takeSerial]; exact hentries)))
  · rintro qi ⟨hw, hhead, hchosen⟩ hkind hnear
    exact ⟨_, onWork_eq (f := issueKind 11 4 qi (issueColl qi)) hw (issueKind_open (d := s.here) hhead hchosen hkind
      (issueColl_joins ((nearCheck_takeSerial _ _ _ _).trans hnear) rfl)), rfl, rfl, rfl⟩

end

section
/-! SUPPORT. What a write through the homes leaves (R379, R382, R385): all but memory, the tiers, the homes with their caches, Silkai's record of
segments to free, and the snoops sent. -/

namespace Sys2Proof.Machine

open Sys2Proof

/-- `e` differs from `d` in what the path of a write to memory may touch, alone. -/
def OnlyWrites (d e : Dev) : Prop :=
  e = { d with mem := e.mem, near := e.near, far := e.far, homes := e.homes, caches := e.caches, silkai := e.silkai, out := e.out }

theorem OnlyNear.onlyWrites {d e : Dev} (h : OnlyNear d e) : OnlyWrites d e := by
  unfold OnlyNear at h
  rw [h]
  rfl

namespace OnlyWrites

theorem refl (d : Dev) : OnlyWrites d d := rfl

theorem trans {d e g : Dev} (h : OnlyWrites d e) (h' : OnlyWrites e g) : OnlyWrites d g :=
  Eq.trans h' (congrArg (fun x : Dev =>
    { x with mem := g.mem, near := g.near, far := g.far, homes := g.homes, caches := g.caches, silkai := g.silkai, out := g.out }) h)

theorem ite {p : Prop} [Decidable p] {d e g : Dev} (h : OnlyWrites d e) (h' : OnlyWrites d g) : OnlyWrites d (if p then e else g) := by
  split
  · exact h
  · exact h'

theorem foldl {α : Type} {f : Dev → α → Dev} (h : ∀ d x, OnlyWrites d (f d x)) (l : List α) (d : Dev) : OnlyWrites d (l.foldl f d) :=
  List.foldlRecOn (motive := OnlyWrites d) l f (refl d) fun e he x _ => he.trans (h e x)

section
variable {d e : Dev} (h : OnlyWrites d e)
include h

theorem stagers : e.stagers = d.stagers := (congrArg Dev.stagers h).trans rfl
theorem benches : e.benches = d.benches := (congrArg Dev.benches h).trans rfl
theorem fc : e.fc = d.fc := (congrArg Dev.fc h).trans rfl

end

theorem memPut (a : Nat) (bs : List Byte) (d : Dev) : OnlyWrites d (d.memPut a bs) := rfl
theorem modHome (n : Nat) (f : Home → Home) (d : Dev) : OnlyWrites d (d.modHome n f) := rfl
theorem modPage (n : Nat) (p : Page) (d : Dev) : OnlyWrites d (d.modPage n p) := rfl
theorem setLine (i k : Nat) (l : CacheLine) (d : Dev) : OnlyWrites d (d.setLine i k l) := rfl
theorem emit (e : OutEvent) (d : Dev) : OnlyWrites d (d.emit e) := rfl
theorem freeSeg (id : Nat) (d : Dev) : OnlyWrites d (d.freeSeg id) := rfl
theorem releaseSeg (id : Nat) (d : Dev) : OnlyWrites d (d.releaseSeg id) := .ite rfl (.freeSeg id d)

end OnlyWrites

/-! ### The near tier's controllers (R152, R154, R164) -/

theorem noteRowWrite_onlyNear (line : Nat) (d : Dev) : OnlyNear d (d.noteRowWrite line) := by
  unfold Dev.noteRowWrite
  split
  · exact .modNear _ d
  · exact .refl d

theorem queueWrite_onlyNear (line : Nat) (d : Dev) : OnlyNear d (queueWrite line d) := by
  have hdropped : OnlyNear d (if (d.nearCtl (d.stackOf line)).ceWb.contains line then
      d.modNearCtl (d.stackOf line) (fun n => { n with ceWb := n.ceWb.filter (fun l => l != line) }) else d) := .ite rfl (.refl d)
  have hqueued := hdropped.trans (.modPc (d.pcOfLine line) (fun p => { p with writeQ := p.writeQ ++ [line] }) _)
  exact .ite hdropped (.ite (hqueued.trans (writePeriod_onlyNear _ _)) hqueued)

theorem stackWrite_onlyNear (line : Nat) (d : Dev) : OnlyNear d (stackWrite line d) :=
  .ite ((noteRowWrite_onlyNear line d).trans (queueWrite_onlyNear line _)) (.refl d)

theorem nearWrite_onlyWrites (p : Nat) (bs : List Byte) (d : Dev) : OnlyWrites d (Dev.nearWrite p bs d) :=
  (OnlyWrites.memPut p bs d).trans (OnlyNear.foldl (fun e l => stackWrite_onlyNear l e) _ _).onlyWrites

/-! ### Pages without a frame, and cached copies (R217, R379) -/

theorem dirtyPage_onlyWrites (d : Dev) (a : Nat) : OnlyWrites d (d.dirtyPage a) := by
  unfold Dev.dirtyPage
  split
  · split
    · exact .ite ((OnlyWrites.releaseSeg _ d).trans (.modPage _ _ _)) (.ite ((OnlyWrites.freeSeg _ d).trans (.modPage _ _ _)) (.modPage _ _ d))
    · exact .refl d
  · exact .refl d

theorem deferWrite_onlyWrites (d : Dev) (a : Nat) (bs : List Byte) (poison : Bool) : OnlyWrites d (d.deferWrite a bs poison) := by
  unfold Dev.deferWrite
  split
  · exact .modPage _ _ d
  · exact .refl d

theorem storeLine_onlyWrites (d : Dev) (line : Nat) (l : LineData) : OnlyWrites d (d.storeLine line l) := by
  unfold Dev.storeLine
  split
  · exact deferWrite_onlyWrites d _ _ _
  · next p _ =>
    have hstored := ((dirtyPage_onlyWrites d (line * 64)).trans (.memPut p (l.bytes.take 64) _)).trans (stackWrite_onlyNear (p / 64) _).onlyWrites
    exact .ite (hstored.trans rfl) hstored

theorem flushLine_onlyWrites (d : Dev) (line : Nat) : OnlyWrites d (d.flushLine line) := by
  unfold Dev.flushLine
  refine OnlyWrites.trans (OnlyWrites.trans ?_ (.foldl (fun e c => .setLine c line _ e) _ _)) (.modHome _ _ _)
  split
  · exact storeLine_onlyWrites d _ _
  · exact .refl d

theorem stopFill_onlyWrites (line : Nat) (d : Dev) : OnlyWrites d (stopFill line d) := .ite (.modHome _ _ d) (.refl d)

theorem joinWrite_onlyWrites (line off : Nat) (bs : List Byte) (poison : Bool) (d : Dev) : OnlyWrites d (d.joinWrite line off bs poison) :=
  .ite (.modHome _ _ d) (.ite (.modHome _ _ d) ((OnlyWrites.foldl (fun e _ => .emit _ e) _ d).trans (.modHome _ _ _)))

/-! ### Writes and tags (R157, R382, R385) -/

theorem pokeNow_onlyWrites (d : Dev) (a : Nat) (bs : List Byte) : OnlyWrites d (d.pokeNow a bs) := by
  unfold Dev.pokeNow
  have hsettled := (OnlyWrites.foldl flushLine_onlyWrites ((Memory.linesOf a bs.length).filter d.tracked) d).trans
    (.foldl (fun e l => stopFill_onlyWrites l e) (Memory.linesOf a bs.length) _)
  refine hsettled.trans ?_
  dsimp only
  split
  · exact (dirtyPage_onlyWrites _ a).trans (nearWrite_onlyWrites _ bs _)
  · exact deferWrite_onlyWrites _ a bs false

theorem pokeLine_onlyWrites (a : Nat) (bs : List Byte) (d : Dev) (line : Nat) : OnlyWrites d (Dev.pokeLine a bs d line) :=
  .ite ((joinWrite_onlyWrites _ _ _ _ d).trans (stopFill_onlyWrites line _)) (pokeNow_onlyWrites d _ _)

theorem poke_onlyWrites (d : Dev) (a : Nat) (bs : List Byte) : OnlyWrites d (d.poke a bs) :=
  .ite (.foldl (pokeLine_onlyWrites a bs) _ d) (pokeNow_onlyWrites d a bs)

theorem setTag_onlyWrites (d : Dev) (a v : Nat) : OnlyWrites d (d.setTag a v) := .ite (nearWrite_onlyWrites _ _ d) (.refl d)

end Sys2Proof.Machine

end

section
/-! SUPPORT. How the streaming window's slots start, fill and become FULL, and what the watchdog records (R246, R247, R251). -/

namespace Sys2Proof.Machine

open Sys2Proof

/-- A change of a stager is known by what it makes of the stager as it is. -/
theorem modStager_congr {d : Dev} {b : Nat} {f g : Stager → Stager} (h : f (d.stager b) = g (d.stager b)) : d.modStager b f = d.modStager b g :=
  congrArg (fun x => { d with stagers := tabSet {} d.stagers b x }) h

/-- R243: the entry at a position depends on the stager's table and on the entries of a step alone. -/
theorem strmAt_congr {d e : Dev} {b : Nat} (htable : (e.stager b).table = (d.stager b).table) (hlen : (e.stager 0).entries = (d.stager 0).entries) (pos : Nat) :
    strmAt e b pos = strmAt d b pos := by
  rw [strmAt, strmAt, strmLen, strmLen, htable, hlen]

/-- A field of a stager that a change of some stager leaves is as it was in every stager. -/
theorem field_modStager {α : Type} {field : Stager → α} {f : Stager → Stager} (h : ∀ g, field (f g) = field g) (d : Dev) (k n : Nat) :
    field ((d.modStager k f).stager n) = field (d.stager n) := by
  by_cases hn : n = k
  · rw [hn, Dev.stager_modStager_same, h]
  · rw [Dev.stager_modStager_ne d f hn]

/-- R209: a block read counts in its stager. -/
theorem field_countGet {α : Type} {field : Stager → α} (h : ∀ g rd dec, field { g with farRdBytes := rd, decodedBytes := dec } = field g) (b n k : Nat) (d : Dev) :
    field ((countGet b n d).stager k) = field (d.stager k) := field_modStager (fun g => h g _ _) d b k

theorem OnlyWrites.stager {d e : Dev} (h : OnlyWrites d e) (b : Nat) : e.stager b = d.stager b := by
  rw [Dev.stager, Dev.stager, h.stagers]

theorem OnlyWrites.strmAt {d e : Dev} (h : OnlyWrites d e) (b pos : Nat) : strmAt e b pos = strmAt d b pos :=
  strmAt_congr (by rw [h.stager]) (by rw [h.stager]) pos

/-! ### The slots of a stager -/

/-- The stager with slot `j` holding `x`. -/
def putWinSlot (j : Nat) (x : Slot) (g : Stager) : Stager := { g with slots := tabPut g.slots j x }

theorem slot_putWinSlot (j : Nat) (x : Slot) (d : Dev) (b : Nat) : tabFind ((d.modStager b (putWinSlot j x)).stager b).slots j = some x := by
  rw [Dev.stager_modStager_same]
  exact tabFind_put_same _ _ _

theorem strmAt_putWinSlot (j : Nat) (x : Slot) (d : Dev) (k b pos : Nat) : strmAt (d.modStager k (putWinSlot j x)) b pos = strmAt d b pos :=
  strmAt_congr (field_modStager (field := Stager.table) (f := putWinSlot j x) (fun _ => rfl) d k b)
    (field_modStager (field := Stager.entries) (f := putWinSlot j x) (fun _ => rfl) d k 0) pos

theorem modSlotW_eq {d : Dev} {b j : Nat} {x : Slot} (hslot : tabFind (d.stager b).slots j = some x) (f : Slot → Slot) :
    modSlotW b j f d = d.modStager b (putWinSlot j (f x)) :=
  modStager_congr (by rw [hslot]; rfl)

/-- R246: a slot of an entry that no other package holds asks none for its next block. -/
theorem askNext_local {d : Dev} {b : Nat} {x : Slot} (hlocal : (strmAt d b x.pos).remote = false) (c : Ctl) (j : Nat) :
    askNext c b j (d.modStager b (putWinSlot j x)) = d.modStager b (putWinSlot j x) := by
  simp only [askNext, slot_putWinSlot, strmAt_putWinSlot, hlocal, Bool.false_eq_true, false_and, and_false, if_false]

/-! ### A fill starts, a block arrives, a slot is FULL, the watchdog expires -/

section
variable {d : Dev} {b j : Nat} {c : Ctl}

/-- R246: the next wanted entry, its fill wait reached, takes the lowest free slot. -/
theorem devFillStart_starts {pos : Nat} (hrun : running d = true) (hnext : nextFill d b = some pos) (hreach : fillReached d b pos = true)
    (hfree : tabFree (d.stager b).slots ((d.stager b).lookahead.toNat + 1) = some j) (hblocks : (strmAt d b pos).nblocks ≠ 0)
    (hlocal : (strmAt d b pos).remote = false) : devFillStart b c d = d.modStager b (putWinSlot j { state := 1, pos := pos }) := by
  have hask := askNext_local (x := { state := 1, pos := pos }) hlocal c j
  unfold putWinSlot at hask ⊢
  simp [devFillStart, hrun, hnext, hfree, hreach, hblocks, hask]

/-- R209, R247: the next block of a local entry is decoded from its image. -/
theorem devBlockArrival_decodes {x : Slot} (hrun : running d = true) (hslot : tabFind (d.stager b).slots j = some x) (hfills : x.state = 1)
    (hwanted : x.stale = false) (hmore : x.done < (strmAt d b x.pos).nblocks) (hlocal : (strmAt d b x.pos).remote = false)
    (hfree : spanHeld d (slotBlock (d.stager b) j x.done) 4096 = false) :
    devBlockArrival b j c d = blockImage c b j x (strmAt d b x.pos) d := by
  simp [devBlockArrival, hrun, hslot, hfills, hwanted, Nat.not_le.2 hmore, hlocal, hfree]

/-- R157, R247: a good block fetched once is written with its tag, and the slot counts it. -/
theorem blockGood_writes {x : Slot} (hslot : tabFind (d.stager b).slots j = some x) (honce : x.refetched = false)
    (hlocal : (strmAt d b x.pos).remote = false) (bs : List Byte) (tag : Nat) : blockGood c b j x bs tag d =
      ((d.poke (slotBlock (d.stager b) j x.done) bs).setTag (slotBlock (d.stager b) j x.done) tag).modStager b
        (putWinSlot j { x with done := x.done + 1, refetched := false, fetched := none }) := by
  have hwrites := (poke_onlyWrites d (slotBlock (d.stager b) j x.done) bs).trans (setTag_onlyWrites _ (slotBlock (d.stager b) j x.done) tag)
  have hcounts := modSlotW_eq ((hwrites.stager b).symm ▸ hslot) (fun y => { y with done := y.done + 1, refetched := false, fetched := none })
  simp only [blockGood, honce, Bool.false_eq_true, if_false, hcounts]
  exact askNext_local (x := { x with done := x.done + 1, refetched := false, fetched := none }) ((congrArg StrmEntry.remote (hwrites.strmAt b x.pos)).trans hlocal) c j

/-- R209: a good block of an image counts as read, and is written. -/
theorem blockImage_writes {x : Slot} {e : StrmEntry} {bs : List Byte} {dw n : Nat} (hgood : imageBlock d e.source (e.firstBlock + x.done) = .good bs dw n)
    (hslot : tabFind (d.stager b).slots j = some x) (honce : x.refetched = false) (hlocal : (strmAt d b x.pos).remote = false) : blockImage c b j x e d =
      (((countGet b n d).poke (slotBlock (d.stager b) j x.done) bs).setTag (slotBlock (d.stager b) j x.done) dw).modStager b
        (putWinSlot j { x with done := x.done + 1, refetched := false, fetched := none }) := by
  have hdest : slotBlock ((countGet b n d).stager b) j x.done = slotBlock (d.stager b) j x.done :=
    field_countGet (field := fun g => slotBlock g j x.done) (fun _ _ _ => rfl) b n b d
  have hslots : ((countGet b n d).stager b).slots = (d.stager b).slots := field_countGet (field := Stager.slots) (fun _ _ _ => rfl) b n b d
  have hentry : strmAt (countGet b n d) b x.pos = strmAt d b x.pos :=
    strmAt_congr (field_countGet (field := Stager.table) (fun _ _ _ => rfl) b n b d) (field_countGet (field := Stager.entries) (fun _ _ _ => rfl) b n 0 d) x.pos
  simp only [blockImage, hgood]
  rw [blockGood_writes (hslots.symm ▸ hslot) honce (hentry.symm ▸ hlocal), hdest]

/-- R247: a slot whose blocks are all in becomes FULL. -/
theorem devSlotFull_fills {x : Slot} (hslot : tabFind (d.stager b).slots j = some x) (hfills : x.state = 1) (hwanted : x.stale = false)
    (hall : (strmAt d b x.pos).nblocks ≤ x.done) :
    devSlotFull b j c d = noteFull c.now x.pos (d.modStager b (putWinSlot j { x with state := 2 })) := by
  simp [devSlotFull, hslot, hfills, hwanted, hall, modSlotW_eq hslot]

/-- R251: the limit of a reached gate that is closed is recorded once. -/
theorem devWatchdog_records {pos r : Nat} (hreach : (gateAt d pos).reach = some r) (hclosed : (gateAt d pos).opened = false)
    (hfirst : (gateAt d pos).watchdog = false) :
    devWatchdog pos false c d = raise c
      (writeKerf pos (r + watchdogLimit d) r ((2 ^ 64 - watchdogLimit d) % 2 ^ 32) (gateAt d pos).reused true (modGate pos (fun x => { x with watchdog := true }) d))
      Fs.strmWatchdog (pos % strmLen d) := by
  simp [devWatchdog, hreach, hclosed, hfirst]

end

end Sys2Proof.Machine

open Sys2Proof Sys2Proof.Machine

/-- Settles O27: each event is its function; the writes of a block leave stagers, benches and the collector (`poke_onlyWrites`). -/
theorem streamFills : Obligations.StreamFills := by
  intro s hw
  refine ⟨?_, ?_, ?_, ?_⟩
  · intro b pos j hrun hnext hreach hfree hblocks hlocal
    exact onWork_eq (f := devFillStart b.val) hw (devFillStart_starts (d := s.here) hrun hnext hreach hfree hblocks hlocal)
  · intro b j x bs dw n hrun hslot hfills hwanted honce hmore hlocal hfree dest d
    refine ⟨_, onWork_eq (f := devBlockArrival b.val j) hw (devBlockArrival_decodes (d := s.here) hrun hslot hfills hwanted hmore hlocal hfree), rfl, fun hgood => ?_⟩
    have hwrites : OnlyWrites (countGet b.val n s.here) d := (poke_onlyWrites _ dest bs).trans (setTag_onlyWrites _ dest dw)
    have hdev : blockImage s.ctl b.val j x (strmAt s.here b.val x.pos) s.here =
        d.modStager b.val (putWinSlot j { x with done := x.done + 1, refetched := false, fetched := none }) :=
      blockImage_writes (d := s.here) hgood hslot honce hlocal
    rw [hdev]
    exact ⟨rfl, fun k hk => Dev.stager_modStager_ne _ _ hk, field_modStager (field := Stager.farRdBytes) (f := putWinSlot j _) (fun _ => rfl) d _ _,
      hwrites.benches, hwrites.fc⟩
  · intro b j x hslot hfills hwanted hall
    exact onWork_eq (f := devSlotFull b.val j) hw (devSlotFull_fills (d := s.here) hslot hfills hwanted hall)
  · intro pos r hreach hclosed hfirst
    exact onWork_eq (f := devWatchdog pos false) hw (devWatchdog_records (d := s.here) hreach hclosed hfirst)

end

section
/-! SUPPORT. One unit of the device changed twice is changed once, by both changes. -/

namespace Sys2Proof.Machine

open Sys2Proof

section
variable {α : Type} (t : Tab α) (k : Nat)

theorem tabDel_del : tabDel (tabDel t k) k = tabDel t k := by
  rw [tabDel, tabDel, List.filter_filter]
  simp only [Bool.and_self]

/-- A key put and taken out again leaves the table without it. -/
theorem tabDel_ins (v : α) : tabDel (tabIns k v t) k = tabDel t k := by
  induction t with
  | nil => simp [tabIns, tabDel]
  | cons p t ih =>
    obtain ⟨a, b⟩ := p
    rw [tabIns]
    split
    · simp [tabDel]
    · unfold tabDel at ih ⊢
      rw [List.filter_cons, List.filter_cons, ih]

variable [DecidableEq α] (z : α)

theorem tabDel_set (v : α) : tabDel (tabSet z t k v) k = tabDel t k := by
  rw [tabSet]
  split
  · exact tabDel_del t k
  · rw [tabPut, tabDel_ins, tabDel_del]

/-- Of two values set at one key the later stays. -/
theorem tabSet_set (v w : α) : tabSet z (tabSet z t k v) k w = tabSet z t k w := by
  rw [tabSet, tabPut, tabDel_set]
  rfl

theorem tabMod_mod (f g : α → α) : tabMod z (tabMod z t k f) k g = tabMod z t k (fun x => g (f x)) := by
  rw [tabMod, tabGet_mod_same]
  exact tabSet_set t k z _ _

end

theorem modPlane_modPlane (d : Dev) (n : Nat) (f g : Plane → Plane) : (d.modPlane n f).modPlane n g = d.modPlane n (fun y => g (f y)) :=
  congrArg (fun t => { d with planes := t }) (tabMod_mod d.planes n {} f g)

theorem modFlow_modFlow (d : Dev) (n : Nat) (f g : Flow → Flow) : (d.modFlow n f).modFlow n g = d.modFlow n (fun y => g (f y)) :=
  congrArg (fun t => { d with fab := { d.fab with flows := t } }) (tabMod_mod d.fab.flows n {} f g)

/-- A change of a plane is known by what it makes of the plane as it is. -/
theorem modPlane_congr {d : Dev} {n : Nat} {f g : Plane → Plane} (h : f (d.plane n) = g (d.plane n)) : d.modPlane n f = d.modPlane n g :=
  congrArg (fun x => { d with planes := tabSet {} d.planes n x }) h

/-- So is a change of a flow. -/
theorem modFlow_congr {d : Dev} {n : Nat} {f g : Flow → Flow} (h : f (d.flow n) = g (d.flow n)) : d.modFlow n f = d.modFlow n g :=
  congrArg (fun x => { d with fab := { d.fab with flows := tabSet {} d.fab.flows n x } }) h

end Sys2Proof.Machine

end

section
/-! SUPPORT. How an optimiser plane's update goes on from state to state (R276, R283, R284, R286, R288), and what its end changes. -/

namespace Sys2Proof.Machine

open Sys2Proof

/-- A command of an update that is committed leaves what its function answers, in the safe state too, until the stacks are in self-refresh. -/
theorem onCommitted_eq {f : Ctl → Dev → Dev} {s : State} {d : Dev} (hlive : s.Live) (hrun : s.dev.fc.entering = false ∨ s.dev.near.selfRefresh = false)
    (h : f s.ctl s.here = d) : onCommitted f s = .next (s.withDev d) :=
  (onCommitted_live f s hlive hrun).trans (congrArg _ (congrArg _ h))

/-! ### The headers of panels (R260) -/

/-- Memory is read through the homes, whatever the planes do. -/
theorem peekBytes_modPlane (d : Dev) (n : Nat) (f : Plane → Plane) (a len : Nat) : (d.modPlane n f).peekBytes a len = d.peekBytes a len := rfl

/-- R260: a change of a plane that leaves PLN_PANEL_BASE leaves every header as it reads. -/
theorem panelAt_modPlane {f : Plane → Plane} (h : ∀ p, (f p).panelBase = p.panelBase) (d : Dev) (n i : Nat) : panelAt (d.modPlane n f) i = panelAt d i := by
  have hbase : ((d.modPlane n f).plane 0).panelBase = (d.plane 0).panelBase := by
    by_cases hn : 0 = n
    · rw [← hn, Dev.plane_modPlane_same, h]
    · rw [Dev.plane_modPlane_ne d f hn]
  rw [panelAt, panelAt, panelAddr, panelAddr, peekBytes_modPlane, hbase]

section
variable {c : Ctl} {d : Dev} {h : Nat}

/-! ### An update starts (R276, R283, R286) -/

section
variable {i step : Nat} (hruns : (d.plane h).halted = false) (hready : (d.plane h).state = .idle ∨ (d.plane h).state = .stopped)
  (hnext : nextDue (d.plane h) = some (i, step)) (hfree : (d.plane h).parked.any (fun u => u.idx == i) = false)
include hruns hready hnext hfree

/-- R283: an update whose step its panel has committed already goes on from COMMITTED. -/
theorem devUpdateStart_committed (hdone : (panelAt d i).committed step = true) : devUpdateStart h c d = d.modPlane h (fun y => { y with
    state := .committed, cur := some { idx := i, step := step, mirror := (panelAt d i).role != 0, computed := true }, due := (d.plane h).due.erase (i, step) }) := by
  rcases hready with hstate | hstate <;> simp [devUpdateStart, hruns, hstate, hnext, hfree, hdone]

/-- R271, R283: an owner's update computes from its slot. -/
theorem devUpdateStart_owner (hfresh : (panelAt d i).committed step = false) (howner : (panelAt d i).role = 0)
    (hslot : slotReady d (panelAt d i) step = true) : devUpdateStart h c d = computeOwner c h (panelAt d i) step d := by
  rcases hready with hstate | hstate <;> simp [devUpdateStart, hruns, hstate, hnext, hfree, hfresh, howner, hslot]

end

/-! ### The commit word, the publication, the release (R264, R271, R283, R288) -/

section
variable {u : Update} (hcur : (d.plane h).cur = some u)
include hcur

/-- R283: of an owner's update that is computed no part waits for repairs. -/
theorem ownerProgress_computed (hdone : u.computed = true) : ownerProgress c h d = d := by
  unfold ownerProgress
  split
  · next hu =>
    obtain rfl : u = _ := Option.some.inj (hcur.symm.trans hu)
    simp [hdone]
  · rfl

/-- R288: nor of a mirror's. -/
theorem mirrorProgress_computed (hdone : u.computed = true) : mirrorProgress c h d = d := by
  simp [mirrorProgress, hcur, hdone]

/-- R264, R283: the commit word of a computed update is written once its twin has every chunk. -/
theorem devPlaneCommit_writes (hstate : (d.plane h).state = .computing) (hdone : u.computed = true)
    (hsent : u.mirror = true ∨ twinSent d h (panelAt d u.idx) = true) : devPlaneCommit h c d =
      updatesDone c ((d.poke64 (panelAddr d u.idx) ((1 - (panelAt d u.idx).sel) + 2 + ((panelAt d u.idx).t + 1) % 2 ^ 32 * 2 ^ 8 + u.step % 2 ^ 24 * 2 ^ 40)).modPlane h
        (fun y => { y with state := .committed })) := by
  have hmay : (!u.computed || !(u.mirror || twinSent d h (panelAt d u.idx))) = false := by
    rw [(Bool.or_eq_true_iff).2 hsent, hdone]
    rfl
  rw [devPlaneCommit, ownerProgress_computed hcur hdone, mirrorProgress_computed hcur hdone]
  simp only [writeCommit, hstate, hcur, hmay, Bool.false_eq_true, if_false]

/-- R283: an owner's image is published on the acknowledgement of the commit word. -/
theorem devCommitAck_owner (hstate : (d.plane h).state = .committed) (howner : u.mirror = false) :
    devCommitAck h c d = (publish c (panelAt d u.idx) d).modPlane h (fun y => { y with state := .publishing }) := by
  simp only [devCommitAck, hstate, hcur, howner, Bool.false_eq_true, if_false]

/-- R288: a twin has told its owner before. -/
theorem devCommitAck_mirror (hstate : (d.plane h).state = .committed) (hmirror : u.mirror = true) : devCommitAck h c d =
    (publish c (panelAt d u.idx) (endTransfer c h (sendTwinDone c h (panelAt d u.idx) u.step d))).modPlane h (fun y => { y with state := .publishing }) := by
  simp only [devCommitAck, hstate, hcur, hmirror, if_true]

/-- R271, R283: the slot of a near owner's step is freed on the acknowledgement of the publication. -/
theorem devPublishAck_near (hstate : (d.plane h).state = .publishing) (hnear : (panelAt d u.idx).far = false) (howner : (panelAt d u.idx).role = 0)
    (hslot : (slotAt d (panelAt d u.idx) ((panelAt d u.idx).slotOf u.step)).step = u.step) : devPublishAck h c d =
      (freeSlot (panelAt d u.idx) ((panelAt d u.idx).slotOf u.step) d).modPlane h (fun y => { y with state := .releasing }) := by
  simp only [devPublishAck, hstate, hcur, hnear, howner, hslot, Bool.false_eq_true, if_false, and_self, if_true]

end

/-- R283: the plane with its twin's acknowledgement of the update in hand. -/
def ackTwin (y : Plane) : Plane := { y with cur := y.cur.map (fun x => { x with twinAck := true }) }

/-- R24: the plane that has met a tie. -/
def tiePlane (y : Plane) : Plane := { y with tieCnt := cntInc y.tieCnt }

/-- R283: what an update ends by without its twin. -/
theorem twinSettled_iff {p : Panel} {u : Update} :
    twinSettled p u = true ↔ u.mirror = true ∨ u.twinAck = true ∨ p.twinHdr = 0 ∨ p.untwinned = true := by
  simp [twinSettled, or_assoc]

/-- R283: an owner's update of a panel that has a twin waits for it. -/
theorem twinSettled_waits {p : Panel} {u : Update} (howner : u.mirror = false) (hsilent : u.twinAck = false) (htwin : p.twinHdr ≠ 0)
    (hheld : p.untwinned = false) : twinSettled p u = false := by
  simp [twinSettled, howner, hsilent, htwin, hheld]

section
variable {u : Update} (hcur : (d.plane h).cur = some u) (hstate : (d.plane h).state = .releasing)
include hcur hstate

/-- R283: with its twin settled the update ends on the acknowledgement of the release. -/
theorem devReleaseAck_settled (hsettled : twinSettled (panelAt d u.idx) u = true) : devReleaseAck h c d = finishUpdate c h u d := by
  simp only [devReleaseAck, hstate, hcur, hsettled, if_true]

/-- R283: without, it waits beside the plane. -/
theorem devReleaseAck_waits (hwaits : twinSettled (panelAt d u.idx) u = false) (hreached : u.twinFailed = false) :
    devReleaseAck h c d = d.modPlane h (fun y => { y with state := .idle, cur := none, parked := y.parked ++ [u] }) := by
  simp only [devReleaseAck, hstate, hcur, hwaits, hreached, Bool.false_eq_true, if_false]

/-- R283: a twin that does not acknowledge in time is lost, and the update ends. -/
theorem devTwinTimeout_loses (hwaits : twinSettled (panelAt d u.idx) u = false) :
    devTwinTimeout h false c d = finishUpdate c h u (loseTwin c h u d) := by
  simp [devTwinTimeout, twinExpired, hstate, hcur, hwaits]

/-- R24, R283: one that acknowledges in the same cycle has acknowledged, and the tie is counted. -/
theorem devTwinTimeout_tie (hwaits : twinSettled (panelAt d u.idx) u = false) :
    devTwinTimeout h true c d = (d.modPlane h ackTwin).modPlane h tiePlane := by
  simp only [devTwinTimeout, twinExpired, hstate, hcur, hwaits, Option.any_some, BEq.rfl, Bool.not_false, Bool.and_self, Bool.true_or, Bool.false_eq_true, if_true, if_false]
  rfl

end

/-! ### Sealing (R273) -/

/-- R273: a CLOSED slot of an owner's panel that seals is put into its image. -/
theorem devSealPutDone_seals {i j : Nat} (hpanel : (tabFind d.opt.panels i).isSome = true) (howner : (panelAt d i).role = 0) (hseals : (panelAt d i).sealOn = true)
    (hslot : j < (panelAt d i).slots) (hclosed : (slotAt d (panelAt d i) j).state = 2) : devSealPutDone i j c d = sealSlot c (panelAt d i) j d := by
  simp [devSealPutDone, Option.isNone_eq_false_iff.2 hpanel, howner, hseals, hslot, hclosed]

/-! ### An update ends (R283, R284) -/

/-- `e` holds the memory and the planes of `d`, and in both a start waits for re-runs or in neither. -/
def LeavesPlanes (d e : Dev) : Prop := e.mem = d.mem ∧ e.planes = d.planes ∧ e.life.starting = d.life.starting

theorem LeavesPlanes.refl (d : Dev) : LeavesPlanes d d := ⟨rfl, rfl, rfl⟩

theorem LeavesPlanes.ite {p : Prop} [Decidable p] {d x y : Dev} (hx : LeavesPlanes d x) (hy : LeavesPlanes d y) : LeavesPlanes d (if p then x else y) := by
  split
  · exact hx
  · exact hy

theorem LeavesPlanes.plane {d e : Dev} (h : LeavesPlanes d e) (n : Nat) : e.plane n = d.plane n := by rw [Dev.plane, Dev.plane, h.2.1]

/-- R50: a stop that is done leaves the planes. -/
theorem stopDone_leavesPlanes {d e : Dev} (h : LeavesPlanes d e) : LeavesPlanes d e.stopDone := .ite h h

/-- R48 to R50: with no start waiting for re-runs, the end of UPDATE leaves memory and the planes. -/
theorem updatesDone_leavesPlanes (hstart : d.life.starting = false) : LeavesPlanes d (updatesDone c d) := by
  have hended (busy : Bool) : LeavesPlanes d (if busy then d else d.modLife (fun l => { l with update := false })) := .ite (.refl d) ⟨rfl, rfl, rfl⟩
  have hstopped (e : Dev) (he : LeavesPlanes d e) (stops : Bool) : LeavesPlanes d (if stops then e.stopDone else e) := .ite (stopDone_leavesPlanes he) he
  unfold updatesDone
  dsimp only
  rw [(hstopped _ (hended _) _).2.2, hstart, Bool.false_and, if_neg Bool.false_ne_true]
  exact hstopped _ (hended _) _

/-- R283: the plane with no update in hand. -/
def idlePlane (y : Plane) : Plane := { y with state := .idle, cur := none }

/-- R284: the plane after the end of an update of `nparam` parameters whose signal a stop delays. -/
def countHeld (nparam : Nat) (u : Update) (y : Plane) : Plane :=
  { y with updateCnt := cntInc y.updateCnt, paramCnt := cntAdd y.paramCnt nparam, rerun := y.rerun.erase (u.idx, u.step), owed := y.owed ++ [u.idx] }

section
variable {u : Update} (hheld : (d.plane h).halted = true)
include hheld

/-- R284: an update that ends in a plane that a stop holds is counted, and its signal is owed. -/
theorem finishUpdate_held : finishUpdate c h u d =
    updatesDone c ((d.modPlane h idlePlane).modPlane h (countHeld (panelAt d u.idx).nparam u)) := by
  have hheader : panelAt (d.modPlane h idlePlane) u.idx = panelAt d u.idx := panelAt_modPlane (f := idlePlane) (fun _ => rfl) d h u.idx
  have hstays : ((d.modPlane h idlePlane).plane h).halted = true := (congrArg Plane.halted (Dev.plane_modPlane_same d h idlePlane)).trans hheld
  change closeUpdate c h u (d.modPlane h idlePlane) = _
  simp only [closeUpdate, hstays, hheader, if_true]
  rfl

/-- R284: memory stays, and of the plane is left what the stop holds. -/
theorem finishUpdate_heldPlane (hstart : d.life.starting = false) : (finishUpdate c h u d).mem = d.mem ∧
    (finishUpdate c h u d).plane h = countHeld (panelAt d u.idx).nparam u (idlePlane (d.plane h)) := by
  have hleft := updatesDone_leavesPlanes (c := c) (d := (d.modPlane h idlePlane).modPlane h (countHeld (panelAt d u.idx).nparam u)) hstart
  rw [finishUpdate_held hheld]
  refine ⟨hleft.1, (hleft.plane h).trans ?_⟩
  rw [Dev.plane_modPlane_same, Dev.plane_modPlane_same]

end

end

end Sys2Proof.Machine

open Sys2Proof Sys2Proof.Machine

/-- Settles O37: each row is its function, of which the lemmas above say what it makes of the update in hand; `updatesDone_leavesPlanes` says that
the end of UPDATE touches neither memory nor the plane. -/
theorem planeUpdatesAdvance : Obligations.PlaneUpdatesAdvance := by
  intro s h hlive
  refine ⟨fun hrun => ⟨?_, ?_, ?_⟩, fun hcommits u hcur => ⟨?_, ?_, ?_, ?_, ?_, ?_⟩, ?_⟩
  · intro i step hruns hready hnext hfree
    exact ⟨fun hdone => onWork_eq (f := devUpdateStart h) ⟨hlive, hrun⟩ (devUpdateStart_committed (d := s.here) hruns hready hnext hfree hdone),
      fun hfresh howner hslot => onWork_eq (f := devUpdateStart h) ⟨hlive, hrun⟩ (devUpdateStart_owner (d := s.here) hruns hready hnext hfree hfresh howner hslot)⟩
  · intro u hcur hstate hdone hsent
    exact onWork_eq (f := devPlaneCommit h) ⟨hlive, hrun⟩ (devPlaneCommit_writes (d := s.here) hcur hstate hdone hsent)
  · intro i j hpanel howner hseals hslot hclosed
    exact onWork_eq (f := devSealPutDone i j) ⟨hlive, hrun⟩ (devSealPutDone_seals (d := s.here) hpanel howner hseals hslot hclosed)
  · intro hstate howner
    exact onCommitted_eq (f := devCommitAck h) hlive hcommits (devCommitAck_owner (d := s.here) hcur hstate howner)
  · intro hstate hmirror
    exact onCommitted_eq (f := devCommitAck h) hlive hcommits (devCommitAck_mirror (d := s.here) hcur hstate hmirror)
  · intro hstate hnear howner hslot
    exact onCommitted_eq (f := devPublishAck h) hlive hcommits (devPublishAck_near (d := s.here) hcur hstate hnear howner hslot)
  · intro hstate hsettled
    exact onCommitted_eq (f := devReleaseAck h) hlive hcommits (devReleaseAck_settled (d := s.here) hcur hstate (twinSettled_iff.2 hsettled))
  · intro hstate howner hsilent hreached htwin hheld
    exact onCommitted_eq (f := devReleaseAck h) hlive hcommits
      (devReleaseAck_waits (d := s.here) hcur hstate (twinSettled_waits howner hsilent htwin hheld) hreached)
  · intro hstate howner hsilent htwin hheld
    have hwaits := twinSettled_waits howner hsilent htwin hheld
    have hplane : ((s.here.modPlane h ackTwin).modPlane h tiePlane).plane h = tiePlane (ackTwin (s.dev.plane h)) := by
      rw [Dev.plane_modPlane_same, Dev.plane_modPlane_same]
      rfl
    refine ⟨onCommitted_eq (f := devTwinTimeout h false) hlive hcommits (devTwinTimeout_loses (d := s.here) hcur hstate hwaits),
      _, onCommitted_eq (f := devTwinTimeout h true) hlive hcommits (devTwinTimeout_tie (d := s.here) hcur hstate hwaits), ?_, ?_, ?_, rfl⟩
    · exact congrArg Plane.tieCnt hplane
    · exact (congrArg Plane.cur hplane).trans (congrArg (Option.map _) hcur)
    · exact (congrArg Plane.state hplane).trans hstate
  · intro c n u d hheld hstart
    obtain ⟨hmem, hplane⟩ := finishUpdate_heldPlane (c := c) (u := u) hheld hstart
    rw [hplane]
    exact ⟨rfl, rfl, rfl, rfl, rfl, hmem⟩

end

section
/-! SUPPORT. What performing a frame is, opcode by opcode (R304, R348), for frames whose fields are legal (R323). -/

namespace Sys2Proof.Machine

open Sys2Proof

section
variable {c : Ctl} {fl : Nat} {f : Frame} {d : Dev} (hlegal : attrOk d f = true)
include hlegal

theorem performFrame_readResp (h : f.opc = 0x03) : performFrame c fl f d = (.done, takeResp c fl f d) := by
  simp only [performFrame, hlegal, h, Bool.not_true, Bool.false_eq_true, if_false]

theorem performFrame_atomicResp (h : f.opc = 0x07) : performFrame c fl f d = (.done, takeAtomResp c fl f d) := by
  simp only [performFrame, hlegal, h, Bool.not_true, Bool.false_eq_true, if_false]

theorem performFrame_panelAdd (h : f.opc = 0x09) : performFrame c fl f d = doPanelAdd c fl f d := by
  simp only [performFrame, hlegal, h, Bool.not_true, Bool.false_eq_true, if_false]

theorem performFrame_mirror (h : f.opc = 0x0A) : performFrame c fl f d = perfOf (mirrorArrive c f.addr.toNat (nearestStep d f.aux.toNat)
    (bits f.attr.toNat 0 17) (bits f.attr.toNat 17 1) f.srcNode fl f.payload f.poison d) := by
  simp only [performFrame, hlegal, h, Bool.not_true, Bool.false_eq_true, if_false]

theorem performFrame_mirrorCredit (h : f.opc = 0x0B) : performFrame c fl f d =
    if 8 ≤ f.addr.toNat then (.bad 1, d) else (.done, creditArrive c f.addr.toNat f.attr.toNat f.srcNode d) := by
  simp only [performFrame, hlegal, h, Bool.not_true, Bool.false_eq_true, if_false]

theorem performFrame_twinDone (h : f.opc = 0x0C) : performFrame c fl f d = orDenied d (twinDoneArrive c f.addr.toNat f.aux.toNat d) := by
  simp only [performFrame, hlegal, h, Bool.not_true, Bool.false_eq_true, if_false]

theorem performFrame_status (h : f.opc = 0x11) : performFrame c fl f d = (.done, statusArrive c fl f.msgId (bits f.attr.toNat 0 4) d) := by
  simp only [performFrame, hlegal, h, Bool.not_true, Bool.false_eq_true, if_false]

theorem performFrame_collData (h : f.opc = 0x20) : performFrame c fl f d =
    (.done, collDataArrive c (bits f.attr.toNat 0 16) (bits f.attr.toNat 16 16) f.aux.toNat f.addr.toNat f.payload f.poison d) := by
  simp only [performFrame, hlegal, h, Bool.not_true, Bool.false_eq_true, if_false]

theorem performFrame_clampPart (h : f.opc = 0x21) : performFrame c fl f d =
    (.done, partArrive c (bits f.attr.toNat 0 16) (bits f.attr.toNat 16 16) (recOfBytes f.payload) d) := by
  simp only [performFrame, hlegal, h, Bool.not_true, Bool.false_eq_true, if_false]

theorem performFrame_clampResult (h : f.opc = 0x22) : performFrame c fl f d =
    (.done, resultArrive c (bits f.attr.toNat 0 16) f.srcNode (recOfBytes f.payload) d) := by
  simp only [performFrame, hlegal, h, Bool.not_true, Bool.false_eq_true, if_false]

theorem performFrame_clampAck (h : f.opc = 0x23) : performFrame c fl f d = (.done, ackArrive c f.srcNode f.aux.toNat d) := by
  simp only [performFrame, hlegal, h, Bool.not_true, Bool.false_eq_true, if_false]

theorem performFrame_clampQuery (h : f.opc = 0x24) : performFrame c fl f d =
    (.done, queryArrive c (bits f.attr.toNat 0 16) f.srcNode f.aux.toNat d) := by
  simp only [performFrame, hlegal, h, Bool.not_true, Bool.false_eq_true, if_false]

theorem performFrame_clampNone (h : f.opc = 0x25) : performFrame c fl f d = (.done, noneArrive c f.srcNode d) := by
  simp only [performFrame, hlegal, h, Bool.not_true, Bool.false_eq_true, if_false]

theorem performFrame_barrierUp (h : f.opc = 0x26) : performFrame c fl f d =
    (.done, barrierUpArrive c (bits f.attr.toNat 0 16) (bits f.attr.toNat 16 16) f.aux.toNat (bitAt (leNat f.payload) 0) d) := by
  simp only [performFrame, hlegal, h, Bool.not_true, Bool.false_eq_true, if_false]

theorem performFrame_barrierDown (h : f.opc = 0x27) : performFrame c fl f d =
    (.done, barrierDownArrive c (bits f.attr.toNat 0 16) f.aux.toNat (bitAt (leNat f.payload) 0) d) := by
  simp only [performFrame, hlegal, h, Bool.not_true, Bool.false_eq_true, if_false]

theorem performFrame_dovePull (h : f.opc = 0x28) : performFrame c fl f d = doPull c fl f d := by
  simp only [performFrame, hlegal, h, Bool.not_true, Bool.false_eq_true, if_false]

end

end Sys2Proof.Machine

end

section
/-! SUPPORT. The messages of a flow: how the answers to its only one come in, how it ends, and how it fails (R308, R314, R317). -/

namespace Sys2Proof.Machine

open Sys2Proof

/-- The flow with `l` for its messages. -/
def withMsgs (l : List OpenMsg) (x : Flow) : Flow := { x with msgs := l }

/-- A change that leaves a flow as an earlier change of it has left it changes nothing. -/
theorem modFlow_settled {d e : Dev} {fl : Nat} {f g : Flow → Flow} (hfab : d.fab = (e.modFlow fl g).fab) (hsame : f (d.flow fl) = d.flow fl) : d.modFlow fl f = d := by
  have hflow : d.flow fl = g (e.flow fl) := by rw [Dev.flow, hfab]; exact Dev.flow_modFlow_same e fl g
  have htable : tabMod {} d.fab.flows fl f = d.fab.flows := by
    have hset : d.fab.flows = tabSet {} e.fab.flows fl (g (e.flow fl)) := congrArg Fabric.flows hfab
    change tabSet {} d.fab.flows fl (f (d.flow fl)) = _
    rw [hsame, hflow, hset, tabSet_set]
  change ({ d with fab := { d.fab with flows := tabMod {} d.fab.flows fl f } } : Dev) = d
  rw [htable]

section
variable {c : Ctl} {fl : Nat} {f : Frame} {d : Dev} {m : OpenMsg}

/-- R314: nothing of a message that waits for answers is over. -/
theorem reapMsgs_waits {e : Dev} (hfab : d.fab = (e.modFlow fl (withMsgs [m])).fab) (hdue : m.respDue ≠ 0) : reapMsgs c fl d = d := by
  have hmsgs : (d.flow fl).msgs = [m] := by rw [Dev.flow, hfab]; exact congrArg Flow.msgs (Dev.flow_modFlow_same e fl (withMsgs [m]))
  have hnone : (d.flow fl).msgs.filter (msgOver (d.flow fl)) = [] := by simp [hmsgs, msgOver, hdue]
  have hkept : (d.flow fl).msgs.filter (fun x => !([] : List OpenMsg).contains x) = (d.flow fl).msgs := List.filter_eq_self.2 fun _ _ => rfl
  simp only [reapMsgs, hnone, List.foldl_nil]
  exact modFlow_settled hfab (congrArg (fun l => withMsgs l (d.flow fl)) hkept)

/-- R308: a context with a message open stays. -/
theorem drainFlow_waits (h : (d.flow fl).msgs ≠ []) : drainFlow fl d = d := by simp [drainFlow, h]

section
variable (hmsgs : (d.flow fl).msgs = [m])
include hmsgs

/-- R314: a window's message that only waits for its end ends, and tells nobody but of a write. -/
theorem reapMsgs_ends {port : Nat} (hdue : m.respDue = 0) (hissuer : m.issuer = .window port) (hread : bitAt m.dest 61 = false)
    (hacked : (d.flow fl).unacked = []) (hsent : (d.flow fl).waiting = []) : reapMsgs c fl d = d.modFlow fl (withMsgs []) := by
  have hover : (d.flow fl).msgs.filter (msgOver (d.flow fl)) = [m] := by simp [hmsgs, msgOver, hdue, hacked, hsent]
  simp only [reapMsgs, hover, List.foldl_cons, List.foldl_nil, issuerDone, hissuer, hread, Bool.false_eq_true, if_false]
  exact modFlow_congr (by simp [withMsgs, hmsgs])

/-- R314: of the only message of a flow so many bytes less are due. -/
theorem modMsgs_only (m' : OpenMsg) : d.modFlow fl (fun x => { x with msgs := x.msgs.map (fun y => if y = m then m' else y) }) = d.modFlow fl (withMsgs [m']) :=
  modFlow_congr (by simp [withMsgs, hmsgs])

section
variable (hid : m.msgId = f.msgId) (hdue : m.respDue ≠ 0)
include hid hdue

theorem find_only : (d.flow fl).msgs.find? (fun x => x.msgId == f.msgId && x.respDue != 0) = some m := by
  simp [hmsgs, hid, hdue]

section
variable (hplaced : bitAt m.addr 63 = false)
include hplaced

/-- R314, R330: a READ_RESP for a window brings its bytes to the core that asked, and the message owes so many bytes less. -/
theorem takeResp_window {port : Nat} (hissuer : m.issuer = .window port) : takeResp c fl f d =
    drainFlow fl (reapMsgs c fl ((d.modFlow fl (withMsgs [{ m with respDue := m.respDue - f.payload.length }])).emit
      (.bytes port (m.dest % 2 ^ 48 + (f.addr.toNat - m.addr)) f.payload f.poison))) := by
  simp only [takeResp, find_only hmsgs hid hdue, respBase, hplaced, hissuer, modMsgs_only hmsgs, Bool.false_eq_true, if_false]

/-- R314, R330: one for a bench fills the buffer of the DMA's task, or marks it poisoned. -/
theorem takeResp_bench {b : Nat} (hissuer : m.issuer = .bench b) : takeResp c fl f d =
    drainFlow fl (reapMsgs c fl ((d.modFlow fl (withMsgs [{ m with respDue := m.respDue - f.payload.length }])).modBench b
      (fun y => { y with dma := { y.dma with slots := modAt (fun t => if f.poison then { t with res := if t.res = 0 then 4 else t.res }
        else { t with buf := cellsPut t.buf (m.dest + (f.addr.toNat - m.addr)) f.payload }) y.dma.slots 0 } }))) := by
  simp only [takeResp, find_only hmsgs hid hdue, respBase, hplaced, hissuer, modMsgs_only hmsgs, Bool.false_eq_true, if_false]

end

/-- R314: an ATOMIC_RESP brings the old value to the core that asked. -/
theorem takeAtomResp_window {port : Nat} (hissuer : m.issuer = .window port) (hsound : f.poison = false) : takeAtomResp c fl f d =
    drainFlow fl (reapMsgs c fl ((d.modFlow fl (withMsgs [{ m with respDue := 0 }])).emit (.value port (m.dest % 2 ^ 48) (leNat f.payload)))) := by
  simp only [takeAtomResp, find_only hmsgs hid hdue, hissuer, hsound, modMsgs_only hmsgs, Bool.false_eq_true, if_false]

end

end

/-- R314: an answer that is not the last leaves the message open. -/
theorem drainReap_waits {e : Dev} (hfab : d.fab = (e.modFlow fl (withMsgs [m])).fab) (hdue : m.respDue ≠ 0) : drainFlow fl (reapMsgs c fl d) = d := by
  have hmsgs : (d.flow fl).msgs = [m] := by rw [Dev.flow, hfab]; exact congrArg Flow.msgs (Dev.flow_modFlow_same e fl (withMsgs [m]))
  rw [reapMsgs_waits hfab hdue, drainFlow_waits (hmsgs ▸ List.cons_ne_nil m [])]

/-- R308: a DRAINING context with nothing left is CLOSED. -/
theorem drainFlow_done (hmsgs : (d.flow fl).msgs = []) (hacked : (d.flow fl).unacked = []) (hsent : (d.flow fl).waiting = []) :
    drainFlow fl d = if (d.flow fl).state = .draining then d.modFlow fl (fun x => { x with state := .closed }) else d := by
  simp [drainFlow, hmsgs, hacked, hsent]

/-- `e` is `d` but for the state of the fabric engine and for what was sent. -/
def OnlyFabric (d e : Dev) : Prop := { e with fab := d.fab, out := d.out } = d

theorem OnlyFabric.refl (d : Dev) : OnlyFabric d d := rfl
theorem OnlyFabric.modFlow {d e : Dev} (h : OnlyFabric d e) (fl : Nat) (f : Flow → Flow) : OnlyFabric d (e.modFlow fl f) := h
theorem OnlyFabric.emit {d e : Dev} (h : OnlyFabric d e) (x : OutEvent) : OnlyFabric d (e.emit x) := h

/-- R308, R314: the only message of a flow has ended: the flow has none left, is CLOSED if it was DRAINING, and no more has changed but what was sent. -/
def FlowEnds (fl : Nat) (d t : Dev) : Prop :=
  (t.flow fl).msgs = [] ∧ (t.flow fl).state = (if (d.flow fl).state = .draining then .closed else (d.flow fl).state) ∧ OnlyFabric d t

/-- R308, R314: the last answer of a window's message has come. -/
theorem drainReap_ends {port : Nat} {e : OutEvent} (hdue : m.respDue = 0) (hissuer : m.issuer = .window port) (hread : bitAt m.dest 61 = false)
    (hacked : (d.flow fl).unacked = []) (hsent : (d.flow fl).waiting = []) :
    FlowEnds fl d (drainFlow fl (reapMsgs c fl ((d.modFlow fl (withMsgs [m])).emit e))) ∧
      (drainFlow fl (reapMsgs c fl ((d.modFlow fl (withMsgs [m])).emit e))).out = d.out ++ [e] := by
  have hflow : ((d.modFlow fl (withMsgs [m])).emit e).flow fl = withMsgs [m] (d.flow fl) := Dev.flow_modFlow_same d fl _
  have hended : (((d.modFlow fl (withMsgs [m])).emit e).modFlow fl (withMsgs [])).flow fl = withMsgs [] (d.flow fl) := by
    rw [Dev.flow_modFlow_same, hflow]
    rfl
  have hframe : OnlyFabric d (((d.modFlow fl (withMsgs [m])).emit e).modFlow fl (withMsgs [])) := (((OnlyFabric.refl d).modFlow fl _).emit e).modFlow fl _
  rw [reapMsgs_ends (by rw [hflow]; rfl) hdue hissuer hread (by rw [hflow]; exact hacked) (by rw [hflow]; exact hsent),
    drainFlow_done (by rw [hended]; rfl) (by rw [hended]; exact hacked) (by rw [hended]; exact hsent), hended]
  change FlowEnds fl d (if (d.flow fl).state = .draining then _ else _) ∧ Dev.out (if (d.flow fl).state = .draining then _ else _) = _
  split
  · next hdrains => exact ⟨⟨by rw [Dev.flow_modFlow_same, hended]; rfl, by rw [Dev.flow_modFlow_same, if_pos hdrains], hframe.modFlow fl _⟩, rfl⟩
  · next hstays => exact ⟨⟨by rw [hended]; rfl, by rw [hended, if_neg hstays]; rfl, hframe⟩, rfl⟩

/-! ### Failures at the issuer (R317) -/

/-- R317: STATUS ends the message that it answers. -/
theorem statusArrive_ends {w : Nat} (hfind : (d.flow fl).msgs.find? (fun x => x.msgId == f.msgId) = some m) : statusArrive c fl f.msgId w d =
    drainFlow fl (failMsg c fl w (d.modFlow fl (fun x => { x with msgs := x.msgs.erase m })) m) := by
  simp only [statusArrive, hfind]

/-- R317: a failed access of a window for which no bytes are due is recorded as an access that found no target. -/
theorem failMsg_window {w port : Nat} (hissuer : m.issuer = .window port) (hdue : m.respDue = 0) : failMsg c fl w d m =
    fabError c w (d.flow fl).peerNode fl (raise c d Fs.addrDecode (dropInfo (m.dest % 2 ^ 48) port true)) := by
  simp only [failMsg, hissuer, hdue, if_true, BEq.rfl]

/-- R317: the first failure is kept in FAB_LAST_ERR. -/
theorem fabError_first {st node flow : Nat} (hfree : d.aux.errValid = false) : fabError c st node flow d = raise c (d.modAux (fun x =>
    { x with errStatus := BitVec.ofNat 4 st, errNode := BitVec.ofNat 16 node, errFlow := BitVec.ofNat 16 flow, errValid := true })) Fs.fabRemoteErr (fabInfo node flow st) := by
  simp only [fabError, Dev.modAux, hfree, Bool.false_eq_true, if_false]

end

end Sys2Proof.Machine

end

section
/-! SUPPORT. Contributions to ledger slots (R268 to R271, R331, R332), half-chunks of mirrors and their credits (R288, R329), and the twin's
acknowledgement (R283). -/

namespace Sys2Proof.Machine

open Sys2Proof

/-! ### Contributions (R268 to R271, R331, R332) -/

section
variable {c : Ctl} {d : Dev} {p : Panel} {step off fmt mb fl psn : Nat} {bs : List Byte} {ordered bad : Bool}

section
variable (hnew : d.aux.holds.contains (fl, psn) = false)
include hnew

/-- R270: a contribution to a step that has its result is late. -/
theorem contribute_late {r : Nat} (hresult : d.aux.resultStep = some r) (hlate : step ≤ r) : contribute c p step off fmt mb fl bs ordered bad d psn =
    (.late, d.modPlane (p.id % 8) (fun x => { x with lateAddCnt := cntInc x.lateAddCnt })) := by
  simp only [contribute, hnew, hresult, hlate, decide_true, if_true, Bool.false_eq_true, if_false]

section
variable (hopen : d.aux.resultStep = none)
include hopen

/-- R352: one to a step that is frozen waits. -/
theorem contribute_frozen (hfrozen : d.aux.frozen = some step) : contribute c p step off fmt mb fl bs ordered bad d psn = (.held, d) := by
  simp only [contribute, hnew, hopen, hfrozen, if_true, Bool.false_eq_true, if_false]

section
variable (hthawed : d.aux.frozen ≠ some step)
include hthawed

/-- R269: one whose slot serves another step waits. -/
theorem contribute_waits (hslot : openSlot p step d = none) : contribute c p step off fmt mb fl bs ordered bad d psn = (.held, holdAt p step fl psn d) := by
  simp only [contribute, hnew, hopen, hthawed, hslot, Bool.false_eq_true, if_false]

variable {d1 : Dev} (hslot : openSlot p step d = some d1)
include hslot

/-- R268: one in arrival order is added. -/
theorem contribute_adds : contribute c p step off fmt mb fl bs false bad d psn = (.applied, addToSlot c p (p.slotOf step) off fmt bs bad d1) := by
  simp only [contribute, hnew, hopen, hthawed, hslot, Bool.false_eq_true, if_false]

/-- R331: one in index order goes by its run's cursor. -/
theorem contribute_ordered : contribute c p step off fmt mb fl bs true bad d psn =
    contributeOrdered c p (p.slotOf step) step (off / 1024) mb fmt fl bs bad d1 := by
  simp only [contribute, hnew, hopen, hthawed, hslot, if_true, Bool.false_eq_true, if_false]

end

end

end

variable {j run : Nat}

/-- R331: an index below the cursor has been taken before. -/
theorem contributeOrdered_duplicate (hbelow : mb < cursorOf d p j run) :
    contributeOrdered c p j step run mb fmt fl bs bad d = (.denied, raise c d Fs.fabOrderDup ((d.flow fl).peerNode + fl * 2 ^ 16)) := if_pos hbelow

/-- R332: the index at the cursor is added, and those stored behind it follow. -/
theorem contributeOrdered_next (hnext : mb = cursorOf d p j run) : contributeOrdered c p j step run mb fmt fl bs bad d =
    (.applied, drainRun c p j step run
      ((modRun p j run (fun r => { r with cursor := mb + 1 }) (addToSlot c p j (run * 1024) fmt bs bad d)).aux.ors.length + 1)
      (modRun p j run (fun r => { r with cursor := mb + 1 }) (addToSlot c p j (run * 1024) fmt bs bad d))) := by
  rw [contributeOrdered, ← hnext, if_neg (Nat.lt_irrefl mb), if_pos rfl]

end

/-! ### Frames of contributions (R323, R328) -/

section
variable {c : Ctl} {fl : Nat} {f : Frame} {d : Dev}

/-- R323, R328: no owner panel of that PANEL_ID. -/
theorem doPanelAdd_denied (h : ownerPanel d (bits f.addr.toNat 28 20) = none) : doPanelAdd c fl f d = (.bad 1, d) := by
  simp only [doPanelAdd, h]

/-- R328: a contribution within its panel, of the part's kind, is made. -/
theorem doPanelAdd_contributes {p : Panel} (hpanel : ownerPanel d (bits f.addr.toNat 28 20) = some p) (hsome : f.payload ≠ []) (hkind : f.ordered = d.opt.ordered)
    (hfits : bits f.addr.toNat 0 28 + f.payload.length / atomSrc (bits f.attr.toNat 0 4) ≤ p.nparam) : doPanelAdd c fl f d =
      perfOf (contribute c p (nearestStep d f.aux.toNat) (bits f.addr.toNat 0 28) (bits f.attr.toNat 0 4) (bits f.attr.toNat 16 16) fl f.payload f.ordered f.poison d
        f.psn.toNat) := by
  simp [doPanelAdd, hpanel, hsome, hkind, Nat.not_lt.2 hfits]

/-- R323, R348, R361: a pull whose source may be read is answered with its bytes and tags, and refused else. -/
theorem doPull_eq (hsome : f.attr ≠ 0) : doPull c fl f d =
    if spanCheck c d (fun r => r.fabRd) 1 (pullSource d f.addr.toNat) (f.attr.toNat * 4096) = none then
      (.done, answerRead c fl f.msgId (pullSource d f.addr.toNat) (f.attr.toNat * 4096) true d) else (.bad 1, d) := by
  have hlen : f.attr.toNat * 4096 ≠ 0 := by
    have : f.attr.toNat ≠ 0 := fun h => hsome (BitVec.eq_of_toNat_eq h)
    omega
  simp only [doPull, hlen, if_false]
  split
  · next hrefused => rw [if_neg (hrefused ▸ Option.some_ne_none _)]
  · next hgranted => rw [if_pos hgranted]

end

/-! ### Mirrors (R288, R329) -/

theorem OnlyWrites.plane {d e : Dev} (h : OnlyWrites d e) (n : Nat) : e.plane n = d.plane n := by
  have hplanes : e.planes = d.planes := (congrArg Dev.planes h).trans rfl
  rw [Dev.plane, Dev.plane, hplanes]

section
variable {c : Ctl} {d : Dev} {h : Nat}

/-- R288: a plane with no update in hand consumes no chunk. -/
theorem mirrorProgress_idle (hidle : (d.plane h).cur = none) : mirrorProgress c h d = d := by simp only [mirrorProgress, hidle]

/-- R347: only a replica forwards. -/
theorem forwardHalf_twin {p : Panel} (hrole : p.role ≠ 2) (t : MirrorIn) (addr chunk half : Nat) (bs : List Byte) (bad : Bool) :
    forwardHalf c h p t addr chunk half bs bad d = d := if_pos hrole

/-- The plane with nobody asking for its inbox. -/
def unasked (y : Plane) : Plane := { y with asks := [] }

/-- The plane whose inbox, held by a transfer, has taken a half-chunk. -/
def inboxTakes (t : MirrorIn) (chunk half : Nat) (bs : List Byte) (y : Plane) : Plane :=
  { y with transfer := some t, inbox := putHalf chunk half bs false y.inbox }

/-- R288, R329: a sound half-chunk to a twin that has no update in hand is written to the inbox, and the transfer holds it. -/
theorem joinTransfer_writes {p : Panel} {t : MirrorIn} (hrole : p.role ≠ 2) (hstarts : t.got = 0) (hidle : (d.plane h).cur = none)
    (addr chunk half : Nat) (bs : List Byte) : joinTransfer c h p t addr chunk half bs false d =
      (d.poke (inboxAddr (d.plane h) chunk half) bs).modPlane h (inboxTakes t chunk half bs) := by
  have hplane : ((d.poke (inboxAddr (d.plane h) chunk half) bs).modPlane h (inboxTakes t chunk half bs)).plane h = inboxTakes t chunk half bs (d.plane h) := by
    rw [Dev.plane_modPlane_same, (poke_onlyWrites d _ bs).plane]
  have hstays := mirrorProgress_idle (c := c) ((congrArg Plane.cur hplane).trans hidle)
  simp only [joinTransfer, hstarts, Nat.lt_irrefl, and_false, if_false, Bool.false_eq_true, forwardHalf_twin hrole]
  exact hstays

section
variable {i a step chunk half node fl : Nat} {bs : List Byte} {bad : Bool} (hpanel : panelIdxAt d a = some i)
include hpanel

/-- R323: an owner's header takes no mirror. -/
theorem mirrorArrive_owner (howner : (panelAt d i).role = 0) : mirrorArrive c a step chunk half node fl bs bad d = (.denied, d) := by
  simp only [mirrorArrive, hpanel, howner, if_true]

/-- R329: a transfer that finds the inbox another's asks for it once, and waits. -/
theorem mirrorArrive_waits {t : MirrorIn} (hrole : (panelAt d i).role ≠ 0) (hheld : (d.plane ((panelAt d i).id % 8)).transfer = some t)
    (hother : t.idx ≠ i ∨ t.step ≠ step ∨ t.node ≠ node)
    (hfirst : ({ idx := i, step := step, node := node, flow := fl } : MirrorAsk) ∉ (d.plane ((panelAt d i).id % 8)).asks) :
    mirrorArrive c a step chunk half node fl bs bad d =
      (.held, d.modPlane ((panelAt d i).id % 8) (fun y => { y with asks := y.asks ++ [{ idx := i, step := step, node := node, flow := fl }] })) := by
  have hshut : mayEnter (d.plane ((panelAt d i).id % 8)) { idx := i, step := step, node := node, flow := fl } = false := by
    simp only [mayEnter, hheld, Bool.and_eq_false_iff, beq_eq_false_iff_ne]
    exact or_assoc.2 hother
  simp only [mirrorArrive, hpanel, hrole, hshut, Bool.false_eq_true, if_false]
  exact congrArg (Prod.mk _) (modPlane_congr (by simp [hfirst]))

/-- R288, R329: the first half-chunk of a twin's transfer, nobody else at the inbox. -/
theorem mirrorArrive_starts (hrole : (panelAt d i).role = 1) (hfree : (d.plane ((panelAt d i).id % 8)).transfer = none)
    (hnone : (d.plane ((panelAt d i).id % 8)).asks = []) (hidle : (d.plane ((panelAt d i).id % 8)).cur = none) (hfresh : (panelAt d i).committed step = false) :
    mirrorArrive c a step chunk half node fl bs false d =
      (.applied, ((d.modPlane ((panelAt d i).id % 8) unasked).poke (inboxAddr (d.plane ((panelAt d i).id % 8)) chunk half) bs).modPlane
        ((panelAt d i).id % 8) (inboxTakes { idx := i, step := step, node := node, flow := fl } chunk half bs)) := by
  generalize hplane : (panelAt d i).id % 8 = h at *
  have hopen : mayEnter (d.plane h) { idx := i, step := step, node := node, flow := fl } = true := by simp [mayEnter, hfree, hnone]
  have hgone : d.modPlane h (fun y => { y with asks := y.asks.erase { idx := i, step := step, node := node, flow := fl } }) = d.modPlane h unasked :=
    modPlane_congr (by rw [hnone]; rfl)
  have hheader : panelAt (d.modPlane h unasked) i = panelAt d i := panelAt_modPlane (f := unasked) (fun _ => rfl) d h i
  have hmine : (d.modPlane h unasked).plane h = unasked (d.plane h) := Dev.plane_modPlane_same d h unasked
  have hempty : ((d.modPlane h unasked).plane h).transfer = none := (congrArg Plane.transfer hmine).trans hfree
  have hjoin := joinTransfer_writes (c := c) (d := d.modPlane h unasked) (h := h) (p := panelAt d i) (t := { idx := i, step := step, node := node, flow := fl })
    (by rw [hrole]; decide) rfl ((congrArg Plane.cur hmine).trans hidle) a chunk half bs
  have hplace : inboxAddr ((d.modPlane h unasked).plane h) chunk half = inboxAddr (d.plane h) chunk half := by rw [hmine]; rfl
  simp only [mirrorArrive, hpanel, hplane, hrole, hopen, hgone, mirrorTake, hheader, hempty, hfresh, hjoin, hplace, Nat.one_ne_zero, if_true, if_false, Bool.false_and,
    Bool.false_eq_true]

end

/-! ### Credits and acknowledgements (R283, R329) -/

/-- R329: with no chunk waiting nothing goes out. -/
theorem flushMirror_none (h0 : (d.plane h).outq = []) : flushMirror c h d = d := by rw [flushMirror, h0, List.foldl_nil]

section
variable {i a step : Nat} (hpanel : panelIdxAt d a = some i) (howner : (panelAt d i).role = 0)
include hpanel howner

/-- R283: the twin's acknowledgement of the update in hand. -/
theorem twinDoneArrive_cur {u : Update} (hcur : (d.plane ((panelAt d i).id % 8)).cur = some u) (hidx : u.idx = i) (hstep : u.step % 2 ^ 32 = step) (hown : u.mirror = false) :
    twinDoneArrive c a step d = some (d.modPlane ((panelAt d i).id % 8) (fun y => { y with cur := some { u with twinAck := true } })) := by
  have hits : (u.idx == i && u.step % 2 ^ 32 == step && !u.mirror) = true := by rw [hidx, hstep, hown, BEq.rfl, BEq.rfl]; rfl
  simp only [twinDoneArrive, hpanel, howner, hcur, hits, Option.any_some, ne_eq, not_true_eq_false, if_true, if_false]
  exact congrArg some (modPlane_congr (by rw [hcur]; rfl))

/-- R283: of one that waits for it. -/
theorem twinDoneArrive_parked {u : Update} (hcur : (d.plane ((panelAt d i).id % 8)).cur = none) (hparked : (d.plane ((panelAt d i).id % 8)).parked = [u])
    (hidx : u.idx = i) (hstep : u.step % 2 ^ 32 = step) (hown : u.mirror = false) :
    twinDoneArrive c a step d = some (finishParked c ((panelAt d i).id % 8) u d) := by
  have hits : (u.idx == i && u.step % 2 ^ 32 == step && !u.mirror) = true := by rw [hidx, hstep, hown, BEq.rfl, BEq.rfl]; rfl
  simp only [twinDoneArrive, hpanel, howner, hcur, hparked, hits, List.find?_cons, Option.any_none, ne_eq, not_true_eq_false, Bool.false_eq_true, if_false]

/-- R283: of none. -/
theorem twinDoneArrive_unawaited (hcur : (d.plane ((panelAt d i).id % 8)).cur = none) (hparked : (d.plane ((panelAt d i).id % 8)).parked = []) :
    twinDoneArrive c a step d = some d := by
  simp [twinDoneArrive, hpanel, howner, hcur, hparked]

end

end

end Sys2Proof.Machine

end

section

open Sys2Proof Sys2Proof.Machine

/-- Settles O41: a legal frame is what its opcode's lemma says, and the lemmas above say case by case what that makes of messages, slots, inboxes
and planes. -/
theorem engineFramesAct : Obligations.EngineFramesAct := by
  intro c fl f d hlegal a group hi
  refine ⟨performFrame_readResp hlegal, performFrame_atomicResp hlegal, ?_, ?_, performFrame_status hlegal, fun w m hfind => statusArrive_ends hfind, ?_,
    fun st node flow hfree => fabError_first hfree, ?_, ?_, ?_, performFrame_mirror hlegal, ?_, ?_, ?_, ?_, ?_, ?_, performFrame_collData hlegal,
    performFrame_clampPart hlegal, performFrame_clampResult hlegal, performFrame_clampAck hlegal, performFrame_clampQuery hlegal, performFrame_clampNone hlegal,
    performFrame_barrierUp hlegal, performFrame_barrierDown hlegal, ?_⟩
  · intro m hmsgs hid hplaced hmore d1
    have hdue : m.respDue ≠ 0 := by omega
    have hleft : m.respDue - f.payload.length ≠ 0 := by omega
    refine ⟨fun port hissuer => ?_, fun b hissuer => ?_⟩
    · exact (takeResp_window hmsgs hid hdue hplaced hissuer).trans (drainReap_waits (e := d) rfl hleft)
    · exact (takeResp_bench hmsgs hid hdue hplaced hissuer).trans (drainReap_waits (e := d) rfl hleft)
  · intro m port hmsgs hid hdue hissuer hread hacked hsent fin
    refine ⟨fun hlast hplaced => ?_, fun hsound => ?_⟩
    · rw [takeResp_window hmsgs hid hdue hplaced hissuer]
      exact drainReap_ends (by rw [hlast, Nat.sub_self]) hissuer hread hacked hsent
    · rw [takeAtomResp_window hmsgs hid hdue hissuer hsound]
      exact drainReap_ends rfl hissuer hread hacked hsent
  · intro w m
    exact ⟨fun hissuer => by simp only [failMsg, hissuer], fun hissuer => by simp only [failMsg, hissuer], fun port hissuer hdue => failMsg_window hissuer hdue⟩
  · intro hop hnone
    rw [performFrame_panelAdd hlegal hop]
    exact doPanelAdd_denied hnone
  · intro hop hsome hkind p hpanel hfits
    rw [performFrame_panelAdd hlegal hop]
    exact doPanelAdd_contributes hpanel hsome hkind hfits
  · intro p step off fmt mb psn bs ordered bad hnew
    refine ⟨fun r hresult hlate => contribute_late hnew hresult hlate, fun hopen hfrozen => contribute_frozen hnew hopen hfrozen, fun hopen hthawed =>
      ⟨fun hslot => contribute_waits hnew hopen hthawed hslot, ?_, ?_, ?_⟩⟩
    · rintro d1 hslot rfl
      exact contribute_adds hnew hopen hthawed hslot
    · rintro d1 hslot rfl hbelow
      rw [contribute_ordered hnew hopen hthawed hslot]
      exact contributeOrdered_duplicate hbelow
    · rintro d1 hslot rfl hnext e
      rw [contribute_ordered hnew hopen hthawed hslot]
      exact contributeOrdered_next hnext
  · intro step chunk half node bs bad
    refine ⟨fun hnone => by simp only [mirrorArrive, hnone], fun i hpanel => ?_⟩
    intro p pl m
    refine ⟨fun howner => mirrorArrive_owner hpanel howner, fun t hrole hheld hother hfirst => mirrorArrive_waits hpanel hrole hheld hother hfirst, ?_⟩
    rintro hrole hfree hnone hidle rfl hfresh
    exact mirrorArrive_starts hpanel hrole hfree hnone hidle hfresh
  · intro hop hplane
    rw [performFrame_mirrorCredit hlegal hop, if_neg (Nat.not_le.2 hplane)]
  · intro h n node hnone
    exact flushMirror_none ((congrArg Plane.outq (Dev.plane_modPlane_same d h _)).trans hnone)
  · intro hop hplane
    rw [performFrame_mirrorCredit hlegal hop, if_pos hplane]
  · intro hop hnone
    rw [performFrame_twinDone hlegal hop]
    simp only [twinDoneArrive, a, hnone, orDenied]
  · intro hop i hpanel howner h
    rw [performFrame_twinDone hlegal hop]
    refine ⟨fun u hcur hidx hstep hown => ?_, fun u hcur hparked hidx hstep hown => ?_, fun hcur hparked => ?_⟩
    · rw [twinDoneArrive_cur hpanel howner hcur hidx hstep hown]; rfl
    · rw [twinDoneArrive_parked hpanel howner hcur hparked hidx hstep hown]; rfl
    · rw [twinDoneArrive_unawaited hpanel howner hcur hparked]; rfl
  · intro hop hsome
    rw [performFrame_dovePull hlegal hop, doPull_eq hsome]
    exact ⟨fun hgranted => if_pos hgranted, fun hrefused => if_neg hrefused⟩

end

section
/-! SUPPORT. What the receive buffer of a port leaves of the device (R295), and what an acknowledgement that goes out leaves of it (R311). -/

namespace Sys2Proof.Machine

open Sys2Proof

namespace OnlyFabric

variable {d e : Dev} (h : OnlyFabric d e)
include h

theorem mem : e.mem = d.mem := (congrArg Dev.mem h :)
theorem jigs : e.jigs = d.jigs := (congrArg Dev.jigs h :)
theorem planes : e.planes = d.planes := (congrArg Dev.planes h :)
theorem aux : e.aux = d.aux := (congrArg Dev.aux h :)

end OnlyFabric

/-- `e` is `d` but for its ports and for what was sent. -/
def OnlyPorts (d e : Dev) : Prop := { e with fab := { e.fab with ports := d.fab.ports }, out := d.out } = d

namespace OnlyPorts

variable {d e : Dev}

theorem refl (d : Dev) : OnlyPorts d d := rfl
theorem modEth (h : OnlyPorts d e) (p : Nat) (f : EthPort → EthPort) : OnlyPorts d (e.modEth p f) := h
theorem emit (h : OnlyPorts d e) (x : OutEvent) : OnlyPorts d (e.emit x) := h

theorem fabric (h : OnlyPorts d e) : OnlyFabric d e := by
  have hfab := congrArg (fun x => x.modFab (fun _ => d.fab)) h
  exact hfab

theorem flows (h : OnlyPorts d e) : e.fab.flows = d.fab.flows := congrArg (·.fab.flows) h
theorem nodes (h : OnlyPorts d e) : e.fab.nodes = d.fab.nodes := congrArg (·.fab.nodes) h

end OnlyPorts

theorem pfcSignal_onlyPorts {d e : Dev} (h : OnlyPorts d e) (p prio : Nat) : OnlyPorts d (pfcSignal p prio e) := by
  simp only [pfcSignal]
  split
  · exact (h.modEth p _).emit _
  · split
    · exact (h.modEth p _).emit _
    · exact h

/-- R295: a frame that finds room in the receive buffer changes its port alone. -/
theorem bufferFrame_onlyPorts {p prio queued : Nat} {d e : Dev} (h : bufferFrame p prio queued d = some e) : OnlyPorts d e := by
  simp only [bufferFrame] at h
  split at h
  · exact Option.some.inj h ▸ .refl d
  · split at h
    · exact absurd h.symm (Option.some_ne_none e)
    · exact Option.some.inj h ▸ pfcSignal_onlyPorts ((OnlyPorts.refl d).modEth p _) p prio

/-- `e` is `d` after acknowledgements on flow `fl`: the order in which it receives and the frames it holds stay, and but for the fabric engine's
state, its count of frames sent and what was sent, so does all else. -/
structure OnlyAcks (fl : Nat) (d e : Dev) : Prop where
  rxCum : (e.flow fl).rxCum = (d.flow fl).rxCum
  fenced : (e.flow fl).fenced = (d.flow fl).fenced
  dev : { e with fab := d.fab, out := d.out, aux := { e.aux with txFrameCnt := d.aux.txFrameCnt } } = d

namespace OnlyAcks

variable {fl : Nat} {d e : Dev}

theorem refl (fl : Nat) (d : Dev) : OnlyAcks fl d d := ⟨rfl, rfl, rfl⟩

theorem mem (h : OnlyAcks fl d e) : e.mem = d.mem := (congrArg Dev.mem h.dev :)
theorem jigs (h : OnlyAcks fl d e) : e.jigs = d.jigs := (congrArg Dev.jigs h.dev :)
theorem planes (h : OnlyAcks fl d e) : e.planes = d.planes := (congrArg Dev.planes h.dev :)
theorem dupCnt (h : OnlyAcks fl d e) : e.aux.dupCnt = d.aux.dupCnt := congrArg (·.aux.dupCnt) h.dev

theorem modFlow (h : OnlyAcks fl d e) {g : Flow → Flow} (hcum : ∀ x, (g x).rxCum = x.rxCum) (hfenced : ∀ x, (g x).fenced = x.fenced) :
    OnlyAcks fl d (e.modFlow fl g) := by
  refine ⟨?_, ?_, h.dev⟩
  · rw [Dev.flow_modFlow_same, hcum, h.rxCum]
  · rw [Dev.flow_modFlow_same, hfenced, h.fenced]

theorem modEth (h : OnlyAcks fl d e) (p : Nat) (g : EthPort → EthPort) : OnlyAcks fl d (e.modEth p g) := ⟨h.rxCum, h.fenced, h.dev⟩
theorem emit (h : OnlyAcks fl d e) (x : OutEvent) : OnlyAcks fl d (e.emit x) := ⟨h.rxCum, h.fenced, h.dev⟩
theorem countSent (h : OnlyAcks fl d e) : OnlyAcks fl d (e.modAux (fun x => { x with txFrameCnt := cntInc x.txFrameCnt })) := ⟨h.rxCum, h.fenced, h.dev⟩

/-- R295: what leaves by a port is sent, or waits there. -/
theorem portOut (h : OnlyAcks fl d e) (p prio : Nat) (fr : Option Frame) (bs : List Byte) : OnlyAcks fl d (portOut p prio fr bs e) := by
  unfold Machine.portOut
  split
  · exact h.modEth p _
  · split
    · exact h.emit _
    · exact h.emit _

theorem transmit (h : OnlyAcks fl d e) (fr : Frame) (port : Option Nat) (tc ent : Nat) : OnlyAcks fl d (transmit fr port tc ent e) := by
  rw [Machine.transmit]
  split
  · exact (h.portOut _ _ _ _).countSent
  · exact h

theorem sendUnseq (h : OnlyAcks fl d e) (c : Ctl) (fr : Frame) : OnlyAcks fl d (sendUnseq c fl fr e) := by
  unfold Machine.sendUnseq
  refine OnlyAcks.transmit (OnlyAcks.modFlow h ?_ ?_) _ _ _ _
  all_goals exact fun _ => rfl

/-- R311: an ACK goes out. -/
theorem sendAck (h : OnlyAcks fl d e) (c : Ctl) : OnlyAcks fl d (sendAck c fl e) := by
  unfold Machine.sendAck
  refine OnlyAcks.sendUnseq (OnlyAcks.modFlow h ?_ ?_) c _
  all_goals exact fun _ => rfl

/-- R311: a frame is noted for acknowledgement, and an ACK goes out or not. -/
theorem noteAck (h : OnlyAcks fl d e) (c : Ctl) (fr : Frame) (atOnce : Bool) : OnlyAcks fl d (noteAck c fl fr atOnce e) := by
  rw [Machine.noteAck]
  have hnoted := h.modFlow (g := fun x => { x with ackPend := x.ackPend + 1, ackSince := if x.ackPend = 0 then c.now else x.ackSince, tsEcho := fr.ts })
    (fun _ => rfl) fun _ => rfl
  split
  · exact hnoted.sendAck c
  · exact hnoted

end OnlyAcks

end Sys2Proof.Machine

end

section
/-! SUPPORT. How a frame that passes checks 1 to 4 of R306 is received: which of the ways its opcode goes, and what the order of PSNs makes of a
sequenced one (R310, R311, R313, R315). -/

namespace Sys2Proof.Machine

open Sys2Proof

/-! ### The checks on receipt (R306) -/

/-- R308, R309, R311, R313, R334: a frame past check 4 goes by its opcode; a frame of a flow needs the flow's context (check 5). -/
def handleFrame (c : Ctl) (f : Frame) (d : Dev) : Dev :=
  if f.opc = Opc.heartbeat then recvUnseq c f d
  else if f.opc = Opc.flowOpen then openArrive c f d
  else if !contextOk d f then d.modAux (fun x => { x with staleDropCnt := cntInc x.staleDropCnt })
  else if f.opc = Opc.ack ∨ f.opc = Opc.rnr then recvUnseq c f d
  else recvSeq c f.dstFlow f d

/-- The opcodes of the frames without a sequence number. -/
def unseqOpcs : List Nat := [Opc.heartbeat, Opc.flowOpen, Opc.ack, Opc.rnr]

theorem handleFrame_sequenced {c : Ctl} {f : Frame} {d : Dev} (hseq : f.opc ∉ unseqOpcs) (hctx : contextOk d f = true) :
    handleFrame c f d = recvSeq c f.dstFlow f d := by
  simp only [unseqOpcs, List.mem_cons, List.not_mem_nil, or_false, not_or] at hseq
  obtain ⟨hbeat, hopen, hack, hrnr⟩ := hseq
  simp only [handleFrame, hbeat, hopen, hack, hrnr, hctx, or_self, Bool.not_true, Bool.false_eq_true, if_false]

section
variable {s : State} {port opc : Nat} {f : Frame} (harr : Arrives s port opc f)
include harr

theorem works_of_arrives : s.Works := harr.1

theorem bufferFrame_arrives : bufferFrame port f.prio f.queued s.here = some (buffered s port f) := by
  obtain ⟨-, hroom, -⟩ := harr
  obtain ⟨d, hd⟩ := Option.isSome_iff_exists.1 hroom
  rw [buffered, hd, Option.getD_some]

theorem buffered_onlyPorts : OnlyPorts s.here (buffered s port f) := bufferFrame_onlyPorts (bufferFrame_arrives harr)

/-- R306: no check stops the frame before its opcode is looked at. -/
theorem receive_arrives (hknown : knownOpc opc = true) : receive port opc f s.ctl s.here = handleFrame s.ctl { f with opc := opc } (seen s port f) := by
  have hports := buffered_onlyPorts harr
  have hbuffer := bufferFrame_arrives harr
  obtain ⟨-, -, hjoined, hup, hsound, hver, hresv, hlen, hfits, hicrc, hlive⟩ := harr
  have hopen : (!(s.here.eth port).up && !(s.here.fab.joined && f.srcNode == s.here.fab.node.toNat)) = false := by
    change (!(s.dev.eth port).up && !(s.dev.fab.joined && f.srcNode == s.dev.fab.node.toNat)) = false
    rcases hup with hself | hup
    · rw [hjoined, hself, BEq.rfl, Bool.and_self, Bool.not_true, Bool.and_false]
    · rw [hup, Bool.not_true, Bool.false_and]
  have hnodes : ∀ n, (buffered s port f).node n = s.dev.node n := fun n => by rw [Dev.node, hports.nodes]; rfl
  have hjoined' : (buffered s port f).fab.joined = true := (congrArg (·.fab.joined) hports).trans hjoined
  have hlive' : nodeLive (buffered s port f) f.srcNode = true := by
    have hnode : (buffered s port f).fab.node = s.dev.fab.node := congrArg (·.fab.node) hports
    rw [nodeLive, hnode, hnodes]
    exact hlive
  have hseen : (if ((buffered s port f).node f.srcNode).live then (buffered s port f).modNode f.srcNode (fun x => { x with lastSeen := s.ctl.now })
      else buffered s port f) = seen s port f := by rw [hnodes]; rfl
  have hkept : ¬(!(buffered s port f).fab.joined || !f.sound || f.ver != 1 || f.resv != 0 || !knownOpc opc || f.len != f.payload.length ||
      decide (4096 < f.len)) = true := by
    simp [hjoined', hsound, hver, hresv, hknown, ← hlen, hfits]
  simp only [receive, hopen, hbuffer, Bool.false_eq_true, if_false]
  rw [if_neg hkept, if_neg (not_not_intro hicrc), hlive', hseen]
  rfl

theorem seen_onlyFabric : OnlyFabric s.here (seen s port f) := by
  unfold seen
  split
  · exact (buffered_onlyPorts harr).fabric
  · exact (buffered_onlyPorts harr).fabric

theorem seen_flow (k : Nat) : (seen s port f).flow k = s.dev.flow k := by
  have hflow : (buffered s port f).flow k = s.dev.flow k := by rw [Dev.flow, (buffered_onlyPorts harr).flows]; rfl
  unfold seen
  split
  · exact hflow
  · exact hflow

/-- R306: a frame whose context is live for it passes check 5. -/
theorem contextOk_seen (hctx : contextOk s.dev f = true) : contextOk (seen s port f) { f with opc := opc } = true := by
  rw [contextOk, seen_flow harr]
  exact hctx

/-- R310: a sequenced frame with a live context comes to the books of its flow. -/
theorem receive_sequenced (hknown : knownOpc opc = true) (hseq : opc ∉ unseqOpcs) (hctx : contextOk s.dev f = true) :
    receive port opc f s.ctl s.here = recvSeq s.ctl f.dstFlow { f with opc := opc } (seen s port f) :=
  (receive_arrives harr hknown).trans (handleFrame_sequenced (f := { f with opc := opc }) hseq (contextOk_seen harr hctx))

end

/-! ### The order of PSNs (R310, R311, R313, R315) -/

/-- R311: the counts since the last ACK take a frame. -/
def countFrame (f : Frame) (x : Flow) : Flow := { x with rxCnt := x.rxCnt + 1, ceCnt := x.ceCnt + b2n f.ce }

/-- R311: the device once a sequenced frame is in the books of its context. -/
def inBooks (f : Frame) (d : Dev) : Dev := (d.modFlow f.dstFlow (countFrame f)).modAux (fun x => { x with ceCnt := cntIf f.ce x.ceCnt })

/-- R310: a duplicate is counted. -/
def countDuplicate (d : Dev) : Dev := d.modAux (fun x => { x with dupCnt := cntInc x.dupCnt })

/-- R310: how far the PSN of a frame lies above the lowest that its flow has not received. -/
def aboveCum (f : Frame) (x : Flow) : Nat := (f.psn - x.rxCum).toNat

/-- R310, R313, R315: where the PSN of a frame lies says what becomes of it. -/
theorem recvSeq_eq (c : Ctl) (f : Frame) (d : Dev) : recvSeq c f.dstFlow f d =
    if 2 ^ 31 ≤ aboveCum f (d.flow f.dstFlow) ∨ (d.flow f.dstFlow).received.contains f.psn.toNat then
      noteAck c f.dstFlow f f.ce (countDuplicate (inBooks f d))
    else if 1024 ≤ aboveCum f (d.flow f.dstFlow) then (inBooks f d).modAux (fun x => { x with windowDropCnt := cntInc x.windowDropCnt })
    else if (d.flow f.dstFlow).fenced.any (fun x => x.psn == f.psn) then sendAck c f.dstFlow (countDuplicate (inBooks f d))
    else if fenced f ∧ aboveCum f (d.flow f.dstFlow) ≠ 0 then
      sendAck c f.dstFlow ((inBooks f d).modFlow f.dstFlow (fun x => { x with fenced := x.fenced ++ [f] }))
    else releaseFenced c f.dstFlow ((d.flow f.dstFlow).fenced.length + 1) (acceptFrame c f.dstFlow f (inBooks f d)) := by
  have hbooks : (inBooks f d).flow f.dstFlow = countFrame f (d.flow f.dstFlow) := Dev.flow_modFlow_same d f.dstFlow (countFrame f)
  have hcum : ((inBooks f d).flow f.dstFlow).rxCum = (d.flow f.dstFlow).rxCum := by rw [hbooks]; rfl
  have hreceived : ((inBooks f d).flow f.dstFlow).received = (d.flow f.dstFlow).received := by rw [hbooks]; rfl
  have hfenced : ((inBooks f d).flow f.dstFlow).fenced = (d.flow f.dstFlow).fenced := by rw [hbooks]; rfl
  rw [aboveCum, ← hcum, ← hreceived, ← hfenced]
  rfl

section
variable {c : Ctl} {f : Frame} {d : Dev}

theorem recvSeq_duplicate (hold : 2 ^ 31 ≤ aboveCum f (d.flow f.dstFlow) ∨ f.psn.toNat ∈ (d.flow f.dstFlow).received) :
    recvSeq c f.dstFlow f d = noteAck c f.dstFlow f f.ce (countDuplicate (inBooks f d)) := by
  rw [recvSeq_eq, if_pos (hold.imp_right List.contains_iff_mem.2)]

/-- R310, R311: of a duplicate no more comes than a count, what the fabric engine notes of it, and perhaps an ACK. -/
theorem duplicate_leaves {e : Dev} (he : noteAck c f.dstFlow f f.ce (countDuplicate (inBooks f d)) = e) : e.mem = d.mem ∧
    e.aux.dupCnt = cntInc d.aux.dupCnt ∧ (e.flow f.dstFlow).rxCum = (d.flow f.dstFlow).rxCum ∧ e.jigs = d.jigs ∧ e.planes = d.planes := by
  have hacks : OnlyAcks f.dstFlow (countDuplicate (inBooks f d)) e := he ▸ (OnlyAcks.refl f.dstFlow _).noteAck c f f.ce
  refine ⟨hacks.mem.trans ?_, hacks.dupCnt.trans ?_, hacks.rxCum.trans ?_, hacks.jigs.trans ?_, hacks.planes.trans ?_⟩
  all_goals simp [countDuplicate, inBooks, countFrame]

section
variable (hnew : f.psn.toNat ∉ (d.flow f.dstFlow).received)
include hnew

/-- R310: a frame beyond the window of 1,024 is dropped and counted. -/
theorem recvSeq_beyond (hbeyond : 1024 ≤ aboveCum f (d.flow f.dstFlow)) (habove : aboveCum f (d.flow f.dstFlow) < 2 ^ 31) :
    recvSeq c f.dstFlow f d = (inBooks f d).modAux (fun x => { x with windowDropCnt := cntInc x.windowDropCnt }) := by
  rw [recvSeq_eq, if_neg (not_or.2 ⟨Nat.not_le.2 habove, fun h => hnew (List.contains_iff_mem.1 h)⟩), if_pos hbeyond]

section
variable (hunheld : ∀ x ∈ (d.flow f.dstFlow).fenced, x.psn ≠ f.psn) (hwindow : aboveCum f (d.flow f.dstFlow) < 1024)
include hunheld hwindow

/-- R310: a frame within the window that has not come before is held or accepted. -/
theorem recvSeq_new : recvSeq c f.dstFlow f d =
    if fenced f ∧ aboveCum f (d.flow f.dstFlow) ≠ 0 then
      sendAck c f.dstFlow ((inBooks f d).modFlow f.dstFlow (fun x => { x with fenced := x.fenced ++ [f] }))
    else releaseFenced c f.dstFlow ((d.flow f.dstFlow).fenced.length + 1) (acceptFrame c f.dstFlow f (inBooks f d)) := by
  have hany : ¬(d.flow f.dstFlow).fenced.any (fun x => x.psn == f.psn) = true := by simpa using hunheld
  rw [recvSeq_eq, if_neg (not_or.2 ⟨by omega, fun h => hnew (List.contains_iff_mem.1 h)⟩), if_neg (by omega), if_neg hany]

/-- R311, R313: one that FENCE holds above a gap waits, and the gap is acknowledged at once. -/
theorem recvSeq_fenced (hfence : fenced f = true) (hgap : aboveCum f (d.flow f.dstFlow) ≠ 0) : recvSeq c f.dstFlow f d =
    sendAck c f.dstFlow ((inBooks f d).modFlow f.dstFlow (fun x => { x with fenced := x.fenced ++ [f] })) := by
  rw [recvSeq_new hnew hunheld hwindow, if_pos ⟨hfence, hgap⟩]

end

end

/-- R310: marking a PSN as received holds and releases no frame. -/
theorem passCum_fenced (n : Nat) (x : Flow) : (passCum n x).fenced = x.fenced := by
  induction n generalizing x with
  | zero => rfl
  | succ n ih =>
    rw [passCum]
    split
    · exact ih _
    · rfl

theorem markReceived_fenced (psn : W32) (x : Flow) : (markReceived psn x).fenced = x.fenced := passCum_fenced 1025 _

/-- R310, R311, R315: a frame that has been performed is marked as received and counted, the pointer of its home passes its flow, and it is noted for
acknowledgement, at once if it carries CE or leaves a gap. -/
def takePerformed (c : Ctl) (f : Frame) (e : Dev) : Dev :=
  let cum := ((e.modFlow f.dstFlow (markReceived f.psn)).flow f.dstFlow).rxCum
  noteAck c f.dstFlow f (f.ce || decide ((cum - f.psn).toNat = 0) || decide (2 ^ 31 ≤ (cum - f.psn).toNat))
    ((e.modFlow f.dstFlow (markReceived f.psn)).modAux (fun y => { y with rxFrameCnt := cntInc y.rxFrameCnt, homePtr := ptrAfter f.dstFlow f y.homePtr }))

theorem acceptFrame_done {e : Dev} (hdone : performFrame c f.dstFlow f d = (.done, e)) : acceptFrame c f.dstFlow f d = takePerformed c f e := by
  simp only [acceptFrame, hdone]
  rfl

theorem takePerformed_fenced (e : Dev) : ((takePerformed c f e).flow f.dstFlow).fenced = (e.flow f.dstFlow).fenced := by
  refine ((OnlyAcks.refl f.dstFlow _).noteAck c f _).fenced.trans ?_
  rw [Dev.modAux_flow, Dev.flow_modFlow_same, markReceived_fenced]

/-- R313: with no frame held none is released. -/
theorem releaseFenced_none {fl : Nat} (hnone : (d.flow fl).fenced = []) (n : Nat) : releaseFenced c fl n d = d := by
  cases n with
  | zero => rfl
  | succ n => simp only [releaseFenced, hnone, List.find?_nil]

/-- R310, R313: the next frame in order, with none held behind it, is performed. -/
theorem recvSeq_next {e : Dev} (hnew : f.psn.toNat ∉ (d.flow f.dstFlow).received) (hunheld : ∀ x ∈ (d.flow f.dstFlow).fenced, x.psn ≠ f.psn)
    (hnext : f.psn = (d.flow f.dstFlow).rxCum) (hdone : performFrame c f.dstFlow f (inBooks f d) = (.done, e)) (hnone : (e.flow f.dstFlow).fenced = []) :
    recvSeq c f.dstFlow f d = takePerformed c f e := by
  have hat : aboveCum f (d.flow f.dstFlow) = 0 := by rw [aboveCum, hnext, BitVec.sub_self]; rfl
  rw [recvSeq_new hnew hunheld (by omega), if_neg (fun h => h.2 hat), acceptFrame_done hdone, releaseFenced_none ((takePerformed_fenced e).trans hnone)]

end

/-! ### The rows of sequenced frames (R304, R348) -/

/-- The row receives a frame of its opcode, which is known and not one of those without a sequence number. -/
theorem exec_sequenced : ∀ p : (Fin 64 → Frame → Instr) × Nat, SeqRow p →
    (∀ (port : Fin 64) (f : Frame) (s : State), exec (p.1 port f) s = onWork (receive port.val p.2 f) s) ∧ knownOpc p.2 = true ∧ p.2 ∉ unseqOpcs := by
  unfold SeqRow
  repeat refine List.forall_mem_cons.2 ⟨⟨fun _ _ _ => rfl, rfl, by decide⟩, ?_⟩
  exact fun _ hp => absurd hp List.not_mem_nil

/-- R310: what receiving a sequenced frame with a live context makes of the device, its row leaves. -/
theorem exec_recvSeq {s : State} {p : (Fin 64 → Frame → Instr) × Nat} {port : Fin 64} {f : Frame} {d : Dev} (hp : SeqRow p) (harr : Arrives s port.val p.2 f)
    (hctx : contextOk s.dev f = true) (hrecv : recvSeq s.ctl f.dstFlow { f with opc := p.2 } (seen s port.val f) = d) :
    exec (p.1 port f) s = .next (s.withDev d) := by
  obtain ⟨hrow, hknown, hseq⟩ := exec_sequenced p hp
  exact (hrow port f s).trans (onWork_eq (works_of_arrives harr) ((receive_sequenced harr hknown hseq hctx).trans hrecv))

end Sys2Proof.Machine

end

section

open Sys2Proof Sys2Proof.Machine

/-- Settles O38: past the checks the row's frame is the next in order (`recvSeq_next`): it is performed, taken, and releases none. -/
theorem framesArePerformed : Obligations.FramesArePerformed := by
  intro s p port f e hp harr hctx hnext hnew hunheld hnone g taken hdone
  rw [← seen_flow harr] at hnext hnew hunheld
  exact exec_recvSeq hp harr hctx (recvSeq_next (f := g) hnew hunheld hnext hdone hnone)

/-- Settles O39: past the checks the place of the frame's PSN decides, as `recvSeq_duplicate`, `recvSeq_beyond` and `recvSeq_fenced` say; the
acknowledgement of a duplicate leaves all that is named here (`OnlyAcks`). -/
theorem framesOutOfOrder : Obligations.FramesOutOfOrder := by
  intro s p port f hp harr hctx fl delta g
  have hflow : fl = (seen s port.val f).flow f.dstFlow := (seen_flow harr _).symm
  have hdelta : delta = aboveCum g ((seen s port.val f).flow f.dstFlow) := hflow ▸ rfl
  rw [hdelta, hflow]
  refine ⟨fun hold => ?_, fun hbeyond habove hnew => ?_, fun hgap hwindow hnew hunheld hfence => ?_⟩
  · have hseen := seen_onlyFabric harr
    obtain ⟨hmem, hdup, hcum, hjigs, hplanes⟩ := duplicate_leaves (c := s.ctl) (f := g) (d := seen s port.val f) rfl
    exact ⟨_, exec_recvSeq hp harr hctx (recvSeq_duplicate hold), rfl, hmem.trans hseen.mem, hdup.trans (by rw [hseen.aux]; rfl), hcum,
      hjigs.trans hseen.jigs, hplanes.trans hseen.planes⟩
  · exact exec_recvSeq hp harr hctx (recvSeq_beyond (f := g) hnew hbeyond habove)
  · exact exec_recvSeq hp harr hctx (recvSeq_fenced (f := g) hnew hunheld hwindow hfence (Nat.ne_of_gt hgap))

end

section
/-! SUPPORT. What the frames without a sequence number do (R308, R309, R311, R313, R334), priority flow control (R295) and the raw receive ring (R425). -/

namespace Sys2Proof.Machine

open Sys2Proof

/-! ### Frames without a sequence number -/

/-- A received frame is counted. -/
def countReceived (d : Dev) : Dev := d.modAux (fun x => { x with rxFrameCnt := cntInc x.rxFrameCnt })

section
variable {c : Ctl} {f : Frame} {d : Dev}

theorem handleFrame_heartbeat (hop : f.opc = Opc.heartbeat) : handleFrame c f d = countReceived d := by
  rw [handleFrame, if_pos hop]
  simp only [recvUnseq, hop, Opc.heartbeat]
  rfl

theorem handleFrame_flowOpen (hop : f.opc = Opc.flowOpen) : handleFrame c f d = openArrive c f d := by
  rw [handleFrame, if_neg (by rw [hop]; decide), if_pos hop]

/-- R306: ACK and RNR need the context of their flow. -/
theorem handleFrame_ofFlow (hop : f.opc = Opc.ack ∨ f.opc = Opc.rnr) (hctx : contextOk d f = true) : handleFrame c f d = recvUnseq c f d := by
  have hother : f.opc ≠ Opc.heartbeat ∧ f.opc ≠ Opc.flowOpen := by rcases hop with hop | hop <;> rw [hop] <;> decide
  rw [handleFrame, if_neg hother.1, if_neg hother.2, hctx, if_neg (by decide), if_pos hop]

theorem recvUnseq_ack (hop : f.opc = Opc.ack) : recvUnseq c f d = ackArrive2 c f.dstFlow f (countReceived d) := by
  simp only [recvUnseq, hop, Opc.ack]
  rfl

theorem recvUnseq_rnr (hop : f.opc = Opc.rnr) : recvUnseq c f d = rnrArrive f.dstFlow (BitVec.ofNat 32 f.addr.toNat) (countReceived d) := by
  simp only [recvUnseq, hop, Opc.rnr]
  rfl

/-- R309: FLOW_OPEN of the peer's context opens one that waits for it, and is answered. -/
theorem openArrive_opens (hnode : f.srcNode = (d.flow f.dstFlow).peerNode) (hflow : bits f.addr.toNat 0 16 = (d.flow f.dstFlow).peerFlow)
    (hwaits : (d.flow f.dstFlow).state = .opening) : openArrive c f d = sendOpen c f.dstFlow true ((countReceived d).modFlow f.dstFlow (fun x =>
      { x with state := .opn, peerGen := BitVec.ofNat 8 (bits f.addr.toNat 16 8), rate := pathRate (countReceived d) (d.flow f.dstFlow), rtts := [] })) := by
  have hpeer : ¬(f.srcNode ≠ (d.flow f.dstFlow).peerNode ∨ bits f.addr.toNat 0 16 ≠ (d.flow f.dstFlow).peerFlow) :=
    not_or.2 ⟨not_not_intro hnode, not_not_intro hflow⟩
  simp only [openArrive, hpeer, hwaits, if_false]
  rfl

end

/-- R306: a frame past check 4 leaves what its opcode makes of the device. -/
theorem onWork_receive {s : State} {port opc : Nat} {f : Frame} {d : Dev} (harr : Arrives s port opc f) (hknown : knownOpc opc = true)
    (hhandled : handleFrame s.ctl { f with opc := opc } (seen s port f) = d) : onWork (receive port opc f) s = .next (s.withDev d) :=
  onWork_eq (works_of_arrives harr) ((receive_arrives harr hknown).trans hhandled)

/-! ### Priority flow control (R295) -/

/-- `e` is `d` but for what was sent. -/
def OnlyEmits (d e : Dev) : Prop := { e with out := d.out } = d

theorem OnlyEmits.eth {d e : Dev} (h : OnlyEmits d e) (p : Nat) : e.eth p = d.eth p := (congrArg (Dev.eth · p) h :)
theorem OnlyEmits.mem {d e : Dev} (h : OnlyEmits d e) : e.mem = d.mem := (congrArg Dev.mem h :)

/-- R295: by a priority that is not paused frames leave at once. -/
theorem portOut_onlyEmits {p prio : Nat} {d e : Dev} (hgoes : bitAt (d.eth p).paused.toNat prio = false) (h : OnlyEmits d e) (fr : Option Frame)
    (bs : List Byte) : OnlyEmits d (portOut p prio fr bs e) := by
  have hopen : ¬(decide (p < 64) && bitAt (e.eth p).paused.toNat prio) = true := by rw [h.eth, hgoes, Bool.and_false]; decide
  rw [portOut.eq_def, if_neg hopen]
  cases fr
  · exact h
  · exact h

/-- Whether a priority of a port is paused. -/
def setPaused (prio : Nat) (pause : Bool) (q : EthPort) : EthPort := { q with paused := BitVec.ofNat 8 (setBit q.paused.toNat prio pause) }

/-- No frame of a priority waits. -/
def letOut (prio : Nat) (q : EthPort) : EthPort := { q with txHeld := q.txHeld.filter (fun x => x.1 != prio) }

/-- R295: a priority that pauses holds what comes from now on. -/
theorem pfcReceive_pauses (p prio : Nat) (d : Dev) : pfcReceive p prio true d = d.modEth p (setPaused prio true) := by
  simp only [pfcReceive, Bool.true_or, if_true]
  rfl

theorem setPaused_resumes {prio : Nat} (hprio : prio < 8) (q : EthPort) : bitAt (setPaused prio false q).paused.toNat prio = false := by
  rw [setPaused, bitAt_ofNat hprio, bitAt_setBit, if_pos rfl]

/-- R295: what a priority that resumes held back goes out, and no more changes. -/
theorem pfcReceive_letsOut {p prio : Nat} (hprio : prio < 8) {d : Dev} (hheld : (d.eth p).txHeld.any (fun x => x.1 == prio) = true) :
    OnlyEmits (d.modEth p (fun q => letOut prio (setPaused prio false q))) (pfcReceive p prio false d) := by
  have hopen : bitAt ((d.modEth p (fun q => letOut prio (setPaused prio false q))).eth p).paused.toNat prio = false := by
    rw [Dev.eth_modEth_same]
    exact setPaused_resumes hprio (d.eth p)
  have hone : (d.modEth p (setPaused prio false)).modEth p (letOut prio) = d.modEth p (fun q => letOut prio (setPaused prio false q)) :=
    congrArg (fun t => { d with fab := { d.fab with ports := t } }) (tabMod_mod d.fab.ports p {} _ _)
  simp only [pfcReceive, hheld, Bool.not_true, Bool.or_self, Bool.false_eq_true, if_false]
  exact List.foldlRecOn (motive := OnlyEmits _) _ _ hone fun x hx held _ => portOut_onlyEmits hopen hx _ _

/-- R295: a priority that is resumed holds nothing back. -/
theorem pfcReceive_resumes {p prio : Nat} (hprio : prio < 8) (d : Dev) : bitAt ((pfcReceive p prio false d).eth p).paused.toNat prio = false ∧
    (∀ x ∈ ((pfcReceive p prio false d).eth p).txHeld, x.1 ≠ prio) ∧ (pfcReceive p prio false d).mem = d.mem := by
  by_cases hheld : (d.eth p).txHeld.any (fun x => x.1 == prio) = true
  · have hout := pfcReceive_letsOut hprio hheld
    rw [hout.eth, hout.mem, Dev.eth_modEth_same]
    exact ⟨setPaused_resumes hprio (d.eth p), fun x hx => by simpa using (List.mem_filter.1 hx).2, rfl⟩
  · have hnone : pfcReceive p prio false d = d.modEth p (setPaused prio false) := by
      simp only [pfcReceive, hheld, Bool.not_false, Bool.or_true, if_true]
      rfl
    rw [hnone, Dev.eth_modEth_same]
    exact ⟨setPaused_resumes hprio (d.eth p), fun x hx => by simpa using fun h => hheld (List.any_eq_true.2 ⟨x, hx, by simpa using h⟩), rfl⟩

theorem exec_pfcFrameReceive {s : State} {port : Fin 64} (hw : s.Works) (hup : (s.dev.eth port.val).up = true) (prio : Fin 8) (pause : Bool) :
    exec (.pfcFrameReceive port prio pause) s = .next (s.withDev (pfcReceive port.val prio.val pause s.here)) :=
  onWork_eq (f := fun _ d => if (d.eth port.val).up then pfcReceive port.val prio.val pause d else d) hw (if_pos hup)

/-! ### The raw receive ring (R297, R425) -/

section
variable {p queued : Nat} {bs : List Byte} {c : Ctl} {d e : Dev} (hup : (d.eth p).up = true) (hbuffer : bufferFrame p (rawPrio bs) queued d = some e)
include hup hbuffer

/-- R293: a frame that uses what the MACs do not support is dropped and counted. -/
theorem devRawReceive_unsupported (hunsupported : rawSupported bs = false) : devRawReceive p bs queued c d = dropRx e := by
  simp only [devRawReceive, hup, hbuffer, hunsupported, Bool.not_true, Bool.not_false, Bool.or_true, Bool.false_eq_true, if_false, if_true]

/-- R425: one that the MACs support, with room in the ring, is written to the slot at HEAD, behind its length and its port, and HEAD moves on. -/
theorem devRawReceive_stores (hjoined : d.fab.joined = true) (hring : e.aux.rawRx ≠ 0) (hsupported : rawSupported bs = true) (hslots : e.peek32 e.aux.rawRx ≠ 0)
    (hroom : (e.peek32 (e.aux.rawRx + 8) + 1) % e.peek32 e.aux.rawRx ≠ e.peek32 (e.aux.rawRx + 16)) : devRawReceive p bs queued c d =
      (e.poke (e.aux.rawRx + 64 + e.peek32 (e.aux.rawRx + 8) * 10240) (natLE 2 bs.length ++ [BitVec.ofNat 8 p] ++ List.replicate 5 0 ++ bs)).poke32 (e.aux.rawRx + 8)
        ((e.peek32 (e.aux.rawRx + 8) + 1) % e.peek32 e.aux.rawRx) := by
  have hports := bufferFrame_onlyPorts hbuffer
  have haux : d.aux.rawRx = e.aux.rawRx := congrArg FabAux.rawRx hports.fabric.aux.symm
  have hjoined' : e.fab.joined = true := (congrArg (·.fab.joined) hports).trans hjoined
  have hkept : ¬(!e.fab.joined || e.aux.rawRx == 0 || !rawSupported bs) = true := by simp [hjoined', hring, hsupported]
  have hfree : ¬(e.peek32 e.aux.rawRx = 0 ∨ (e.peek32 (e.aux.rawRx + 8) + 1) % e.peek32 e.aux.rawRx = e.peek32 (e.aux.rawRx + 16)) := not_or.2 ⟨hslots, hroom⟩
  simp only [devRawReceive, hup, hbuffer, haux, hkept, hfree, Bool.not_true, Bool.false_eq_true, if_false]

end

end Sys2Proof.Machine

end

section

open Sys2Proof Sys2Proof.Machine

/-- Settles O42: past the checks a frame goes by its opcode (`handleFrame`); `pfcReceive_resumes` says what a resumed priority lets out, and the lemmas
of the raw ring which frame it takes. -/
theorem unsequencedFramesAct : Obligations.UnsequencedFramesAct := by
  intro s port f counted
  refine ⟨fun harr hctx => ?_, fun harr hctx => ?_, fun harr => ?_, fun harr hnode hflow hwaits => ?_, fun hw hup prio => ⟨?_, ?_⟩,
    fun bs queued d hw hup hbuffer => ?_⟩
  · exact onWork_receive harr rfl ((handleFrame_ofFlow (.inl rfl) (contextOk_seen harr hctx)).trans (recvUnseq_ack rfl))
  · exact onWork_receive harr rfl ((handleFrame_ofFlow (.inr rfl) (contextOk_seen harr hctx)).trans (recvUnseq_rnr rfl))
  · exact onWork_receive harr rfl (handleFrame_heartbeat rfl)
  · rw [← seen_flow harr] at hnode hflow hwaits
    exact onWork_receive harr rfl ((handleFrame_flowOpen rfl).trans (openArrive_opens (f := { f with opc := Opc.flowOpen }) hnode hflow hwaits))
  · exact (exec_pfcFrameReceive hw hup prio true).trans (congrArg _ (congrArg _ (pfcReceive_pauses port.val prio.val s.here)))
  · exact ⟨_, exec_pfcFrameReceive hw hup prio false, pfcReceive_resumes prio.isLt s.here⟩
  · intro ring slots head
    refine ⟨fun hunsupported => ?_, fun hjoined hring hsupported hslots hroom => ?_⟩
    · exact onWork_eq (f := devRawReceive port.val bs queued) hw (devRawReceive_unsupported (d := s.here) hup hbuffer hunsupported)
    · exact onWork_eq (f := devRawReceive port.val bs queued) hw (devRawReceive_stores (d := s.here) hup hbuffer hjoined hring hsupported hslots hroom)

end

section
/-! SUPPORT. What the timers of a flow do: lost frames (R299, R312), the rate of a period (R318), and the loss of a peer (R334, R335). -/

namespace Sys2Proof.Machine

open Sys2Proof

section
variable {c : Ctl} {k : Nat} {d : Dev}

/-- R311: the acknowledgement that an OPEN flow held goes out. -/
theorem devAckDelay_sends (hopen : (d.flow k).state = .opn) (hheld : (d.flow k).ackPend ≠ 0) : devAckDelay k c d = sendAck c k d := by
  simp only [devAckDelay, hopen, hheld, true_or, ne_eq, not_false_eq_true, and_self, if_true]

section
variable {psn : W32} {t : TxFrame} (hsent : (d.flow k).unacked.find? (fun x => x.frame.psn == psn) = some t) (hfree : psn ∉ (d.flow k).rnrHeld)
include hsent hfree

/-- R299, R312: a frame that times out is lost, and its path penalised. -/
theorem devFrameLoss_loses : devFrameLoss k psn false c d = loseFrame c k (d.modFlow k (fun x =>
    { x with penalties := tabPut x.penalties (t.port * 16 + t.ent) (c.now + d.fab.pathPenalty.toNat) })) t := by
  simp [devFrameLoss, hsent, hfree]

/-- R24: an acknowledgement of the same cycle wins, and the tie is counted. -/
theorem devFrameLoss_tie : devFrameLoss k psn true c d = d.modAux (fun x => { x with tieCnt := cntInc x.tieCnt }) := by
  simp [devFrameLoss, hsent, hfree]

end

/-! ### The rate of a period (R318) -/

/-- Rounded either way, a quotient of no more than a whole rate is no more than that rate. -/
theorem wholeRate_le {free n m r : Nat} (h : n ≤ r * m) : wholeRate free n m ≤ r := by
  have hquot : n / m ≤ r := Nat.div_le_of_le_mul (Nat.mul_comm r m ▸ h)
  rw [wholeRate]
  split
  · exact hquot
  · next hrest =>
    have hbelow : n / m < r := by
      refine Nat.lt_of_le_of_ne hquot fun heq => hrest ?_
      have hsplit := Nat.div_add_mod n m
      rw [heq, Nat.mul_comm] at hsplit
      omega
    omega

/-- The flow whose figures of the period are spent, at a new rate after so many periods of growth. -/
def periodOver (rate run : Nat) (x : Flow) : Flow := { x with ccCe := 0, ccRx := 0, ccDelay := none, rate := rate, ccRun := run }

section
variable {delay : Nat} (hdelay : (d.flow k).ccDelay = some delay)
include hdelay

/-- R318: a period without CE and without queueing raises the rate. -/
theorem devCcTick_raises (hclear : (d.flow k).ccCe = 0 ∨ (d.flow k).ccRx = 0) (hshort : delay - baseRtt c.now (d.flow k) ≤ d.fab.ccTarget.toNat) :
    devCcTick k c d = d.modFlow k (periodOver (min (pathRate d (d.flow k))
      ((d.flow k).rate + d.fab.ccAiStep.toNat * if d.fab.ccHai.toNat < (d.flow k).ccRun + 1 then 8 else 1)) ((d.flow k).ccRun + 1)) := by
  have hgrows : ¬((0 < (d.flow k).ccCe ∧ 0 < (d.flow k).ccRx) ∨ d.fab.ccTarget.toNat < delay - baseRtt c.now (d.flow k)) := by omega
  simp only [devCcTick, hdelay, hgrows, if_false]
  rfl

/-- R318: one with CE makes it fall, not below the least rate, and begins the growth anew. -/
theorem devCcTick_falls (hce : 0 < (d.flow k).ccCe) (hrx : 0 < (d.flow k).ccRx) : ∃ r ≤ (d.flow k).rate,
    devCcTick k c d = { d.modFlow k (periodOver (max d.fab.ccRateMin.toNat r) 0) with free := d.free + 1 } := by
  let x := ccFraction (d.flow k).ccCe (d.flow k).ccRx (delay - baseRtt c.now (d.flow k)) d.fab.ccTarget.toNat
  let beta := min 256 (max 1 d.fab.ccBeta.toNat)
  refine ⟨wholeRate d.free ((d.flow k).rate * (256 * x.2 - beta * x.1)) (256 * x.2), wholeRate_le (Nat.mul_le_mul_left _ (Nat.sub_le _ _)), ?_⟩
  have hfalls : (0 < (d.flow k).ccCe ∧ 0 < (d.flow k).ccRx) ∨ d.fab.ccTarget.toNat < delay - baseRtt c.now (d.flow k) := .inl ⟨hce, hrx⟩
  simp only [devCcTick, hdelay, hfalls, if_true]
  rfl

end

theorem devOpenResend_sends (hwaits : (d.flow k).state = .opening) : devOpenResend k c d = sendOpen c k false d := if_pos hwaits

end

/-- R318: the tick of an OPEN flow is its rate's. -/
theorem exec_ccPeriodTick {s : State} {k : Fin 65536} {d : Dev} (hw : s.Works) (hopen : (s.dev.flow k.val).state = .opn) (htick : devCcTick k.val s.ctl s.here = d) :
    exec (.ccPeriodTick k) s = .next (s.withDev d) :=
  onWork_eq (f := fun c d => if (d.flow k.val).state = .opn ∨ (d.flow k.val).state = .draining then devCcTick k.val c d else d) hw ((if_pos (.inl hopen)).trans htick)

/-! ### Peers (R334, R335) -/

section
variable {c : Ctl} {n : Nat} {d : Dev} (hwatched : (d.node n).watched = true) (hthere : (d.node n).lost = false)
include hwatched hthere

/-- R335: a silent peer that no flow goes to is lost, and the clamp learns of it. -/
theorem devPeerLoss_loses (hflows : ∀ p ∈ d.fab.flows, p.2.peerNode ≠ n) : devPeerLoss n false c d =
    clampPeerLost c n (raise c (d.modNode n (fun y => { y with lost := true })) Fs.fabPeerLost (fabInfo n 0 0)) := by
  have hnone : d.fab.flows.filter (fun p => p.2.peerNode == n) = [] := List.filter_eq_nil_iff.2 fun p hp => by simpa using hflows p hp
  simp only [devPeerLoss, hwatched, hthere, hnone, List.map_nil, List.foldl_nil, Bool.not_true, Bool.or_self, Bool.false_eq_true, if_false]

/-- R24: a frame of it in the same cycle wins, and the tie is counted. -/
theorem devPeerLoss_tie : devPeerLoss n true c d =
    (d.modNode n (fun y => { y with lastSeen := c.now })).modAux (fun y => { y with tieCnt := cntInc y.tieCnt }) := by
  simp only [devPeerLoss, hwatched, hthere, Bool.not_true, Bool.or_self, Bool.false_eq_true, if_false, if_true]

end

end Sys2Proof.Machine

end

section

open Sys2Proof Sys2Proof.Machine

/-- Settles O43: each timer is its function, of which the lemmas above say what it does to its flow or its peer; `wholeRate_le` keeps the rate of a period
with CE at or below the one before. -/
theorem flowTimersAct : Obligations.FlowTimersAct := by
  intro s k hw fl
  refine ⟨fun hopen hheld => ?_, fun psn t hsent hfree => ⟨?_, ?_⟩, fun delay hopen hdelay hclear hshort => ?_, fun delay hopen hdelay hce hrx => ?_,
    fun hwaits => ?_, fun hjoined => ?_, fun n hwatched hthere hflows => ⟨?_, ?_⟩, fun path => ?_, ?_⟩
  · exact onWork_eq (f := devAckDelay k.val) hw (devAckDelay_sends (d := s.here) hopen hheld)
  · exact onWork_eq (f := devFrameLoss k.val psn false) hw (devFrameLoss_loses (d := s.here) hsent hfree)
  · exact onWork_eq (f := devFrameLoss k.val psn true) hw (devFrameLoss_tie (d := s.here) hsent hfree)
  · exact exec_ccPeriodTick hw hopen (devCcTick_raises (d := s.here) hdelay hclear hshort)
  · obtain ⟨r, hr, hfalls⟩ := devCcTick_falls (c := s.ctl) (d := s.here) hdelay hce hrx
    have hflow := Dev.flow_modFlow_same s.here k.val (periodOver (max s.dev.fab.ccRateMin.toNat r) 0)
    refine ⟨_, exec_ccPeriodTick hw hopen hfalls, ?_, ?_, ?_, rfl⟩
    · exact congrArg Flow.ccRun hflow
    · exact Nat.le_trans (Nat.le_max_left _ r) (Nat.le_of_eq (congrArg Flow.rate hflow).symm)
    · have hmax : max s.dev.fab.ccRateMin.toNat r ≤ max s.dev.fab.ccRateMin.toNat fl.rate := Nat.max_le.2 ⟨Nat.le_max_left _ _, Nat.le_trans hr (Nat.le_max_right _ _)⟩
      exact Nat.le_trans (Nat.le_of_eq (congrArg Flow.rate hflow)) hmax
  · exact onWork_eq (f := devOpenResend k.val) hw (devOpenResend_sends (d := s.here) hwaits)
  · exact onWork_eq (f := fun c d => if d.fab.joined then devBeats c d else d) hw (if_pos hjoined)
  · exact onWork_eq (f := devPeerLoss n.val false) hw (devPeerLoss_loses (d := s.here) hwatched hthere hflows)
  · have hnode := Dev.node_modNode_same s.here n.val (fun y => { y with lastSeen := s.ctl.now })
    exact ⟨_, onWork_eq (f := devPeerLoss n.val true) hw (devPeerLoss_tie (d := s.here) hwatched hthere), congrArg Node.lastSeen hnode,
      (congrArg Node.lost hnode).trans hthere, rfl⟩
  · exact onWork_eq (f := fun _ d => d.modFlow k.val (fun x => { x with penalties := tabDel x.penalties path })) hw rfl
  · exact onWork_eq (f := devRnrRetransmit k.val) hw rfl

end

section
/-! SUPPORT. What lane failures, retraining and link-up make of a port (R292, R294, R430), and the poll of the raw transmit ring (R425). -/

namespace Sys2Proof.Machine

open Sys2Proof

/-- A lane is recorded as failed. -/
def markLane (lane : Nat) (g : Fabric) : Fabric := { g with laneFail := BitVec.ofNat 64 (setBit g.laneFail.toNat lane true) }

theorem bitAt_markLane {lane : Nat} (hlane : lane < 64) (g : Fabric) : bitAt (markLane lane g).laneFail.toNat lane = true := by
  rw [markLane, bitAt_ofNat hlane, bitAt_setBit, if_pos rfl]

/-- R294: the port goes down, to retrain on these lanes, or, with none, for good. -/
def portFails (half : List Nat) (x : EthPort) : EthPort :=
  { x with
    up := false, buf := [], xoff := 0, txHeld := [], lanes := BitVec.ofNat 64 (maskOf half)
    retraining := !half.isEmpty && x.width != 0, dead := half.isEmpty, width := if half.isEmpty then 0 else x.width }

/-- R294, R318: the device whose port has lost a lane and keeps these: the rates of its flows follow. -/
def portLosesLane (lane p : Nat) (half : List Nat) (d : Dev) : Dev := capRates ((d.modFab (markLane lane)).modEth p (portFails half))

theorem portLosesLane_down (lane p : Nat) (half : List Nat) (d : Dev) : ((portLosesLane lane p half d).eth p).up = false :=
  congrArg EthPort.up (Dev.eth_modEth_same (d.modFab (markLane lane)) p (portFails half))

theorem portLosesLane_marked {lane : Nat} (hlane : lane < 64) (p : Nat) (half : List Nat) (d : Dev) :
    bitAt (portLosesLane lane p half d).fab.laneFail.toNat lane = true := bitAt_markLane hlane d.fab

/-- `e` is `d` but for the state of the fabric engine; unlike with `OnlyFabric`, nothing was sent. -/
def SilentFabric (d e : Dev) : Prop := { e with fab := d.fab } = d

theorem SilentFabric.modFab {d e : Dev} (h : SilentFabric d e) (f : Fabric → Fabric) : SilentFabric d (e.modFab f) := h

theorem portLosesLane_silent (lane p : Nat) (half : List Nat) (d : Dev) : SilentFabric d (portLosesLane lane p half d) :=
  ((SilentFabric.modFab (d := d) rfl (markLane lane)).modFab _).modFab _

section
variable {c : Ctl} {d : Dev} {lane p : Nat} (hfresh : bitAt d.fab.laneFail.toNat lane = false) (hport : lane / cfgWidthOf d = p)
include hfresh hport

/-- R294: a lane that its port does not run on is recorded alone. -/
theorem failLane_unused (hunused : bitAt (d.eth p).lanes.toNat lane = false) :
    failLane lane c d = raise c (d.modFab (markLane lane)) (Fs.ethLaneFail lane) (portInfo p (d.eth p).width) := by
  simp only [failLane, hfresh, hport, hunused, Bool.not_false, Bool.true_or, Bool.false_eq_true, if_false, if_true]
  rfl

/-- R294: one that it runs on takes it down. -/
theorem failLane_used (hused : bitAt (d.eth p).lanes.toNat lane = true) (hlives : (d.eth p).dead = false) :
    let half := goodHalf (d.modFab (markLane lane)) (d.eth p)
    failLane lane c d = raiseAll c (portLosesLane lane p half d)
      ([(Fs.ethLaneFail lane, 0, portInfo p half.length)] ++ if half.isEmpty then [(Fs.ethPortDown, 0, portInfo p 0)] else []) := by
  simp only [failLane, hfresh, hport, hused, hlives, Bool.not_true, Bool.or_self, Bool.false_eq_true, if_false]
  rfl

end

section
variable {c : Ctl} {d : Dev} {p : Nat}

section
variable (hretrains : (d.eth p).retraining = true) (hlives : (d.eth p).dead = false)
include hretrains hlives

/-- R294: a port whose retraining fails stays down. -/
theorem devPortRetrained_fails : devPortRetrained p false c d =
    raise c (capRates (d.modEth p (fun x => { x with retraining := false, dead := true, up := false, width := 0 }))) Fs.ethPortDown (portInfo p 0) := by
  simp only [devPortRetrained, hretrains, hlives, Bool.not_true, Bool.not_false, Bool.or_self, Bool.false_eq_true, if_false, if_true]

/-- R294: one that has lost no lane is up as before. -/
theorem devPortRetrained_whole (hwide : (d.eth p).width ≤ popcount (d.eth p).lanes.toNat 64) : devPortRetrained p true c d =
    capRates (d.modEth p (fun x => { x with retraining := false, up := true, width := popcount (d.eth p).lanes.toNat 64 })) := by
  simp only [devPortRetrained, hretrains, hlives, Nat.not_lt.2 hwide, Bool.not_true, Bool.or_self, Bool.false_eq_true, if_false]

end

/-- R292, R430: a port that is down but may run comes up at its lanes. -/
theorem devLinkUp_trains (hready : c.boot.ready = true) (hclock : c.clk.ethRefclkOk = true) (hdown : (d.eth p).up = false) (hlives : (d.eth p).dead = false)
    (hquiet : (d.eth p).retraining = false) (hlanes : (d.eth p).lanes ≠ 0) :
    devLinkUp p c d = d.modEth p (fun x => { x with up := true, width := popcount (d.eth p).lanes.toNat 64 }) := by
  have hlanes' : ((d.eth p).lanes != 0) = true := bne_iff_ne.2 hlanes
  simp only [devLinkUp, hready, hclock, hdown, hlives, hquiet, hlanes', Bool.not_false, Bool.and_self, if_true]

/-- R425: the raw transmit ring is sent from TAIL up to HEAD. -/
theorem devRawPoll_sends (hjoined : d.fab.joined = true) (hring : d.aux.rawTx ≠ 0) (hslots : d.peek32 d.aux.rawTx ≠ 0) : devRawPoll c d =
    sendRaw d.aux.rawTx (d.peek32 d.aux.rawTx) (d.peek32 (d.aux.rawTx + 8) % d.peek32 d.aux.rawTx) (d.peek32 d.aux.rawTx)
      (d.peek32 (d.aux.rawTx + 16) % d.peek32 d.aux.rawTx) d := by
  have hset : ¬(!d.fab.joined || d.aux.rawTx == 0) = true := by simp [hjoined, hring]
  simp only [devRawPoll, hset, hslots, Bool.false_eq_true, if_false]

end

end Sys2Proof.Machine

end

section

open Sys2Proof Sys2Proof.Machine

/-- Settles O44: each event is its function, of which the lemmas above say what it makes of the port, of the record of lanes and of the ring. -/
theorem linkEventsAct : Obligations.LinkEventsAct := by
  intro s hw
  refine ⟨?_, ?_, fun p hretrains hlives => ⟨?_, fun hwide => ?_⟩, fun p hready hclock hdown hlives hquiet hlanes => ?_, fun hjoined hring => ?_⟩
  · intro l p hfresh hunused
    exact onWork_eq (f := failLane l.val) hw (failLane_unused (d := s.here) hfresh rfl hunused)
  · intro l p hfresh hused hlives
    exact ⟨_, _, onWork_eq (f := failLane l.val) hw (failLane_used (d := s.here) hfresh rfl hused hlives), portLosesLane_down l.val p _ s.here,
      portLosesLane_marked l.isLt p _ s.here, .head _, portLosesLane_silent l.val p _ s.here⟩
  · exact onWork_eq (f := devPortRetrained p.val false) hw (devPortRetrained_fails (d := s.here) hretrains hlives)
  · exact onWork_eq (f := devPortRetrained p.val true) hw (devPortRetrained_whole (d := s.here) hretrains hlives hwide)
  · exact onWork_eq (f := devLinkUp p.val) hw (devLinkUp_trains (d := s.here) hready hclock hdown hlives hquiet hlanes)
  · intro ring slots hslots
    exact onWork_eq (f := devRawPoll) hw (devRawPoll_sends (d := s.here) hjoined hring hslots)

end

section
/-! SUPPORT. How each collective operation starts whose turn it is and whose checks pass (R340 to R345, R357, R362). -/

namespace Sys2Proof.Machine

open Sys2Proof

/-- R343: REDUCE_SCATTER and ALL_REDUCE start alike. -/
theorem exec_reduction {q : Instr × Nat} (hq : q ∈ [(Instr.reduceScatter, 2), (.allReduce, 4)]) (s : State) : exec q.1 s = onWork (startReduce q.2) s := by
  simp only [List.mem_cons, List.not_mem_nil, or_false] at hq
  obtain rfl | rfl := hq
  · rfl
  · rfl

/-- R343: the block that goes first from rank `k` of `n` ends its round one rank before it. -/
def firstBlock (x : CollDesc) (n k : Nat) : Nat × Nat := ringBlock x.len n ((k + n - 1) % n)

/-- R343: what goes first to the next rank: the own part of that block, in FP32. -/
def firstPartial (x : CollDesc) (n k gseq : Nat) (d : Dev) : List Frame :=
  let blk := firstBlock x n k
  dataFrames x.group gseq 1 (ownBad d x blk.1 blk.2) ((ownBlock d x blk.1 blk.2).flatMap (natLE 4))

/-- R341, R343: the first frames go to the rank after `k`, and the ring moves on with what is in. -/
def ringOpens (c : Ctl) (seq : Nat) (g : Group) (k : Nat) (frs : List Frame) (d : Dev) : Dev :=
  ringGo c seq (2 * g.members.length) (collSend c seq g ((k + 1) % g.members.length) frs d)

section
variable {c : Ctl} {d e : Dev} {o o1 : CollOp} {g : Group} {x : CollDesc} (hdesc : collDescOf o.words = x) (hbegun : beginOp o d = (o1, e))
include hdesc hbegun

/-- R345: GRAD_SEND sends the frames of each entry of its shard map, then looks at each entry's source. -/
theorem devGradSend_starts (hnext : nextColl d 1 = some o) : devGradSend c d = (shardMap e x).foldl (fun y w =>
      sourcePoison c o.seq (x.src + bits (wordAt w 0) 0 32 * 1024 * collWidth x.fmt) (bits (wordAt w 0) 32 32 * 1024 * collWidth x.fmt) y)
    (finishOp o.seq 0 ((shardMap e x).foldl (fun y w =>
      let frs := shardFrames y x o.step w
      if frs.isEmpty then y else startMsg c (bits (wordAt w 1) 16 16) (.coll o.seq) frs 0 0 0 y) e)) := by
  simp only [devGradSend, hnext, hdesc, hbegun]

section
variable (hgroup : tabFind e.coll.groups x.group = some g)
include hgroup

/-- R343: in a group of several a reduction sends its first partial to the next rank. -/
theorem startReduce_ring {op : Nat} (hnext : nextColl d op = some o) (hmany : g.members.length ≠ 1) :
    let n := g.members.length
    let k := myRank d g
    let blk := firstBlock x n k
    startReduce op c d = sourcePoison c o.seq x.src (x.len * collWidth x.fmt) (ringOpens c o.seq g k (firstPartial x n k o1.gseq d)
      (modOp o.seq (fun y => { y with bad := ownBad d x blk.1 blk.2 }) e)) := by
  simp only [startReduce, hnext, hdesc, hbegun, hgroup, if_neg hmany]
  rfl

/-- R343: in a group of one its own elements are the result. -/
theorem startReduce_alone {op : Nat} (hnext : nextColl d op = some o) (hone : g.members.length = 1) : startReduce op c d =
    sourcePoison c o.seq x.src (x.len * collWidth x.fmt) (ringResult c o1 g x (myRank d g) (ownBlock d x 0 x.len) (ownBad d x 0 x.len) e) := by
  simp only [startReduce, hnext, hdesc, hbegun, hgroup, if_pos hone]

/-- R341: ALL_GATHER stores its own block at its rank's place and sends it to the next rank. -/
theorem devAllGather_ring (hnext : nextColl d 3 = some o) (hmany : g.members.length ≠ 1) : devAllGather c d =
    sourcePoison c o.seq x.src x.len (ringOpens c o.seq g (myRank d g) (dataFrames x.group o1.gseq 1 (d.peekPoison x.src x.len) (d.peekBytes x.src x.len))
      (modOp o.seq (fun y => { y with bad := d.peekPoison x.src x.len }) (e.poke (x.dst + myRank d g * x.len) (d.peekBytes x.src x.len)))) := by
  simp only [devAllGather, hnext, hdesc, hbegun, hgroup, if_neg hmany]
  rfl

/-- R341: BROADCAST's root stores and spreads its bytes. -/
theorem devBroadcast_root (hnext : nextColl d 5 = some o) (hroot : myRank d g = x.root) : devBroadcast c d =
    sourcePoison c o.seq x.src x.len (spread c o1 g x (d.peekBytes x.src x.len) (d.peekPoison x.src x.len) e) := by
  simp only [devBroadcast, hnext, hdesc, hbegun, hgroup, if_pos hroot]

/-- R341: another member relays what has come. -/
theorem devBroadcast_member (hnext : nextColl d 5 = some o) (hother : myRank d g ≠ x.root) : devBroadcast c d = broadcastGo c o.seq e := by
  simp only [devBroadcast, hnext, hdesc, hbegun, hgroup, if_neg hother]

end

/-- R362: DOVETAIL arrives at its first barrier and says there whether its descriptor holds. -/
theorem devDovetail_starts (hnext : nextColl d 8 = some o) : devDovetail c d =
    barrierGo c o.seq (modOp o.seq (fun y => { y with selfDone := true, failed := !doveOk d x.group (doveAt d x.aux) })
      (e.modColl (fun m => { m with doveWave := BitVec.ofNat 8 o.stage }))) := by
  simp only [devDovetail, hnext, hdesc, hbegun]

section
variable {f : Dev} (hring : e.modColl (fun m => { m with ring := some (x.dst, x.auxLen) }) = f) (hnext : nextColl d 7 = some o)
include hring hnext

/-- R357: a CLAMP with a result held for it completes. -/
theorem devClamp_completes {r : ClampRec} (hheld : f.coll.heldResult = some r) :
    devClamp c d = endClamp c (some o.seq) (landHeld c x.dst x.auxLen r f) := by
  simp only [devClamp, hnext, hdesc, hbegun, hring, hheld]

/-- R357: without one it gives its loss cell to the run under way, or to a new one. -/
theorem devClamp_joins {run : ClampRun} (hheld : f.coll.heldResult = none) (hrun : f.coll.clamp = some run ∨ f.coll.clamp = none ∧ run = newRun x.group f) :
    devClamp c d = tryPartial c (f.modColl (fun m =>
      { m with clamp := some { run with op := some o.seq, cell := some x.aux }, earlyParts := if m.clamp.isSome then m.earlyParts else [] })) := by
  obtain hrun | ⟨hnone, rfl⟩ := hrun
  · simp only [devClamp, hnext, hdesc, hbegun, hring, hheld, hrun]
  · simp only [devClamp, hnext, hdesc, hbegun, hring, hheld, hnone]

end

end

/-- R341: BARRIER arrives at its barrier. -/
theorem devBarrier_starts {c : Ctl} {d : Dev} {o : CollOp} (hnext : nextColl d 6 = some o) :
    devBarrier c d = barrierGo c o.seq (modOp o.seq (fun y => { y with selfDone := true }) (beginOp o d).2) := by
  simp only [devBarrier, hnext]

end Sys2Proof.Machine

end

section

open Sys2Proof Sys2Proof.Machine

/-- Settles O46: each row is its function, of which the lemmas above say how it starts the operation that `nextColl` chooses and `beginOp` numbers. -/
theorem collectivesStart : Obligations.CollectivesStart := by
  intro s o g hw x b k n
  refine ⟨fun hnext => ?_, fun hgroup hmany => ⟨fun q hq hnext => ?_, fun hnext => ?_⟩, fun hgroup hone q hq hnext => ?_,
    fun hgroup hnext => ⟨fun hroot => ?_, fun hother => ?_⟩, fun hnext => ?_, fun hnext => ⟨fun r hheld => ?_, fun run hheld hrun => ?_⟩, fun hnext => ?_⟩
  · exact onWork_eq (f := devGradSend) hw (devGradSend_starts rfl rfl hnext)
  · exact (exec_reduction hq s).trans (onWork_eq hw (startReduce_ring rfl rfl hgroup hnext hmany))
  · exact onWork_eq (f := devAllGather) hw (devAllGather_ring rfl rfl hgroup hnext hmany)
  · exact (exec_reduction hq s).trans (onWork_eq hw (startReduce_alone rfl rfl hgroup hnext hone))
  · exact onWork_eq (f := devBroadcast) hw (devBroadcast_root rfl rfl hgroup hnext hroot)
  · exact onWork_eq (f := devBroadcast) hw (devBroadcast_member rfl rfl hgroup hnext hother)
  · exact onWork_eq (f := devBarrier) hw (devBarrier_starts hnext)
  · exact onWork_eq (f := devClamp) hw (devClamp_completes rfl rfl rfl hnext hheld)
  · exact onWork_eq (f := devClamp) hw (devClamp_joins rfl rfl rfl hnext hheld hrun)
  · exact onWork_eq (f := devDovetail) hw (devDovetail_starts rfl rfl hnext)

end

section
/-! SUPPORT. The events of upstream port 0, each in the state it acts in (R394, R397, R432). -/

namespace Sys2Proof.Machine

open Sys2Proof

section
variable {c : Ctl} {d : Dev}

/-- R394, R397: the port comes up with an empty host-line filter. -/
theorem devLinkTrained_comesUp (hrole : (d.cxl 0).role = 1) (hdown : d.host.st = .down) (hperst : bitAt c.pins.perst.toNat 0 = true)
    (hstage : 6 ≤ c.boot.stage.toNat) : devLinkTrained c d = { d with host := { d.host with st := .up, filter := [] } } :=
  if_pos ⟨hrole, hdown, hperst, hstage⟩

/-- R394: L0 ends a recovery, counted and raised. -/
theorem devLinkL0_ends (hretraining : d.host.st = .retraining) :
    devLinkL0 c d = raise c { d with host := { d.host with st := .up, retrainCnt := cntInc d.host.retrainCnt } } Fs.hostRetrain 0 :=
  if_pos hretraining

end

section
variable {s : State} (hlive : s.Live) (hopen : s.ctl.pins.perst0Open = true)
include hopen

/-- The pins once the host has moved PERST_N of port 0 to a level. -/
def perst0At (level : Bool) (c : Ctl) : Ctl := { c with pins := { c.pins with perst := BitVec.ofNat 4 (setBit c.pins.perst.toNat 0 level) } }

omit hopen in
theorem bitAt_perst0At (level : Bool) (c : Ctl) : bitAt (perst0At level c).pins.perst.toNat 0 = level :=
  (bitAt_ofNat (n := 4) (by decide) _).trans (by rw [bitAt_setBit, if_pos rfl])

theorem exec_perstN0Release : exec .perstN0Release s = .next (s.withBoth (perst0At true s.ctl) s.here) := by
  change execPerstN0Release s = _
  unfold execPerstN0Release
  refine onAll_eq ?_
  rw [hopen, Bool.true_or]
  rfl

include hlive

/-- R394: PERST_N is a host loss. -/
theorem exec_perstN0Assert : exec .perstN0Assert s = .next (s.withBoth (perst0At false s.ctl) (hostLoss s.ctl s.here)) := by
  change execPerstN0Assert s = _
  unfold execPerstN0Assert
  refine onAll_eq ?_
  rw [if_pos hopen, if_pos hlive]
  rfl

end

end Sys2Proof.Machine

open Sys2Proof Sys2Proof.Machine

/-- Settles O7: each event is its function, in the state in which it acts. -/
theorem upstreamPortEventsAct : Obligations.UpstreamPortEventsAct := by
  intro s hlive
  refine ⟨fun hopen => ?_, fun hopen => ?_, fun _ => ?_, fun hretraining => ?_, fun hrole hdown hperst hstage => ?_, fun hup => ?_, fun hretraining => ?_⟩
  · exact ⟨_, exec_perstN0Release hopen, rfl, bitAt_perst0At _ _⟩
  · exact ⟨_, exec_perstN0Assert hlive hopen, rfl, bitAt_perst0At _ _⟩
  · exact onDev_eq (f := hostLoss) hlive rfl
  · exact onDev_eq (f := fun c d => if d.host.st = .retraining then hostLoss c d else d) hlive (if_pos hretraining)
  · exact onDev_eq (f := devLinkTrained) hlive (devLinkTrained_comesUp (d := s.here) hrole hdown hperst hstage)
  · exact onDev_eq (f := fun _ d => if d.host.st = .up then d.modHost (fun h => { h with st := .retraining }) else d) hlive (if_pos hup)
  · exact onDev_eq (f := devLinkL0) hlive (devLinkL0_ends (d := s.here) hretraining)

end

section
/-! SUPPORT. What comes back to a home (R370, R380, R381): which transaction it moves on, and what a quiet home makes of a writeback and of an eviction. -/

namespace Sys2Proof.Machine

open Sys2Proof

/-- A change of a home is known by what it makes of the home as it is. -/
theorem modHome_congr {d : Dev} {n : Nat} {f g : Home → Home} (h : f (d.home n) = g (d.home n)) : d.modHome n f = d.modHome n g :=
  congrArg (fun x => { d with homes := tabSet {} d.homes n x }) h

section
variable {c : Ctl} {d : Dev} {line : Nat}

/-- A row with no further request in its cycle presents none to the home. -/
@[simp] theorem arriveAll_none (c : Ctl) (line : Nat) (d : Dev) : Dev.arriveAll c line [] d = d := by
  have horder (ptr : Nat) : Dev.byPointer ptr [] = [] := List.flatMap_eq_nil_iff.2 fun _ _ => rfl
  simp only [Dev.arriveAll, List.filter_nil, List.map_nil, horder]

/-! ### Memory's data (R380) -/

/-- R169: the copy of a pseudo-channel that has gone on leaves the homes. -/
@[simp] theorem copyOnRead_homes (line : Nat) (d : Dev) : (copyOnRead line d).homes = d.homes := by
  unfold copyOnRead copyMoves
  split
  · split
    · split <;> rfl
    · rfl
  · rfl

/-- The copy leaves the collector too. -/
@[simp] theorem copyOnRead_fc (line : Nat) (d : Dev) : (copyOnRead line d).fc = d.fc := by
  unfold copyOnRead copyMoves
  split
  · split
    · split <;> rfl
    · rfl
  · rfl

/-- R220: a read outside the unified range is held on no page. -/
theorem holdOnPages_placed {a : Nat} (hrange : rangeOf a ≠ .unified) (n : Nat) : holdOnPages c d a n = (false, d) := by
  have hnone : badPageBlocks d a n = [] := if_pos (.inr (.inl hrange))
  simp [holdOnPages, hnone]

/-- R165: nothing returns from a block that a row repair holds. -/
theorem devMemoryReturn_held {h ecc : Nat} (hheld : readHeld d line = true) : devMemoryReturn h line ecc c d = d := by
  simp [devMemoryReturn, hheld]

/-- R380: memory's data reaches the transaction that waits for it. -/
theorem devMemoryReturn_delivers {h ecc : Nat} {x : Txn} (hworks : d.fc.entering = false) (hfree : readHeld d line = false)
    (hrange : rangeOf (line * 64) ≠ .unified) (hfind : (d.home h).txns.find? (fun t => t.req.line == line && t.st == .tMem) = some x)
    (hgoes : (memoryData c h ecc x (bcCheck c line ecc (copyOnRead line d))).2.fc.entering = false) : devMemoryReturn h line ecc c d =
      deliver c h line x (memoryData c h ecc x (bcCheck c line ecc (copyOnRead line d))).1 (memoryData c h ecc x (bcCheck c line ecc (copyOnRead line d))).2 := by
  have hfind' : ((copyOnRead line d).home h).txns.find? (fun t => t.req.line == line && t.st == .tMem) = some x := by
    rw [Dev.home, copyOnRead_homes]
    exact hfind
  simp only [devMemoryReturn, hfree, hworks, Bool.false_and, Bool.or_self, Bool.false_eq_true, if_false, hfind', holdOnPages_placed hrange, hgoes]

/-! ### Acknowledgements and responses (R380) -/

/-- R380: the GrantAck of a cluster closes the transaction that is granted; then the line's chain goes on. -/
theorem devGrantAck_closes {port : Nat} {x : Txn} (hport : port ≠ 8)
    (hfind : (d.home (homeOfLine line)).txns.find? (fun t => t.req.line == line && t.st == .tAck && t.req.port == port) = some x) :
    devGrantAck port line [] c d =
      Dev.represent c (homeOfLine line) (Dev.runChain c (homeOfLine line) line (Dev.closeTxn (homeOfLine line) x d)) := by
  simp only [devGrantAck, hfind, hport, if_false, arriveAll_none]

/-- R380: a holder's response reaches the transaction that waits for it. -/
theorem respond_txn {agent : Nat} {rsp : SnoopRsp} {l : LineData} {x : Txn}
    (hfind : (d.home (homeOfLine line)).txns.find? (fun t => t.req.line == line && t.waiting.contains agent) = some x) :
    Dev.respond c agent line rsp l d =
      Dev.represent c (homeOfLine line) (Dev.runChain c (homeOfLine line) line (Dev.respondTxn c (homeOfLine line) x agent rsp l d)) := by
  simp only [Dev.respond, hfind]

/-! ### A quiet home (R372, R381) -/

/-- R381: with its buffer empty a home has a credit for every agent. -/
theorem wbRoom_empty {m : Home} (hwb : m.wb = []) (agent : Nat) : Dev.wbRoom m agent = true := by
  simp [Dev.wbRoom, hwb]

/-- R381: a writeback that nothing waits for is buffered. -/
theorem takeWb_buffers {w : Wb} (hquiet : Quiet (d.home (homeOfLine w.line))) :
    Dev.takeWb c w d = d.modHome (homeOfLine w.line) (fun m => { m with wb := m.wb ++ [w] }) := by
  obtain ⟨htxns, -, -, hevicts, -, -⟩ := hquiet
  simp only [Dev.takeWb, htxns, hevicts, List.find?_nil]

/-- R381: a writeback of an agent that is there reaches its quiet home, is buffered, and is applied with the line's chain. -/
theorem devWbdirty_buffers {agent : Nat} {bs : List Byte} (hworks : d.fc.entering = false) (hthere : agent ≠ 8 ∨ hostUp d = true)
    (hquiet : Quiet (d.home (homeOfLine line))) : devWbdirty agent line bs [] c d =
      Dev.represent c (homeOfLine line) (Dev.runChain c (homeOfLine line) line (d.modHome (homeOfLine line) (fun m =>
        { m with wb := m.wb ++ [{ agent := agent, line := line, data :=
          { bytes := (bs ++ List.replicate 64 0).take 64, poison := decide (agent < 8) && (d.cacheLine agent line).data.poison } }] }))) := by
  have hcomes : ((agent == 8 && !hostUp d) || !Dev.wbRoom (d.home (homeOfLine line)) agent) = false := by
    obtain ⟨-, -, hwb, -, -, -⟩ := hquiet
    rw [wbRoom_empty hwb]
    rcases hthere with hcluster | hhost
    · simp [hcluster]
    · simp [hhost]
  simp only [devWbdirty, hworks, hcomes, Bool.false_eq_true, if_false, takeWb_buffers (w := { agent := agent, line := line, data := _ }) hquiet, arriveAll_none]

/-- R372: the host drops a clean line of a quiet home: its entry keeps the other agents. -/
theorem devMemClnEvct_drops {w : Nat} {e : DirEntry} (hquiet : Quiet (d.home (homeOfLine line)))
    (hfind : Dev.dirFind (d.home (homeOfLine line)) line = some (w, e)) (hshared : e.st = .ds) :
    devMemClnEvct line c d = d.modHome (homeOfLine line) (fun m => Dev.putEntry m line (Dev.withoutAgents e [8])) := by
  obtain ⟨htxns, -, -, hevicts, -, -⟩ := hquiet
  refine modHome_congr ?_
  simp only [hfind, hshared, Dev.lineOpen, htxns, hevicts, List.any_nil, Bool.or_self, Bool.false_eq_true, if_false, reduceCtorEq, false_and]

/-! ### A snoop that goes unanswered (R380, R392) -/

section
variable {agent : Nat} {x : Txn} (hmem : x ∈ (d.home (homeOfLine line)).txns) (hline : x.req.line = line) (hwaits : agent ∈ x.waiting)
include hmem hline hwaits

theorem snoop_isOpen : (d.home (homeOfLine line)).txns.any (fun t => t.req.line == line && t.waiting.contains agent) = true :=
  List.any_eq_true.2 ⟨x, hmem, by simp [hline, hwaits]⟩

/-- R380: on a tie the response wins, and the tie is counted. -/
theorem devSnoopTimeout_tie : devSnoopTimeout agent line true c d =
    d.modHome (homeOfLine line) (fun m => { m with timeoutTieCnt := cntInc m.timeoutTieCnt }) := by
  simp only [devSnoopTimeout, snoop_isOpen hmem hline hwaits, Bool.true_or, Bool.not_true, Bool.false_eq_true, if_false, if_true]

/-- R380: the silence of a cluster is raised, with its line and its number. -/
theorem devSnoopTimeout_cluster (hcluster : agent < 8) : devSnoopTimeout agent line false c d =
    raise c d (Fs.cohSnoopTimeout (homeOfLine line)) (line * 64 % 2 ^ 48 + agent * 2 ^ 48) := by
  simp only [devSnoopTimeout, snoop_isOpen hmem hline hwaits, Bool.true_or, Bool.not_true, Bool.false_eq_true, if_false, hcluster, if_true]

end

section
variable {x : Txn} (hmem : x ∈ (d.home (homeOfLine line)).txns) (hline : x.req.line = line) (hwaits : 8 ∈ x.waiting)
include hmem hline hwaits

/-- R380: the silence of the host is a host loss. -/
theorem devSnoopTimeout_host : devSnoopTimeout 8 line false c d = hostLoss c d := by
  simp only [devSnoopTimeout, snoop_isOpen hmem hline hwaits, Bool.true_or, Bool.not_true, Bool.false_eq_true, if_false, Nat.lt_irrefl]

/-- R392: a conflict with a snoop of the host that is outstanding is acknowledged. -/
theorem devBiConflict_acknowledges : devBiConflict line c d = d.emit (.biConflictAck line) := by
  simp only [devBiConflict, snoop_isOpen hmem hline hwaits, Bool.true_or, if_true]

end

end

end Sys2Proof.Machine

open Sys2Proof Sys2Proof.Machine

/-- Settles O49: each row is its function, of which the lemmas above say what it makes of the home where what comes back is waited for, or nothing is. -/
theorem homeEventsAct : Obligations.HomeEventsAct := by
  intro s
  refine ⟨?_, ?_, ?_, ?_, ?_, ?_, ?_, ?_, ?_⟩
  · intro h l ecc x hw hosc hfind hrange hfree r hgoes
    exact ⟨onClocked_eq (f := devMemoryReturn h.val l ecc.val) hw.1 hosc (devMemoryReturn_delivers (d := s.here) hw.2 hfree hrange hfind hgoes), rfl⟩
  · intro h l ecc hw hosc hheld
    exact onClocked_eq (f := devMemoryReturn h.val l ecc.val) hw.1 hosc (devMemoryReturn_held (d := s.here) hheld)
  · intro p l x hw hcluster hfind
    exact onWork_eq (f := devGrantAck p.val l []) hw (devGrantAck_closes (d := s.here) (Fin.val_ne_of_ne hcluster) hfind)
  · intro a l rsp bs bad x hw hfind
    change execSnoopResponse a l rsp bs bad s = _
    exact onWork_eq hw (respond_txn (d := s.here) hfind)
  · intro a l bs hw hosc hthere hquiet
    exact onClocked_eq (f := devWbdirty a.val l bs []) hw.1 hosc
      (devWbdirty_buffers (d := s.here) hw.2 (hthere.imp_left Fin.val_ne_of_ne) hquiet)
  · intro l w e hw hquiet hfind hshared
    exact onWork_eq (f := devMemClnEvct l) hw (devMemClnEvct_drops (d := s.here) hquiet hfind hshared)
  · intro h p v hlive hosc
    refine ⟨fun hopen => ?_, fun hshut => ?_⟩
    · exact onClocked_eq hlive hosc (guardCsr_open (d := s.here) hopen.1 hopen.2)
    · exact onClocked_eq hlive hosc (guardCsr_shut (d := s.here) hshut.1 hshut.2)
  · intro hlive
    exact onDev_eq (f := fun _ d => d.modHost (fun h => { h with orphans := [] })) hlive rfl
  · intro a l x hw hmem hline hwaits
    refine ⟨fun hcluster => ?_, ?_, ?_⟩
    · have ha : a.val < 8 := by have := Fin.val_ne_of_ne hcluster; omega
      exact onWork_eq (f := devSnoopTimeout a.val l false) hw (devSnoopTimeout_cluster (d := s.here) hmem hline hwaits ha)
    · rintro rfl
      exact ⟨onWork_eq (f := devSnoopTimeout 8 l false) hw (devSnoopTimeout_host (d := s.here) hmem hline hwaits),
        onWork_eq (f := devBiConflict l) hw (devBiConflict_acknowledges (d := s.here) hmem hline hwaits)⟩
    · exact onWork_eq (f := devSnoopTimeout a.val l true) hw (devSnoopTimeout_tie (d := s.here) hmem hline hwaits)

end

section
/-! SUPPORT. What the host's snoops, its reads through BAR2, the completions of host memory and configuration requests make of the device (R388 to R395,
R431, R432, R446, R460). -/

namespace Sys2Proof.Machine

open Sys2Proof

/-! ### Snoops of the host (R393) -/

/-- `e` differs from `d` in the clusters' caches, the host port and what is sent, alone. -/
def OnlyHostLines (d e : Dev) : Prop := e = { d with caches := e.caches, host := e.host, out := e.out }

namespace OnlyHostLines

theorem refl (d : Dev) : OnlyHostLines d d := rfl

theorem trans {d e g : Dev} (h : OnlyHostLines d e) (h' : OnlyHostLines e g) : OnlyHostLines d g :=
  Eq.trans h' (congrArg (fun x : Dev => { x with caches := g.caches, host := g.host, out := g.out }) h)

section
variable {d e : Dev} (h : OnlyHostLines d e)
include h

theorem mem : e.mem = d.mem := (congrArg Dev.mem h).trans rfl
theorem homes : e.homes = d.homes := (congrArg Dev.homes h).trans rfl
theorem fc : e.fc = d.fc := (congrArg Dev.fc h).trans rfl

end

end OnlyHostLines

/-- R393: a snoop that a cluster answers changes its line, and the filter where it holds the line no more. -/
theorem hostSnoopOne_onlyHostLines (kind line k : Nat) (r : Dev × SnoopRsp × LineData) : OnlyHostLines r.1 (hostSnoopOne kind line r k).1 := by
  have hset : OnlyHostLines r.1 (if (clusterSnoop kind true (r.1.cacheLine k line)).1.st = .inv
      then filterDrop k line (r.1.setLine k line (clusterSnoop kind true (r.1.cacheLine k line)).1)
      else r.1.setLine k line (clusterSnoop kind true (r.1.cacheLine k line)).1) := by
    split <;> rfl
  unfold hostSnoopOne
  dsimp only
  split <;> exact hset

theorem hostSnoops_onlyHostLines (kind line : Nat) (who : List Nat) (r : Dev × SnoopRsp × LineData) :
    OnlyHostLines r.1 (who.foldl (hostSnoopOne kind line) r).1 :=
  List.foldlRecOn (motive := fun x => OnlyHostLines r.1 x.1) who _ (.refl r.1) fun x hx k _ => hx.trans (hostSnoopOne_onlyHostLines kind line k x)

section
variable {c : Ctl} {d : Dev} {hline kind : Nat}

theorem devHostSnoop_down (hdown : hostUp d = false) : devHostSnoop hline kind c d = d := if_pos (by rw [hdown, Bool.not_false])

theorem devHostSnoop_beyond (hup : hostUp d = true) (hbeyond : deviceLine d hline = none) :
    devHostSnoop hline kind c d = d.emit (.hostSnoop hline .miss {}) := by
  simp only [devHostSnoop, hup, hbeyond, Bool.not_true, Bool.false_eq_true, if_false]

theorem devHostSnoop_unheld {l : Nat} (hup : hostUp d = true) (hl : deviceLine d hline = some l) (hnone : d.host.filter.find? (fun p => p.1 == l) = none) :
    devHostSnoop hline kind c d = d.emit (.hostSnoop hline .miss {}) := by
  simp only [devHostSnoop, hup, hl, hnone, Bool.not_true, Bool.false_eq_true, if_false, List.foldl_nil]

/-- R393: the clusters that the filter names answer for a line. -/
theorem devHostSnoop_asks {l : Nat} {p : Nat × BitVec 8} (hup : hostUp d = true) (hl : deviceLine d hline = some l)
    (hnamed : d.host.filter.find? (fun p => p.1 == l) = some p) {r : Dev × SnoopRsp × LineData}
    (hr : (setBitsOf p.2.toNat 8).foldl (hostSnoopOne kind l) (d, .miss, {}) = r) :
    devHostSnoop hline kind c d = r.1.emit (.hostSnoop hline r.2.1 r.2.2) := by
  subst hr
  simp only [devHostSnoop, hup, hl, hnamed, Bool.not_true, Bool.false_eq_true, if_false]

theorem devHostSnoop_onlyHostLines (hline kind : Nat) (c : Ctl) (d : Dev) : OnlyHostLines d (devHostSnoop hline kind c d) := by
  unfold devHostSnoop
  split
  · exact .refl d
  · split
    · rfl
    · exact (hostSnoops_onlyHostLines kind _ _ (d, .miss, {})).trans rfl

end

/-! ### Reads through BAR2 (R388, R389, R391, R460) -/

/-- `e` differs from `d` in the host port and what is sent, alone. -/
def OnlyHostPort (d e : Dev) : Prop := { e with host := d.host, out := d.out } = d

/-- R388: a line read through BAR2 moves the read-ahead alone. -/
theorem aliasLine_onlyHostPort {d : Dev} {r : Dev × List Byte × Bool} (h : OnlyHostPort d r.1) (line : Nat) : OnlyHostPort d (aliasLine r line).1 := h

theorem aliasLines_onlyHostPort (d : Dev) (ls : List Nat) (bs : List Byte) (bad : Bool) : OnlyHostPort d (ls.foldl aliasLine (d, bs, bad)).1 :=
  List.foldlRecOn (motive := fun x : Dev × List Byte × Bool => OnlyHostPort d x.1) ls aliasLine (b := (d, bs, bad)) rfl fun _ hx line _ => aliasLine_onlyHostPort hx line

/-- R389: with nothing read ahead a line through BAR2 gives memory's bytes. -/
theorem aliasLine_memory {d : Dev} (hnone : d.host.ahead = []) (line : Nat) : (aliasLine (d, [], false) line).2 = ((d.backing line).bytes, (d.backing line).poison) := by
  simp only [aliasLine, hnone, List.find?_nil, List.nil_append, Bool.false_or]

section
variable {c : Ctl} {d : Dev} {a n : Nat}

/-- R391, R431: a part without an upstream port, or halted, answers no read through BAR2. -/
theorem devAlias_unanswered (h : (d.cxl 0).role ≠ 1 ∨ n = 0 ∨ c.boot.failed = true) : devAlias a n c d = d := by
  unfold devAlias devAliasRead
  rw [if_pos h, if_pos h, ite_self]

section
variable (hanswers : ¬((d.cxl 0).role ≠ 1 ∨ n = 0 ∨ c.boot.failed = true))
include hanswers

/-- R460: in the safe state a read through BAR2 answers poison. -/
theorem devAlias_safe (hsafe : d.fc.entering = true) :
    devAlias a n c d = { d.emit (.bytes 8 a (Dev.undefBytes d.free n) true) with free := d.free + 1 } := by
  unfold devAlias
  rw [hsafe, Bool.not_true, if_neg Bool.false_ne_true, if_neg hanswers]

variable (hworks : d.fc.entering = false)
include hworks

/-- R391: one that the decode or the tables refuse answers poison, and is recorded. -/
theorem devAlias_refused (hrefused : (d.spanMapped .hostCls a n && ptPermits c .hostCls 1 a n) = false) : devAlias a n c d =
    raise c { d.emit (.bytes 8 a (Dev.undefBytes d.free n) true) with free := d.free + 1 } Fs.addrDecode (dropInfo a 8 false) := by
  unfold devAlias devAliasRead
  rw [hworks, Bool.not_false, if_pos rfl, if_neg hanswers, hrefused, Bool.not_false, if_pos rfl]

/-- R389: any other reads memory, or the lines read ahead, and records the errors that it meets. -/
theorem devAlias_reads (hmapped : d.spanMapped .hostCls a n = true) (hpermits : ptPermits c .hostCls 1 a n = true) {r : Dev × List Byte × Bool} {bad : List Nat}
    (hr : (Memory.linesOf a n).foldl aliasLine (d, [], false) = r)
    (hbad : (Memory.linesOf a n).filter (fun l => !(d.host.ahead.any (fun p => p.1 == l)) && (d.backing l).poison) = bad) :
    devAlias a n c d = bad.foldl (noteUeLine c) (r.1.emit (.bytes 8 a ((r.2.1.drop (a % 64)).take n) r.2.2)) := by
  subst hr hbad
  unfold devAlias devAliasRead
  rw [hworks, Bool.not_false, if_pos rfl, if_neg hanswers, hmapped, hpermits, Bool.and_self, Bool.not_true, if_neg Bool.false_ne_true]

end

/-! ### Completions of host memory (R387, R395) -/

theorem devHostCompletion_completes {write tie : Bool} {bs : List Byte} {x : HostAcc} (hfind : d.host.flight.find? (fun y => y.write == write) = some x) :
    devHostCompletion write bs tie c d = (if tie then hostLoss c else id) (bankHostAcc x bs (d.modHost (fun h => { h with flight := h.flight.erase x }))) := by
  simp only [devHostCompletion, hfind]
  split <;> rfl

theorem devHostCompletion_none {write tie : Bool} {bs : List Byte} (hfind : d.host.flight.find? (fun y => y.write == write) = none) :
    devHostCompletion write bs tie c d = (if tie then hostLoss c else id) d := by
  simp only [devHostCompletion, hfind]
  split <;> rfl

/-! ### Configuration requests (R431, R432, R446) -/

theorem devConfig_root {write : Bool} {reg : BitVec 12} {v : Nat} (hrole : (d.cxl 0).role ≠ 1) : devConfig write reg v c d = d := if_pos hrole

theorem devConfig_retry {write : Bool} {reg : BitVec 12} {v : Nat} (hrole : (d.cxl 0).role = 1) (hready : c.boot.ready = false) (hfailed : c.boot.failed = false) :
    devConfig write reg v c d = d.emit (.config true reg.toNat) := by
  simp only [devConfig, hrole, hready, hfailed, ne_eq, not_true_eq_false, if_false, Bool.or_self, Bool.not_false, Bool.false_and, Bool.false_eq_true]

/-- R431, R432, R446: once READY, or halted, a request is served, and a write of the capability sets MSI-X Enable. -/
theorem devConfig_served {write : Bool} {reg : BitVec 12} {v : Nat} (hrole : (d.cxl 0).role = 1) (hserved : c.boot.ready = true ∨ c.boot.failed = true) :
    devConfig write reg v c d = if write = true ∧ reg = Config.msixCap then (d.emit (.config false reg.toNat)).modSilkai (fun m => { m with msixEn := bitAt v 31 })
      else d.emit (.config false reg.toNat) := by
  have hserves : (c.boot.ready || c.boot.failed) = true := by simpa using hserved
  simp only [devConfig, hrole, hserves, ne_eq, not_true_eq_false, if_false, Bool.not_true, Bool.true_and, Bool.and_eq_true, beq_iff_eq]

end

end Sys2Proof.Machine

open Sys2Proof Sys2Proof.Machine

/-- Settles O51: each row is its function, of which the lemmas above say what it answers in each state of the port, of boot and of the safe state. -/
theorem hostEventsAct : Obligations.HostEventsAct := by
  intro s
  refine ⟨fun hl kind hw => ?_, fun a n hlive hosc => ?_, fun wr bs hw => ?_, fun wr reg v hlive => ?_⟩
  · have hrow {d : Dev} (h : devHostSnoop hl kind.val s.ctl s.here = d) : exec (.hostH2dSnoop hl kind) s = .next (s.withDev d) := onWork_eq hw h
    have honly := devHostSnoop_onlyHostLines hl kind.val s.ctl s.here
    exact ⟨⟨_, hrow rfl, rfl, rfl, honly.mem, honly.homes, honly.fc⟩, fun hdown => hrow (devHostSnoop_down hdown),
      fun hup hbeyond => hrow (devHostSnoop_beyond hup hbeyond),
      fun l hup hl => ⟨fun hnone => hrow (devHostSnoop_unheld hup hl hnone), fun p hnamed => hrow (devHostSnoop_asks (d := s.here) hup hl hnamed rfl)⟩⟩
  · have hrow {d : Dev} (h : devAlias a.toNat n s.ctl s.here = d) : exec (.aliasRead a n) s = .next (s.withDev d) := onClocked_eq hlive hosc h
    refine ⟨fun hun => hrow (devAlias_unanswered hun), fun hrole hn hboot => ?_⟩
    have hanswers : ¬((s.here.cxl 0).role ≠ 1 ∨ n = 0 ∨ s.ctl.boot.failed = true) := by
      rintro (h | h | h)
      · exact h hrole
      · exact hn h
      · exact Bool.false_ne_true (hboot.symm.trans h)
    refine ⟨fun hsafe => hrow (devAlias_safe hanswers hsafe), fun hworks hrefused => hrow (devAlias_refused hanswers hworks hrefused), ?_⟩
    intro hworks hmapped hpermits r bad
    have hreads := hrow (devAlias_reads hanswers hworks hmapped hpermits (r := r) (bad := bad) rfl rfl)
    refine ⟨hreads, fun hbad => ?_, fun hbad hahead hone => ?_⟩
    · rw [hbad] at hreads
      exact ⟨_, hreads, rfl, rfl, aliasLines_onlyHostPort s.here _ _ _⟩
    · have hline : r = aliasLine (s.here, [], false) (a.toNat / 64) := congrArg (List.foldl aliasLine (s.here, [], false)) hone
      rw [hbad, hline] at hreads
      refine ⟨_, hreads, ?_⟩
      show [OutEvent.bytes 8 a.toNat _ _] = _
      rw [aliasLine_memory (d := s.here) hahead]
  · have hrow {tie : Bool} {d : Dev} (h : devHostCompletion wr bs tie s.ctl s.here = d) : exec (.hostCompletion wr bs tie) s = .next (s.withDev d) :=
      onWork_eq hw h
    refine ⟨?_, fun hnone => ⟨hrow (devHostCompletion_none (d := s.here) hnone), hrow (devHostCompletion_none (d := s.here) hnone)⟩⟩
    intro x hfind d1 d2
    have hd2 : bankHostAcc x bs d1 = d2 := rfl
    exact ⟨hrow ((devHostCompletion_completes (d := s.here) hfind).trans hd2), hrow ((devHostCompletion_completes (d := s.here) hfind).trans (congrArg (hostLoss s.ctl) hd2))⟩
  · have hrow {d : Dev} (h : devConfig wr reg v.toNat s.ctl s.here = d) : exec (.configurationRequest wr reg v) s = .next (s.withDev d) := onDev_eq hlive h
    refine ⟨fun hrole => hrow (devConfig_root hrole), fun hrole hready hfailed => hrow (devConfig_retry hrole hready hfailed),
      fun hrole hserved => ⟨fun hother => ?_, fun hwrite hcap => ?_⟩⟩
    · refine hrow ((devConfig_served (d := s.here) hrole hserved).trans (if_neg ?_))
      rintro ⟨hwrite, hcap⟩
      exact hother.elim (fun h => Bool.false_ne_true (h.symm.trans hwrite)) (fun h => h hcap)
    · exact hrow ((devConfig_served (d := s.here) hrole hserved).trans (if_pos ⟨hwrite, hcap⟩))

end

section
/-! SUPPORT. What a request makes of a home where nothing waits and no cache holds its line (R373, R379, R380, R383): how it arrives, the transaction that it
opens, and what a write leaves in memory. -/

namespace Sys2Proof.Machine

open Sys2Proof

/-- A home changed twice is changed once, by both changes. -/
theorem modHome_modHome (d : Dev) (n : Nat) (f g : Home → Home) : (d.modHome n f).modHome n g = d.modHome n (fun m => g (f m)) :=
  congrArg (fun t => { d with homes := t }) (tabMod_mod d.homes n {} f g)

section
variable {c : Ctl} {d : Dev} {h line : Nat}

/-! ### With nothing waiting a home rests -/

/-- R380: a chain that no request is in does not go on, and with no writeback buffered none is applied. -/
theorem runChain_rests (hchain : (d.home h).chain = []) (hwb : (d.home h).wb = []) : Dev.runChain c h line d = d := by
  simp only [Dev.runChain, hchain, Dev.settle, List.find?_nil, hwb, List.filter_nil, List.foldl_nil, ite_self]

/-- R374: with nothing in the overflow queue or at the ingress nothing is presented again. -/
theorem represent_rests (hoverflow : (d.home h).overflow = []) (hingress : (d.home h).ingress = []) : Dev.represent c h d = d := by
  simp only [Dev.represent, hoverflow, hingress, List.foldl_nil]

/-! ### A request arrives (R382) -/

/-- One value for each element that passes a test: as often as elements pass. -/
theorem flatMap_ite_singleton {α β : Type} (p : α → Bool) (b : β) (l : List α) :
    l.flatMap (fun x => if p x then [b] else []) = List.replicate (l.countP p) b := by
  induction l with
  | nil => rfl
  | cons x l ih =>
    rw [List.flatMap_cons, ih, List.countP_cons]
    split <;> simp [List.replicate_succ]

/-- The rotating pointer passes each port once. -/
theorem countP_pointer (ptr port : Fin 16) : (List.range 16).countP (fun i => port.val == (ptr.val + i) % 16) = 1 := by
  revert ptr port
  decide

/-- R382: a request alone in its cycle is taken once, wherever the pointer stands. -/
theorem byPointer_one {ptr : Nat} {r : Req} (hptr : ptr < 16) (hport : r.port < 16) : Dev.byPointer ptr [r] = [r] := by
  have hone (i : Nat) : [r].filter (fun x => x.port == (ptr + i) % 16) = if r.port == (ptr + i) % 16 then [r] else [] := by
    rw [List.filter_cons, List.filter_nil]
  simp only [Dev.byPointer, hone, flatMap_ite_singleton]
  rw [countP_pointer ⟨ptr, hptr⟩ ⟨r.port, hport⟩]
  rfl

/-- A home whose pointer has passed a port. -/
def pointPast (port : Nat) (m : Home) : Home := { m with ptr := BitVec.ofNat 4 (port + 1) }

/-- R382: a request alone in its cycle arrives, and the pointer passes its port. -/
theorem arriveAll_one {r : Req} (hport : r.port < 16) (hmay : portMay r.port r.kind = true) :
    Dev.arriveAll c r.line [r] d = Dev.arrive c r (d.modHome (homeOfLine r.line) (pointPast r.port)) := by
  have horder : Dev.byPointer (d.home (homeOfLine r.line)).ptr.toNat (([r].filter (fun r => portMay r.port r.kind)).map (fun x => { x with line := r.line })) = [r] := by
    rw [List.filter_cons, if_pos hmay, List.filter_nil]
    exact byPointer_one (BitVec.isLt _) hport
  simp only [Dev.arriveAll, horder]
  rfl

/-- R57, R366, R436: a request that exists and is permitted is admitted. -/
theorem arrive_admits {r : Req} (hmay : portMay r.port r.kind = true) (hfailed : (c.boot.failed && r.port == 8) = false) (harr : arrives d r.port = true)
    (hworks : d.fc.entering = false) (hcoh : coherent (r.line * 64) = true) (hmapped : d.spanMapped (portAsker r.port) (r.line * 64) 64 = true)
    (hpermits : ptPermits c (portAsker r.port) (reqAccess r) (r.line * 64) 64 = true) : Dev.arrive c r d = Dev.admitReq c r d := by
  rw [Bool.and_comm] at hfailed
  simp only [Dev.arrive, hmay, hfailed, harr, hworks, hcoh, hmapped, hpermits, Bool.not_true, Bool.or_self, Bool.and_self, Bool.false_eq_true, false_and, if_false]

/-- R380: at a home where nothing waits a request for a placed line is resolved. -/
theorem admitReq_starts {r : Req} (hrange : rangeOf (r.line * 64) ≠ .unified) (hfree : readHeld d r.line = false) (hquiet : Quiet (d.home (homeOfLine r.line))) :
    Dev.admitReq c r d = Dev.runChain c (homeOfLine r.line) r.line (Dev.startReq c (homeOfLine r.line) r d) := by
  obtain ⟨htxns, hchain, -, hevicts, -, -⟩ := hquiet
  have hpage : Dev.waitsPage d r = false := by simp [Dev.waitsPage, hrange]
  have hreads : d.noteReads (r.line * 64) 64 = d := if_pos (.inr hrange)
  simp only [Dev.admitReq, hpage, hfree, hreads, ite_self, Dev.lineOpen, htxns, hchain, hevicts, List.any_nil, Bool.or_self, Bool.false_eq_true, if_false]

/-- Neither a request nor a writeback waits at a home; transactions may be open. -/
abbrev NothingWaits (m : Home) : Prop := m.chain = [] ∧ m.wb = [] ∧ m.overflow = [] ∧ m.ingress = []

/-- The device as an admitted request finds it: the pointer of its home has passed its port. -/
def received (s : State) (r : Req) : Dev := s.here.modHome (homeOfLine r.line) (pointPast r.port)

theorem received_home (s : State) (r : Req) : (received s r).home (homeOfLine r.line) = pointPast r.port (s.dev.home (homeOfLine r.line)) :=
  Dev.home_modHome_same _ _ _

theorem received_quiet {s : State} {r : Req} (hquiet : Quiet (s.dev.home (homeOfLine r.line))) : Quiet ((received s r).home (homeOfLine r.line)) := by
  rw [received_home]
  exact hquiet

theorem received_noEntry {s : State} {r : Req} (hnone : Dev.dirFind (s.dev.home (homeOfLine r.line)) r.line = none) :
    Dev.dirFind ((received s r).home (homeOfLine r.line)) r.line = none := by
  rw [received_home]
  exact hnone

/-- A request at a quiet home leaves what its start leaves, where that leaves nothing waiting. -/
theorem devRequests_one {s : State} {r : Req} {e : Dev} (hadm : Admitted s r) (hport : r.port < 16) (hquiet : Quiet (s.dev.home (homeOfLine r.line)))
    (hstart : Dev.startReq s.ctl (homeOfLine r.line) r (received s r) = e) (hrests : NothingWaits (e.home (homeOfLine r.line))) :
    devRequests r.line [r] s.ctl s.here = e := by
  obtain ⟨-, -, hworks, hfailed, harr, hfree, hmay, hcoh, hrange, hmapped, hpermits⟩ := hadm
  obtain ⟨hchain, hwb, hoverflow, hingress⟩ := hrests
  have harrives := arrive_admits (d := received s r) hmay hfailed harr hworks hcoh hmapped hpermits
  have hstarts := admitReq_starts (c := s.ctl) (d := received s r) hrange hfree (received_quiet hquiet)
  rw [devRequests, arriveAll_one hport hmay, ← received, harrives, hstarts, hstart, runChain_rests hchain hwb, represent_rests hoverflow hingress]

/-! ### Its way in the directory (R373) -/

/-- An entry that is put is in the table. -/
theorem mem_tabPut_self {α : Type} (t : Tab α) (k : Nat) (v : α) : (k, v) ∈ tabPut t k v := by
  unfold tabPut
  induction tabDel t k with
  | nil => simp [tabIns]
  | cons p t ih =>
    unfold tabIns
    split
    · simp
    · simp [ih]

/-- The entry that a line without one is given. -/
def newEntry (line : Nat) : DirEntry := { line := line, st := .ds }

/-- A home whose directory has given a way to a line. -/
def withEntry (w line : Nat) (m : Home) : Home := { m with dir := tabPut m.dir w (newEntry line) }

/-- The entry given to a line that the directory does not list is the one found for it. -/
theorem dirFind_withEntry {m : Home} (hnone : Dev.dirFind m line = none) (w : Nat) : Dev.dirFind (withEntry w line m) line = some (w, newEntry line) := by
  cases hfind : Dev.dirFind (withEntry w line m) line with
  | none => exact absurd (List.find?_eq_none.1 hfind (w, newEntry line) (mem_tabPut_self m.dir w _)) (by simp [newEntry])
  | some p =>
    have hp : p.2.line = line := by simpa using List.find?_some hfind
    rcases mem_tabIns _ w (newEntry line) p (List.mem_of_find?_eq_some hfind) with rfl | hold
    · rfl
    · exact absurd (List.find?_eq_none.1 hnone p (List.mem_filter.1 hold).1) (by simp [hp])

/-- An entry put twice at a way is put once. -/
theorem tabPut_put {α : Type} (t : Tab α) (k : Nat) (v w : α) : tabPut (tabPut t k v) k w = tabPut t k w := by
  rw [tabPut, tabPut, tabDel_ins, tabDel_del]
  rfl

/-- R373: where a way is FREE a line without an entry takes one. -/
theorem allocEntry_free (hway : (Dev.setWays (d.home h) line).any (fun w => w.2.isNone) = true) :
    ∃ w, Dev.allocEntry h line d = d.modHome h (withEntry w line) := by
  obtain ⟨p, hp⟩ : ∃ p, (Dev.setWays (d.home h) line).find? (fun p => p.2.isNone) = some p :=
    Option.isSome_iff_exists.1 (List.find?_isSome.2 (List.any_eq_true.1 hway))
  refine ⟨p.1, ?_⟩
  simp only [Dev.allocEntry, Dev.pickWay, hp]
  exact modHome_congr rfl

/-! ### Its start (R373, R380) -/

/-- R379: a request that leaves no entry behind opens its transaction. -/
theorem startReq_untracked {r : Req} (hquiet : Quiet (d.home h)) (hentry : Dev.needsEntry r.kind = false) :
    Dev.startReq c h r d = Dev.openTxn c h r none d := by
  obtain ⟨htxns, -, hwb, -, -, -⟩ := hquiet
  simp [Dev.startReq, htxns, hwb, hentry]

/-- R373: a caching request takes a FREE way, then opens its transaction. -/
theorem startReq_allocates {r : Req} (hquiet : Quiet (d.home h)) (hentry : Dev.needsEntry r.kind = true) (hnone : Dev.dirFind (d.home h) r.line = none)
    (hway : (Dev.setWays (d.home h) r.line).any (fun w => w.2.isNone) = true) :
    ∃ w, Dev.startReq c h r d = Dev.openTxn c h r none (d.modHome h (withEntry w r.line)) := by
  obtain ⟨htxns, -, hwb, -, -, -⟩ := hquiet
  obtain ⟨w, hw⟩ := allocEntry_free hway
  have hroom : Dev.canAlloc (d.home h) r.line = true := by rw [Dev.canAlloc, hway, Bool.true_or]
  refine ⟨w, ?_⟩
  rw [← hw]
  simp [Dev.startReq, htxns, hwb, hentry, hnone, hroom]

/-- The entry of a line that a request reads: recently used. -/
def markUsed (line : Nat) (m : Home) : Home :=
  match Dev.dirFind m line with
  | some p => Dev.putEntry m line (some { p.2 with nru := true })
  | none => m

/-- A new entry is recently used as it is. -/
theorem markUsed_withEntry {m : Home} (hnone : Dev.dirFind m line = none) (w : Nat) : markUsed line (withEntry w line m) = withEntry w line m := by
  simp only [markUsed, dirFind_withEntry hnone w, Dev.putEntry]
  exact congrArg (fun t => { m with dir := t }) (tabPut_put m.dir w (newEntry line) (newEntry line))

/-- The transaction of a request for a line that no agent holds: an Upgrade is handled as RdOwn (R383). -/
def newTxn (r : Req) : Txn := { req := r, st := .tSnp, asOwn := r.kind == .upgrade }

/-- A home with a request's transaction opened, an Upgrade handled as RdOwn counted. -/
def opened (r : Req) (m : Home) : Home := { m with txns := m.txns ++ [newTxn r], upgRdownCnt := cntIf (r.kind == .upgrade) m.upgRdownCnt }

/-- R379, R380: where no agent holds the line, nobody is snooped. -/
theorem openTxn_unsnooped {r : Req} (hbefore : d.entryBefore h r.line = none) (hused : markUsed r.line (d.home h) = d.home h) :
    Dev.openTxn c h r none d = Dev.advance c h (newTxn r) (d.modHome h (opened r)) := by
  have hown : (r.kind == .upgrade && !Dev.mayUpgrade none r.port) = (r.kind == .upgrade) := Bool.and_true _
  have hopened : d.modHome h (fun m => { markUsed r.line m with
      txns := (markUsed r.line m).txns ++ [newTxn r], upgRdownCnt := cntIf (r.kind == .upgrade) (markUsed r.line m).upgRdownCnt }) = d.modHome h (opened r) := by
    refine modHome_congr ?_
    rw [hused]
    rfl
  rw [← hopened]
  simp only [Dev.openTxn, hbefore, hown, Dev.planOf, List.isEmpty_nil, if_true]
  rfl

/-- R379: a line without an entry. -/
theorem openTxn_noEntry {r : Req} (hnone : Dev.dirFind (d.home h) r.line = none) :
    Dev.openTxn c h r none d = Dev.advance c h (newTxn r) (d.modHome h (opened r)) := by
  refine openTxn_unsnooped ?_ ?_
  · simp only [Dev.entryBefore, hnone]
  · simp only [markUsed, hnone]

/-- R373: a line with an entry that names no agent yet. -/
theorem openTxn_newEntry {r : Req} (hnone : Dev.dirFind (d.home h) r.line = none) (w : Nat) :
    Dev.openTxn c h r none (d.modHome h (withEntry w r.line)) =
      Dev.advance c h (newTxn r) (d.modHome h (fun m => opened r (withEntry w r.line m))) := by
  have hfind := dirFind_withEntry hnone w
  rw [← modHome_modHome d h (withEntry w r.line) (opened r)]
  refine openTxn_unsnooped ?_ ?_
  · simp only [Dev.entryBefore, Dev.home_modHome_same, hfind]
    rfl
  · rw [Dev.home_modHome_same]
    exact markUsed_withEntry hnone w

/-! ### It waits for memory (R380) -/

/-- R152: the state of the near tier is none of the homes'. -/
theorem OnlyNear.home {d e : Dev} (h : OnlyNear d e) (n : Nat) : e.home n = d.home n := (congrArg (Dev.home · n) h).trans rfl
theorem OnlyNear.mem {d e : Dev} (h : OnlyNear d e) : e.mem = d.mem := (congrArg Dev.mem h).trans rfl
theorem OnlyNear.caches {d e : Dev} (h : OnlyNear d e) : e.caches = d.caches := (congrArg Dev.caches h).trans rfl
theorem OnlyNear.out {d e : Dev} (h : OnlyNear d e) : e.out = d.out := (congrArg Dev.out h).trans rfl

/-- A home where one transaction is open, which waits for memory. -/
def waitsMemory (r : Req) (m : Home) : Home :=
  { m with txns := [{ newTxn r with st := .tMem }], upgRdownCnt := cntIf (r.kind == .upgrade) m.upgRdownCnt }

/-- R152, R380: a transaction that needs data of memory waits for it; its read is queued. -/
theorem advance_waitsMemory {t : Txn} (hdirty : t.dirty = none) (hevicting : t.evicting = []) (hdata : Dev.needsData t = true) :
    OnlyNear (Dev.modTxn h t.req.line (fun _ => { t with st := .tMem }) d) (Dev.advance c h t d) := by
  simp only [Dev.advance, hdirty, Option.isSome_none, Dev.evictedWb, hevicting, List.isEmpty_nil, if_true, Bool.not_true, Bool.false_eq_true, if_false, hdata]
  split
  · exact .ite (.refl _) (queueRead_onlyNear _ _)
  · exact .refl _

/-- A transaction opened at a home with none open, which needs data of memory, is the one that waits for it. -/
theorem advance_newTxn_waits {r : Req} {f : Home → Home} (htxns : (f (d.home h)).txns = []) (hdata : Dev.needsData (newTxn r) = true) :
    OnlyNear (d.modHome h (fun m => waitsMemory r (f m))) (Dev.advance c h (newTxn r) (d.modHome h (fun m => opened r (f m)))) := by
  have hwaits : Dev.modTxn h r.line (fun _ => { newTxn r with st := .tMem }) (d.modHome h (fun m => opened r (f m))) = d.modHome h (fun m => waitsMemory r (f m)) := by
    rw [Dev.modTxn, modHome_modHome]
    refine modHome_congr ?_
    simp only [opened, htxns, List.nil_append, List.map_cons, List.map_nil, newTxn, if_true, waitsMemory]
  rw [← hwaits]
  exact advance_waitsMemory rfl rfl hdata

/-! ### It writes (R155, R379, R380) -/

/-- What a write of bytes at an address leaves of a device: memory, where the bytes stand, and the near tier's own state change alone. -/
structure StoresBytes (a : Nat) (bs : List Byte) (d e : Dev) : Prop where
  dev : e = { d with mem := e.mem, near := e.near }
  byte : ∀ era q, e.mem.byte era q = if a ≤ q ∧ q < a + bs.length then bs.getD (q - a) 0 else d.mem.byte era q

/-- R152, R155: a line of the near tier is stored where it lies. -/
theorem storeLine_near (hnear : rangeOf (line * 64) = .near) (l : LineData) : StoresBytes (line * 64) (l.bytes.take 64) d (d.storeLine line l) := by
  have hplace : d.place (line * 64) = some (line * 64) := by simp only [Dev.place, hnear]
  have hclean : d.dirtyPage (line * 64) = d := by simp only [Dev.dirtyPage, hnear]
  have hstored := stackWrite_onlyNear (line * 64 / 64) (d.memPut (line * 64) (l.bytes.take 64))
  have hbyte (era : Nat × Nat) (q : Nat) : (stackWrite (line * 64 / 64) (d.memPut (line * 64) (l.bytes.take 64))).mem.byte era q = _ :=
    (congrArg (Memory.byte · era q) hstored.mem).trans (Memory.byte_put d.mem era (line * 64) q (l.bytes.take 64))
  have hdev : stackWrite (line * 64 / 64) (d.memPut (line * 64) (l.bytes.take 64)) =
      { d with mem := (stackWrite (line * 64 / 64) (d.memPut (line * 64) (l.bytes.take 64))).mem,
               near := (stackWrite (line * 64 / 64) (d.memPut (line * 64) (l.bytes.take 64))).near } := by
    rw [hstored.mem]
    exact hstored
  simp only [Dev.storeLine, hplace, hclean]
  split
  · exact ⟨congrArg (fun x : Dev => { x with mem := x.mem.poisonLine (line * 64 / 64) }) hdev, hbyte⟩
  · exact ⟨hdev, hbyte⟩

/-- R155: bytes merged into a whole line. -/
theorem mergeLine_bytes {l : LineData} {off : Nat} {bs : List Byte} (hl : l.bytes.length = 64) (hin : off + bs.length ≤ 64) :
    (mergeLine l off bs).bytes = l.bytes.take off ++ bs ++ l.bytes.drop (off + bs.length) := by
  have hall : bs.take (64 - off) = bs := List.take_of_length_le (by omega)
  rw [mergeLine, hall]
  exact List.take_of_length_le (by simp; omega)

/-- The bytes that a write of part of a line leaves in it. -/
def lineAfter (off : Nat) (bs : List Byte) (old : Nat → Byte) : List Byte :=
  (List.range 64).map (fun i => if off ≤ i ∧ i < off + bs.length then bs.getD (i - off) 0 else old i)

/-- R155: bytes merged into a line leave its other bytes. -/
theorem mergeLine_lineAfter {l : LineData} {off : Nat} {bs : List Byte} {old : Nat → Byte} (hl : l.bytes = (List.range 64).map old) (hin : off + bs.length ≤ 64) :
    (mergeLine l off bs).bytes = lineAfter off bs old := by
  have hlen : l.bytes.length = 64 := by rw [hl, List.length_map, List.length_range]
  have hbefore : (l.bytes.take off).length = off := by rw [List.length_take, hlen]; omega
  have hupto : (l.bytes.take off ++ bs).length = off + bs.length := by rw [List.length_append, hbefore]
  have hold (i : Nat) (hi : i < l.bytes.length) : l.bytes[i] = old i := by simp only [hl, List.getElem_map, List.getElem_range]
  rw [mergeLine_bytes hlen hin, lineAfter]
  apply List.ext_getElem
  · rw [List.length_append, hupto, List.length_drop, hlen, List.length_map, List.length_range]
    omega
  · intro i h1 h2
    have hi : i < 64 := by rwa [List.length_map, List.length_range] at h2
    rw [List.getElem_map, List.getElem_range]
    by_cases hlow : i < off
    · rw [if_neg (by omega), List.getElem_append_left (by omega), List.getElem_append_left (by omega), List.getElem_take, hold]
    · by_cases hmid : i < off + bs.length
      · rw [if_pos ⟨by omega, hmid⟩, List.getElem_append_left (by omega), List.getElem_append_right (by omega), List.getD_eq_getElem?_getD,
          List.getElem?_eq_getElem (by omega), Option.getD_some]
        simp only [hbefore]
      · rw [if_neg (by omega), List.getElem_append_right (by omega), List.getElem_drop, hold]
        exact congrArg old (by omega)

theorem lineAfter_whole {bs : List Byte} (hlen : bs.length = 64) (old : Nat → Byte) : lineAfter 0 bs old = bs := by
  apply List.ext_getElem
  · simp [lineAfter, hlen]
  · intro i h1 h2
    simp [lineAfter, h2]

/-- R379: what a write of a whole line, or of part of it, leaves in the line. -/
theorem writtenLine_bytes {r : Req} (hwrites : r.kind = .wrFull ∧ r.off = 0 ∧ r.data.length = 64 ∨ r.kind = .wrPart) (hin : r.off + r.data.length ≤ 64)
    (hnear : rangeOf (r.line * 64) = .near) :
    ((Dev.writtenLine d (newTxn r)).bytes.take 64) = lineAfter r.off r.data (fun i => d.mem.byte d.era (r.line * 64 + i)) := by
  rcases hwrites with ⟨hkind, hoff, hlen⟩ | hkind
  · have hwhole : (r.data ++ List.replicate 64 0).take 64 = r.data := by rw [List.take_append_of_le_length (by omega), List.take_of_length_le (by omega)]
    have hdata : (Dev.writtenLine d (newTxn r)).bytes = r.data := by
      simp only [Dev.writtenLine, newTxn, hkind]
      exact hwhole
    rw [hdata, hoff, lineAfter_whole hlen, List.take_of_length_le (by omega)]
  · have hplace : d.place (r.line * 64) = some (r.line * 64) := by simp only [Dev.place, hnear]
    have htable : d.inTable (r.line * 64) = false := by simp only [Dev.inTable, hnear]
    have hold : (d.backing r.line).bytes = (List.range 64).map (fun i => d.mem.byte d.era (r.line * 64 + i)) := by
      simp only [Dev.backing, hplace, Dev.memLine, htable, Bool.false_eq_true, if_false]
      rfl
    have hmerged : (Dev.writtenLine d (newTxn r)).bytes = (mergeLine (d.backing r.line) r.off r.data).bytes := by
      simp only [Dev.writtenLine, newTxn, hkind]
      rfl
    rw [hmerged, mergeLine_lineAfter hold hin]
    exact List.take_of_length_le (by simp [lineAfter])

/-- Bytes of a line read back: those written where they are, elsewhere the old ones. -/
theorem lineAfter_getD {off : Nat} {bs : List Byte} {old : Nat → Byte} {i : Nat} (hi : i < 64) :
    (lineAfter off bs old).getD i 0 = if off ≤ i ∧ i < off + bs.length then bs.getD (i - off) 0 else old i := by
  simp [lineAfter, List.getD_eq_getElem?_getD, hi]

/-- R380: a write of a near line reaches T_ACK: the line is stored and the write acknowledged. -/
theorem toAck_write {t : Txn} (hwrites : t.req.kind = .wrFull ∨ t.req.kind = .wrPart) (hnear : rangeOf (t.req.line * 64) = .near) (hport : t.req.port ≠ 16) :
    Dev.toAck c h t d = Dev.closeTxn h t ((d.storeLine t.req.line (Dev.writtenLine d t)).emit (.ack t.req.port t.req.line)) := by
  rcases hwrites with hkind | hkind <;>
    simp [Dev.toAck, hkind, Dev.needsEntry, Dev.homeStore, hnear, hport]

/-- R379: a write leaves no entry; where there was none, its transaction leaves, no more. -/
theorem closeTxn_write {t : Txn} (hwrites : t.req.kind = .wrFull ∨ t.req.kind = .wrPart) (hnone : Dev.dirFind (d.home h) t.req.line = none) :
    Dev.closeTxn h t d = d.modHome h (fun m => { m with txns := m.txns.filter (fun x => x.req.line != t.req.line) }) := by
  have hnext (e : Option DirEntry) : Dev.nextEntry e t = none := by
    rcases hwrites with hkind | hkind <;> simp only [Dev.nextEntry, hkind]
  have hnone' : Dev.dirFind { d.home h with txns := (d.home h).txns.filter (fun x => x.req.line != t.req.line) } t.req.line = none := hnone
  refine modHome_congr ?_
  simp only [hnext, Dev.putEntry, hnone']

/-- What the write `r` of a near line leaves of a device: its home changed by `f`, the bytes in memory, and the acknowledgement sent. -/
structure AcksWrite (r : Req) (f : Home → Home) (d e : Dev) : Prop where
  dev : e = { d.modHome (homeOfLine r.line) f with mem := e.mem, near := e.near, out := d.out ++ [.ack r.port r.line] }
  byte : ∀ q, e.mem.byte d.era q = if r.line * 64 + r.off ≤ q ∧ q < r.line * 64 + r.off + r.data.length then r.data.getD (q - (r.line * 64 + r.off)) 0
    else d.mem.byte d.era q

theorem AcksWrite.home {r : Req} {f : Home → Home} {d e : Dev} (h : AcksWrite r f d e) : e.home (homeOfLine r.line) = f (d.home (homeOfLine r.line)) :=
  (congrArg (Dev.home · (homeOfLine r.line)) h.dev).trans (Dev.home_modHome_same d _ f)

/-- A write of a near line: of all of it, or of a part. -/
abbrev WritesNear (r : Req) : Prop :=
  (r.kind = .wrFull ∧ r.off = 0 ∧ r.data.length = 64 ∨ r.kind = .wrPart) ∧ r.off + r.data.length ≤ 64 ∧ rangeOf (r.line * 64) = .near ∧ r.port < 16

/-- The line that a write stores differs from what memory held in the bytes written alone. -/
theorem StoresBytes.lineAfter {off a : Nat} {bs : List Byte} {era : Nat × Nat} {d e : Dev}
    (h : StoresBytes a (lineAfter off bs (fun i => d.mem.byte era (a + i))) d e) (hin : off + bs.length ≤ 64) (q : Nat) :
    e.mem.byte era q = if a + off ≤ q ∧ q < a + off + bs.length then bs.getD (q - (a + off)) 0 else d.mem.byte era q := by
  rw [h.byte, show (Machine.lineAfter off bs (fun i => d.mem.byte era (a + i))).length = 64 by simp [Machine.lineAfter]]
  by_cases hline : a ≤ q ∧ q < a + 64
  · rw [if_pos hline, lineAfter_getD (by omega), show q - a - off = q - (a + off) by omega, show a + (q - a) = q by omega]
    exact ite_congr (propext (by omega)) (fun _ => rfl) (fun _ => rfl)
  · rw [if_neg hline, if_neg (by omega)]

/-- A home without the transactions of a line. -/
def withoutTxns (line : Nat) (m : Home) : Home := { m with txns := m.txns.filter (fun x => x.req.line != line) }

/-- R379, R380: a write for a line without an entry is served: stored, acknowledged, its transaction gone. -/
theorem toAck_acksWrite {r : Req} (hwrite : WritesNear r) (hnone : Dev.dirFind (d.home (homeOfLine r.line)) r.line = none) :
    AcksWrite r (withoutTxns r.line) d (Dev.toAck c (homeOfLine r.line) (newTxn r) d) := by
  obtain ⟨hkinds, hin, hnear, hport⟩ := hwrite
  have hwrites : r.kind = .wrFull ∨ r.kind = .wrPart := hkinds.imp_left And.left
  have hstores := storeLine_near (d := d) hnear (Dev.writtenLine d (newTxn r))
  rw [writtenLine_bytes hkinds hin hnear] at hstores
  rw [toAck_write (t := newTxn r) hwrites hnear (Nat.ne_of_lt hport)]
  change AcksWrite r _ d (Dev.closeTxn (homeOfLine r.line) (newTxn r) ((d.storeLine r.line (Dev.writtenLine d (newTxn r))).emit (.ack r.port r.line)))
  generalize d.storeLine r.line (Dev.writtenLine d (newTxn r)) = e at hstores ⊢
  have hstill : Dev.dirFind ((e.emit (.ack r.port r.line)).home (homeOfLine r.line)) r.line = none :=
    (congrArg (fun x : Dev => Dev.dirFind (x.home (homeOfLine r.line)) r.line) hstores.dev).trans hnone
  rw [closeTxn_write (t := newTxn r) hwrites hstill]
  exact ⟨congrArg (fun x : Dev => (x.emit (.ack r.port r.line)).modHome (homeOfLine r.line) (withoutTxns r.line)) hstores.dev, hstores.lineAfter hin⟩

/-- A write to a device whose home has been changed before. -/
theorem AcksWrite.modHome {r : Req} {f g : Home → Home} {d e : Dev} (h : AcksWrite r g (d.modHome (homeOfLine r.line) f) e) :
    AcksWrite r (fun m => g (f m)) d e := by
  refine ⟨?_, h.byte⟩
  rw [← modHome_modHome]
  exact h.dev

/-- R380: a write needs neither a holder's data nor memory's. -/
theorem advance_write {r : Req} (hwrites : r.kind = .wrFull ∨ r.kind = .wrPart) : Dev.advance c h (newTxn r) d = Dev.toAck c h (newTxn r) d := by
  have hneeds : Dev.needsData (newTxn r) = false := by
    rcases hwrites with hkind | hkind <;> simp only [Dev.needsData, newTxn, hkind]
  have hdirty : (newTxn r).dirty = none := rfl
  have hevicting : (newTxn r).evicting = [] := rfl
  simp only [Dev.advance, hdirty, Option.isSome_none, Dev.evictedWb, hevicting, List.isEmpty_nil, if_true, Bool.not_true, Bool.false_eq_true, if_false, hneeds]

end

/-! ### The requests at a quiet home -/

section
variable {s : State} {r : Req} (hadm : Admitted s r) (hport : r.port < 16) (hquiet : Quiet (s.dev.home (homeOfLine r.line)))
include hadm hport hquiet

/-- A request whose transaction waits for memory leaves its home so. -/
theorem devRequests_waits {f : Home → Home} (hdata : Dev.needsData (newTxn r) = true)
    (hstart : Dev.startReq s.ctl (homeOfLine r.line) r (received s r) =
      Dev.advance s.ctl (homeOfLine r.line) (newTxn r) ((received s r).modHome (homeOfLine r.line) (fun m => opened r (f m))))
    (hsame : Quiet (f (pointPast r.port (s.dev.home (homeOfLine r.line))))) :
    OnlyNear (s.here.modHome (homeOfLine r.line) (fun m => waitsMemory r (f (pointPast r.port m)))) (devRequests r.line [r] s.ctl s.here) := by
  obtain ⟨htxns, hchain, hwb, -, hoverflow, hingress⟩ := hsame
  have hwaits := advance_newTxn_waits (c := s.ctl) (d := received s r) (h := homeOfLine r.line) (f := f) (by rw [received_home, htxns]) hdata
  rw [← hstart, received, modHome_modHome, ← received] at hwaits
  have hhome := (hwaits.home (homeOfLine r.line)).trans (Dev.home_modHome_same _ _ _)
  rw [devRequests_one hadm hport hquiet rfl (hhome ▸ ⟨hchain, hwb, hoverflow, hingress⟩)]
  exact hwaits

variable (hnone : Dev.dirFind (s.dev.home (homeOfLine r.line)) r.line = none)
include hnone

/-- R379, R380: a caching request takes an entry and waits for memory. -/
theorem devRequests_caching (hway : (Dev.setWays (s.dev.home (homeOfLine r.line)) r.line).any (fun w => w.2.isNone) = true)
    (hentry : Dev.needsEntry r.kind = true) (hdata : Dev.needsData (newTxn r) = true) :
    ∃ w, OnlyNear (s.here.modHome (homeOfLine r.line) (fun m => waitsMemory r (withEntry w r.line (pointPast r.port m)))) (devRequests r.line [r] s.ctl s.here) := by
  have hfree : (Dev.setWays ((received s r).home (homeOfLine r.line)) r.line).any (fun w => w.2.isNone) = true := by
    rw [received_home]
    exact hway
  obtain ⟨w, hstart⟩ := startReq_allocates (c := s.ctl) (received_quiet hquiet) hentry (received_noEntry hnone) hfree
  exact ⟨w, devRequests_waits hadm hport hquiet hdata (hstart.trans (openTxn_newEntry (received_noEntry hnone) w)) hquiet⟩

/-- R379, R380: a read that leaves no copy, or an atomic, waits for memory without an entry. -/
theorem devRequests_uncaching (hentry : Dev.needsEntry r.kind = false) (hdata : Dev.needsData (newTxn r) = true) :
    OnlyNear (s.here.modHome (homeOfLine r.line) (fun m => waitsMemory r (pointPast r.port m))) (devRequests r.line [r] s.ctl s.here) :=
  devRequests_waits (f := id) hadm hport hquiet hdata
    ((startReq_untracked (received_quiet hquiet) hentry).trans (openTxn_noEntry (received_noEntry hnone))) hquiet

/-- R379, R380: a write is served at once. -/
theorem devRequests_write (hwrite : WritesNear r) :
    AcksWrite r (fun m => withoutTxns r.line (opened r (pointPast r.port m))) s.here (devRequests r.line [r] s.ctl s.here) := by
  have hwrites : r.kind = .wrFull ∨ r.kind = .wrPart := hwrite.1.imp_left And.left
  have hentry : Dev.needsEntry r.kind = false := by rcases hwrites with hkind | hkind <;> rw [hkind] <;> rfl
  have hopen : Dev.dirFind (((received s r).modHome (homeOfLine r.line) (opened r)).home (homeOfLine r.line)) r.line = none := by
    rw [Dev.home_modHome_same]
    exact received_noEntry hnone
  have hacks := (toAck_acksWrite (c := s.ctl) hwrite hopen).modHome.modHome
  have hstart := ((startReq_untracked (c := s.ctl) (received_quiet hquiet) hentry).trans (openTxn_noEntry (received_noEntry hnone))).trans (advance_write hwrites)
  have hhome := hacks.home
  obtain ⟨-, hchain, hwb, -, hoverflow, hingress⟩ := id hquiet
  rw [devRequests_one hadm hport hquiet hstart (hhome ▸ ⟨hchain, hwb, hoverflow, hingress⟩)]
  exact hacks

end

theorem withoutTxns_opened {r : Req} {m : Home} (htxns : m.txns = []) : (withoutTxns r.line (opened r m)).txns = [] := by
  simp [withoutTxns, opened, newTxn, htxns]

/-- R379, R380: what a write at a home with no transaction open leaves: the acknowledgement alone is sent, and the home's directory and the caches are as
they were. -/
theorem AcksWrite.served {s : State} {r : Req} {e : Dev} (h : AcksWrite r (fun m => withoutTxns r.line (opened r (pointPast r.port m))) s.here e)
    (htxns : (s.dev.home (homeOfLine r.line)).txns = []) : e.out = [.ack r.port r.line] ∧ (e.home (homeOfLine r.line)).txns = [] ∧
      (e.home (homeOfLine r.line)).dir = (s.dev.home (homeOfLine r.line)).dir ∧
      (∀ q, e.mem.byte e.era q = if r.line * 64 + r.off ≤ q ∧ q < r.line * 64 + r.off + r.data.length then r.data.getD (q - (r.line * 64 + r.off)) 0
        else s.dev.mem.byte s.dev.era q) ∧ e.caches = s.dev.caches := by
  have hera : e.era = s.dev.era := (congrArg Dev.era h.dev).trans rfl
  refine ⟨(congrArg Dev.out h.dev).trans rfl, (congrArg Home.txns h.home).trans (withoutTxns_opened htxns), (congrArg Home.dir h.home).trans rfl, fun q => ?_,
    (congrArg Dev.caches h.dev).trans rfl⟩
  rw [hera]
  exact h.byte q

/-- R366, R394: the row of an admitted request leaves what the request leaves. -/
theorem onClocked_devRequests {s : State} {r : Req} (hadm : Admitted s r) :
    onClocked (devRequests r.line [r]) s = .next (s.withDev (devRequests r.line [r] s.ctl s.here)) := by
  obtain ⟨hlive, hosc, -⟩ := hadm
  exact onClocked_eq hlive hosc rfl

theorem exec_cachingRow : ∀ q ∈ [(Instr.rdshared, ReqKind.rdShared), (.rdown, .rdOwn), (.upgrade, .upgrade)], ∀ (p : Fin 16) (l : Nat) (s : State),
    exec (q.1 p l []) s = onClocked (devRequests l [{ port := p.val, kind := q.2, line := l }]) s := by
  repeat refine List.forall_mem_cons.2 ⟨fun _ _ _ => rfl, ?_⟩
  exact fun _ hq => absurd hq List.not_mem_nil

/-- R379, R383: the caching requests leave an entry and need memory's data, an Upgrade of a line that no agent holds too. -/
theorem cachingRow_needs : ∀ q ∈ [(Instr.rdshared, ReqKind.rdShared), (.rdown, .rdOwn), (.upgrade, .upgrade)], ∀ p l : Nat,
    Dev.needsEntry q.2 = true ∧ Dev.needsData (newTxn { port := p, kind := q.2, line := l }) = true := by
  repeat refine List.forall_mem_cons.2 ⟨fun _ _ => ⟨rfl, rfl⟩, ?_⟩
  exact fun _ hq => absurd hq List.not_mem_nil

end Sys2Proof.Machine

open Sys2Proof Sys2Proof.Machine

/-- Settles O48: a request at a quiet home is the start of its one transaction (`devRequests_one`), which waits for memory, with an entry or without, or is
a write and is served. -/
theorem uncachedRequestsRun : Obligations.UncachedRequestsRun := by
  intro s p l m hquiet hnone hway
  refine ⟨fun q hq hadm => ?_, fun hadm => ?_, fun off op bs hadm => ?_, fun bs hlen hnear hadm => ?_, fun off bs hin hnear hadm => ?_⟩
  · obtain ⟨hentry, hdata⟩ := cachingRow_needs q hq p.val l
    obtain ⟨w, hwaits⟩ := devRequests_caching hadm p.isLt hquiet hnone hway hentry hdata
    have hhome := (hwaits.home (homeOfLine l)).trans (Dev.home_modHome_same _ _ _)
    exact ⟨_, _, w, newEntry l, (exec_cachingRow q hq p l s).trans (onClocked_devRequests hadm :), rfl, rfl, congrArg Home.txns hhome, rfl, rfl, rfl,
      (congrArg (Dev.dirFind · l) hhome).trans (dirFind_withEntry hnone w), congrArg Home.upgRdownCnt hhome, hwaits.mem, hwaits.caches, hwaits.out⟩
  · have hwaits := devRequests_uncaching hadm p.isLt hquiet hnone rfl rfl
    have hhome := (hwaits.home (homeOfLine l)).trans (Dev.home_modHome_same _ _ _)
    exact ⟨_, _, (onClocked_devRequests hadm :), congrArg Home.txns hhome, rfl, rfl, (congrArg Home.dir hhome).trans rfl, hwaits.mem, hwaits.caches⟩
  · have hwaits := devRequests_uncaching hadm p.isLt hquiet hnone rfl rfl
    have hhome := (hwaits.home (homeOfLine l)).trans (Dev.home_modHome_same _ _ _)
    exact ⟨_, _, (onClocked_devRequests hadm :), congrArg Home.txns hhome, rfl, rfl, (congrArg Home.dir hhome).trans rfl, hwaits.mem⟩
  · have hacks := devRequests_write hadm p.isLt hquiet hnone ⟨.inl ⟨rfl, rfl, hlen⟩, by simp [hlen], hnear, p.isLt⟩
    obtain ⟨hout, htxns, hdir, hbyte, hcaches⟩ := hacks.served hquiet.1
    simp only [hlen, Nat.add_zero] at hbyte
    exact ⟨_, (onClocked_devRequests hadm :), hout, htxns, hdir, hbyte, hcaches⟩
  · have hacks := devRequests_write hadm p.isLt hquiet hnone ⟨.inr rfl, hin, hnear, p.isLt⟩
    exact ⟨_, (onClocked_devRequests hadm :), hacks.served hquiet.1⟩

end

section
/-! SUPPORT. What each row that acts on the control part does to its soundness: register writes change nothing but the protection tables of it. -/

namespace Sys2Proof.Machine

open Sys2Proof

/-- The control part but for the protection tables: what a register's write leaves. -/
def ButTables (c c' : Ctl) : Prop := { c' with pt := c.pt, ptLock := c.ptLock } = c

theorem ButTables.refl (c : Ctl) : ButTables c c := rfl

theorem ButTables.ite {c : Ctl} {p : Prop} [Decidable p] {x y : Ctl × Dev} (hx : ButTables c x.1) (hy : ButTables c y.1) :
    ButTables c (if p then x else y).1 := by
  split
  · exact hx
  · exact hy

theorem ButTables.sound {c c' : Ctl} (h : ButTables c c') (hs : c.Sound) : c'.Sound := by
  have hlive : c'.live = c.live := (congrArg Ctl.live h :)
  have hpins : c'.pins = c.pins := (congrArg Ctl.pins h :)
  have hclk : c'.clk = c.clk := (congrArg Ctl.clk h :)
  have hboot : c'.boot = c.boot := (congrArg Ctl.boot h :)
  unfold Ctl.Sound
  rw [hlive, hpins, hclk, hboot]
  exact hs

theorem ptWrite_butTables {f : Ctl → Ctl} (hf : ∀ c, ButTables c (f c)) (ok : Bool) (addr port : Nat) (c : Ctl) (d : Dev) :
    ButTables c (ptWrite ok addr port f c d).1 :=
  .ite (.refl c) (.ite (hf c) (.refl c))

/-- The register that stands here, if any, is one without an action, or its action changes nothing but the tables of the control part. -/
def RegButTables (o : Option Reg) : Prop := ∀ r f, o = some r → r.write = .act f → ∀ p v c d, ButTables c (f p v c d).1

@[simp] theorem regButTables_none : RegButTables none := nofun

theorem regButTables_some {r : Reg} (h : ∀ f, r.write ≠ .act f) : RegButTables (some r) := by
  rintro _ f ⟨⟩ hf
  exact absurd hf (h f)

/-- A register with an action changes nothing but the tables where its action does. -/
theorem regButTables_act {w : Nat} {get : Ctl → Dev → Nat} {f : Nat → Nat → Ctl → Dev → Ctl × Dev} (h : ∀ p v c d, ButTables c (f p v c d).1) :
    RegButTables (some { width := w, read := get, write := .act f }) := by
  rintro _ _ ⟨⟩ ⟨⟩
  exact h

/-! ### The kinds of registers -/

section
variable (w : Nat) (get : Dev → Nat)

@[simp] theorem regButTables_roReg (see : Ctl → Dev → Nat) : RegButTables (roReg w see) := regButTables_some nofun
@[simp] theorem regButTables_timeReg (see : Ctl → Dev → Nat) : RegButTables (timeReg see) := regButTables_some nofun
@[simp] theorem regButTables_rwReg (set : Nat → Dev → Dev) : RegButTables (rwReg w get set) := regButTables_some nofun
@[simp] theorem regButTables_cnt32 (see : Dev → W32) (set : W32 → Dev → Dev) : RegButTables (cnt32 see set) := regButTables_some nofun
@[simp] theorem regButTables_cnt64 (see : Dev → W64) (set : W64 → Dev → Dev) : RegButTables (cnt64 see set) := regButTables_some nofun
@[simp] theorem regButTables_onesReg (f : Nat → Dev → Dev) : RegButTables (onesReg w get f) := regButTables_some nofun
@[simp] theorem regButTables_actDev (f : Nat → Nat → Ctl → Dev → Dev) : RegButTables (actDev w get f) := regButTables_act (fun _ _ c _ => .refl c)
@[simp] theorem regButTables_actWork (f : Nat → Nat → Ctl → Dev → Dev) : RegButTables (actWork w get f) := regButTables_act (fun _ _ c _ => .refl c)

end

@[simp] theorem regButTables_dropped (o : Option Reg) : RegButTables (o.map (fun x => { x with write := .dropped })) := by
  cases o with
  | none => exact regButTables_none
  | some r => exact regButTables_some nofun

@[simp] theorem regButTables_ite (p : Prop) [Decidable p] (a b : Option Reg) :
    RegButTables (if p then a else b) ↔ (p → RegButTables a) ∧ (¬p → RegButTables b) := by
  split <;> simp [*]

/-! ### The blocks of the map (R64) -/

@[simp] theorem engineReg_butTables (i m off : Nat) : RegButTables (engineReg i m off) := by
  unfold engineReg
  split <;> simp

@[simp] theorem benchReg_butTables (i off : Nat) : RegButTables (benchReg i off) := by
  unfold benchReg
  simp only [regButTables_ite]
  refine ⟨by simp, fun _ => ⟨by simp, fun _ => ⟨by simp, fun _ => ?_⟩⟩⟩
  split <;> simp

@[simp] theorem nearReg_butTables (h off : Nat) : RegButTables (nearReg h off) := by
  unfold nearReg
  split <;> simp

@[simp] theorem regButTables_timeOrRo {p : Prop} [Decidable p] (f : Ctl → Dev → Nat) : RegButTables ((if p then timeReg else roReg 64) f) := by
  split <;> simp

@[simp] theorem hostReg_butTables (off : Nat) : RegButTables (hostReg off) := by
  unfold hostReg
  split <;> simp

@[simp] theorem homeReg_butTables (h off : Nat) : RegButTables (homeReg h off) := by
  unfold homeReg
  simp only [regButTables_ite]
  refine ⟨by simp, fun _ => ⟨by simp, fun _ => ?_⟩⟩
  split <;> simp

@[simp] theorem stager0Reg_butTables (off : Nat) : RegButTables (stager0Reg off) := by
  unfold stager0Reg
  split <;> simp

@[simp] theorem stagerReg_butTables (b off : Nat) : RegButTables (stagerReg b off) := by
  unfold stagerReg
  split <;> simp

@[simp] theorem jigReg_butTables (j off : Nat) : RegButTables (jigReg j off) := by
  unfold jigReg
  simp only [regButTables_ite]
  refine ⟨by simp, fun _ => ⟨by simp, fun _ => ⟨by simp, fun _ => ⟨by simp, fun _ => ?_⟩⟩⟩⟩
  split <;> simp

@[simp] theorem planeReg_butTables (h off : Nat) : RegButTables (planeReg h off) := by
  unfold planeReg
  split <;> simp

@[simp] theorem fabCntReg_butTables (off : Nat) : RegButTables (fabCntReg off) := by
  unfold fabCntReg
  split <;> simp

@[simp] theorem fabricReg_butTables (off : Nat) : RegButTables (fabricReg off) := by
  unfold fabricReg
  simp only [regButTables_ite]
  refine ⟨by simp, fun _ => ⟨by simp, fun _ => ⟨by simp, fun _ => ?_⟩⟩⟩
  split <;> simp

@[simp] theorem collReg_butTables (off : Nat) : RegButTables (collReg off) := by
  unfold collReg
  split <;> simp

theorem setPt_butTables (k : Nat) (high : Bool) (v : W64) (c : Ctl) : ButTables c (setPt k high v c) := rfl

theorem setPtLock_butTables (c : Ctl) : ButTables c { c with ptLock := true } := rfl

/-- R438: a protection entry's write changes an entry. -/
@[simp] theorem protReg_butTables (k : Nat) (high : Bool) : RegButTables (protReg k high) :=
  regButTables_act (fun p _ c d => ptWrite_butTables (setPt_butTables k high _) _ (ptAddr k high) p c d)

/-- R18: PT_LOCK's write changes the lock. -/
theorem ptLockAct_butTables (p v : Nat) (c : Ctl) (d : Dev) :
    ButTables c (if bitAt v 0 then ptWrite true 0x3F0001200800 p (fun c => { c with ptLock := true }) c d else (c, d)).1 :=
  .ite (ptWrite_butTables setPtLock_butTables _ _ _ _ _) (.refl c)

@[simp] theorem bootReg_butTables (off : Nat) : RegButTables (bootReg off) := by
  unfold bootReg
  simp only [regButTables_ite]
  refine ⟨by simp, fun _ => ⟨by simp, fun _ => ?_⟩⟩
  split
  case h_4 => exact regButTables_act ptLockAct_butTables
  all_goals simp

@[simp] theorem powerReg_butTables (off : Nat) : RegButTables (powerReg off) := by
  unfold powerReg
  split <;> simp

@[simp] theorem collectorReg_butTables (off : Nat) : RegButTables (collectorReg off) := by
  unfold collectorReg
  simp only [regButTables_ite]
  refine ⟨by simp, fun _ => ⟨by simp, fun _ => ⟨by simp, fun _ => ?_⟩⟩⟩
  split <;> simp

@[simp] theorem mbxReg_butTables (k off : Nat) : RegButTables (mbxReg k off) := by
  unfold mbxReg
  split <;> simp

@[simp] theorem pageReg_butTables (k off : Nat) : RegButTables (pageReg k off) := by
  unfold pageReg
  split <;> simp

@[simp] theorem globalReg_butTables (port off : Nat) : RegButTables (globalReg port off) := by
  unfold globalReg
  split <;> simp

@[simp] theorem mirrorReg_butTables (o : Option Reg) : RegButTables (mirrorReg o) := regButTables_dropped o

@[simp] theorem windowReg_butTables (c : Ctl) (port off : Nat) : RegButTables (windowReg c port off) := by
  unfold windowReg
  simp

theorem regAt_butTables (c : Ctl) (d : Dev) (port a : Nat) : RegButTables (regAt c d port a) := by
  unfold regAt
  simp

/-! ### Writes of registers, whole and by halves -/

theorem writeWhole_butTables {r : Reg} (h : RegButTables (some r)) (a port v : Nat) (c : Ctl) (d : Dev) :
    ButTables c (writeWhole r a port v c d).1 := by
  unfold writeWhole
  split
  case h_5 f hf => exact h r f rfl hf port v c d
  all_goals exact .refl c

theorem writeHalf_butTables {r : Reg} (h : RegButTables (some r)) (a port v : Nat) (high : Bool) (c : Ctl) (d : Dev) :
    ButTables c (writeHalf r a port v high c d).1 := by
  unfold writeHalf
  refine .ite (.ite (writeWhole_butTables h _ _ _ _ _) (.refl c)) ?_
  dsimp only
  split
  · exact writeWhole_butTables h _ _ _ _ _
  · exact writeWhole_butTables h _ _ _ _ _

theorem regWrite_butTables (port a width v : Nat) (c : Ctl) (d : Dev) : ButTables c (regWrite port a width v c d).1 := by
  have at_acts {b : Nat} {r : Reg} (hr : regAt c d port b = some r) : RegButTables (some r) := hr ▸ regAt_butTables c d port b
  unfold regWrite
  refine .ite (.refl c) (.ite (.refl c) (.ite ?_ (.ite ?_ (.refl c))))
  · split
    · next r hr => exact .ite (writeWhole_butTables (at_acts hr) _ _ _ _ _) (.ite (writeHalf_butTables (at_acts hr) _ _ _ _ _ _) (.refl c))
    · split
      · next r hr => exact .ite (writeHalf_butTables (at_acts hr) _ _ _ _ _ _) (.refl c)
      · exact .refl c
  · split
    · next r hr => exact .ite (writeWhole_butTables (at_acts hr) _ _ _ _ _) (.refl c)
    · exact .refl c

end Sys2Proof.Machine
end

section
/-! SUPPORT. What each row makes of the soundness of the control part: the reset rows by what they set, every other one because it starts nothing. -/

namespace Sys2Proof.Machine

open Sys2Proof

/-- Neither a reset nor the clock of the timebase has moved, and boot has not begun. -/
structure StartsNothing (c c' : Ctl) : Prop where
  live : c'.live = c.live := by rfl
  pwrOk : c'.pins.pwrOk = c.pins.pwrOk := by rfl
  sysRstN : c'.pins.sysRstN = c.pins.sysRstN := by rfl
  counting : c'.clk.counting = c.clk.counting := by rfl
  running : c'.boot.running = true → c.boot.running = true := by exact id

namespace StartsNothing

theorem refl (c : Ctl) : StartsNothing c c where

theorem ite_ctl {c x y : Ctl} {p : Prop} [Decidable p] (hx : StartsNothing c x) (hy : StartsNothing c y) : StartsNothing c (if p then x else y) := by
  split
  · exact hx
  · exact hy

theorem ite {c : Ctl} {p : Prop} [Decidable p] {x y : Ctl × Dev} (hx : StartsNothing c x.1) (hy : StartsNothing c y.1) :
    StartsNothing c (if p then x else y).1 := by
  split
  · exact hx
  · exact hy

theorem sound {c c' : Ctl} (h : StartsNothing c c') (hs : c.Sound) : c'.Sound := by
  obtain ⟨hlive, hboot, hclk⟩ := hs
  unfold Ctl.Sound
  rw [h.live, h.pwrOk, h.sysRstN, h.counting]
  exact ⟨hlive, fun hr => hboot (h.running hr), hclk⟩

end StartsNothing

theorem ButTables.startsNothing {c c' : Ctl} (h : ButTables c c') : StartsNothing c c' where
  live := (congrArg Ctl.live h :)
  pwrOk := (congrArg (·.pins.pwrOk) h :)
  sysRstN := (congrArg (·.pins.sysRstN) h :)
  counting := (congrArg (·.clk.counting) h :)
  running hr := ((congrArg (·.boot.running) h).symm :).trans hr

/-! ### Boot (R430) -/

theorem halt_startsNothing (code : Nat) (c : Ctl) (d : Dev) : StartsNothing c (halt code c d).1 where
  running hr := absurd hr Bool.false_ne_true

theorem stage3_startsNothing (other : Bool) (obs : BootObs) (c : Ctl) (d : Dev) : StartsNothing c (stage3 other obs c d).1 :=
  .ite {} (.ite {} (halt_startsNothing _ _ _))

theorem stage5_startsNothing (c : Ctl) (d : Dev) : StartsNothing c (stage5 c d).1 := .ite {} {}

theorem stage6_startsNothing (obs : BootObs) (c : Ctl) (d : Dev) : StartsNothing c (stage6 obs c d).1 := by
  unfold stage6
  dsimp only
  split
  · exact {}
  · exact halt_startsNothing _ _ _

/-- READY ends boot's run. -/
theorem stage8_startsNothing (obs : BootObs) (c : Ctl) (d : Dev) : StartsNothing c (stage8 obs c d).1 :=
  .ite { running := fun hr => absurd hr Bool.false_ne_true }
    (.ite { running := fun hr => absurd hr Bool.false_ne_true } { running := fun hr => absurd hr Bool.false_ne_true })

theorem bootStage_startsNothing (obs : BootObs) (c : Ctl) (d : Dev) : StartsNothing c (bootStage obs c d).1 := by
  unfold bootStage
  refine .ite (.refl c) ?_
  split
  case h_3 => exact stage3_startsNothing _ _ _ _
  case h_5 => exact stage5_startsNothing _ _
  case h_6 => exact stage6_startsNothing _ _ _
  case h_8 => exact stage8_startsNothing _ _ _
  all_goals exact {}

theorem bootLimit_startsNothing (obs : BootObs) (c : Ctl) (d : Dev) : StartsNothing c (bootLimit obs c d).1 := by
  unfold bootLimit
  refine .ite (.refl c) ?_
  split
  case h_1 | h_2 => exact halt_startsNothing _ _ _
  case h_3 => exact stage3_startsNothing _ _ _ _
  case h_5 => exact stage6_startsNothing _ _ _
  case h_7 => exact stage8_startsNothing _ _ _
  all_goals exact {}

/-! ### Resets (R430, R500 to R502) -/

/-- Boot begins only where the blocks may run. -/
theorem begin_sound {c : Ctl} (h : c.Sound) : c.begin.Sound := by
  unfold Ctl.begin
  split
  · next hmay =>
    simp only [Bool.and_eq_true] at hmay
    obtain ⟨⟨⟨hpwr, hclk⟩, hrst⟩, -⟩ := hmay
    exact ⟨fun _ => ⟨hpwr, hrst, hclk⟩, fun _ => rfl, h.2.2⟩
  · exact h

/-- A part that a cold reset holds is sound: nothing runs in it. -/
theorem sound_of_held {c : Ctl} (hlive : c.live = false) (hboot : c.boot.running = false) (hclk : c.clk.counting = true → c.pins.pwrOk = true) : c.Sound :=
  ⟨fun h => absurd (hlive.symm.trans h) Bool.false_ne_true, fun h => absurd (hboot.symm.trans h) Bool.false_ne_true, hclk⟩

/-- R430: a warm reset holds the blocks; a part still in cold reset has none that run. -/
theorem sysRstNAssert_sound {c : Ctl} (d : Dev) (h : c.Sound) :
    (if c.pins.pwrOk && c.clk.counting then
      ({ c with pins := { c.pins with sysRstN := false }, boot := { cold := false }, cfg := {}, live := false, clk := { c.clk with onOsc := false } }, warmDev d)
    else ({ c with pins := { c.pins with sysRstN := false } }, d) : Ctl × Dev).1.Sound := by
  obtain ⟨hlive, hboot, hclk⟩ := h
  split
  · exact sound_of_held rfl rfl hclk
  · next hheld =>
    have hdead : c.live = false := by
      by_contra hl
      obtain ⟨hpwr, -, hcount⟩ := hlive (by simpa using hl)
      exact hheld (by rw [hpwr, hcount]; rfl)
    exact sound_of_held hdead (Bool.eq_false_iff.2 fun hr => absurd (hdead.symm.trans (hboot hr)) Bool.false_ne_true) hclk

/-- R500: boot may begin once the timebase counts, which it does only with power good. -/
theorem internalResetRelease_sound {c : Ctl} (d : Dev) (h : c.Sound) :
    (if c.pins.pwrOk && !c.clk.counting then
      beginBoot c { c with clk := { c.clk with pllLock := true, refclkOk := true, ethRefclkOk := true, counting := true, timebase := 0 } } d else (c, d)).1.Sound := by
  split
  · next hmay =>
    simp only [Bool.and_eq_true, Bool.not_eq_true'] at hmay
    obtain ⟨hpwr, hstands⟩ := hmay
    obtain ⟨hlive, hboot, -⟩ := h
    exact begin_sound ⟨fun hl => ⟨hpwr, (hlive hl).2.1, rfl⟩, hboot, fun _ => hpwr⟩
  · exact h

theorem sysRstNRelease_sound {c : Ctl} (d : Dev) (h : c.Sound) : (beginBoot c { c with pins := { c.pins with sysRstN := true } } d).1.Sound := by
  obtain ⟨hlive, hboot, hclk⟩ := h
  exact begin_sound ⟨fun hl => ⟨(hlive hl).1, rfl, (hlive hl).2.2⟩, hboot, hclk⟩

/-! ### The rows -/

/-- R500, R501, R504: what each row that acts on the control part makes of its soundness. -/
theorem ActsOnCtl.keepsSound {i : Instr} (h : ActsOnCtl i) : ∃ f, (∀ s, exec i s = onAll f s) ∧ ∀ c d, c.Sound → (f c d).1.Sound := by
  unfold exec
  cases h with
  | pwrOkRise =>
    refine ⟨_, fun _ => rfl, fun c d hs => ?_⟩
    dsimp only
    split
    · exact hs
    · exact sound_of_held rfl rfl fun _ => rfl
  | pwrOkFall =>
    refine ⟨_, fun _ => rfl, fun c d hs => ?_⟩
    dsimp only
    split
    · exact sound_of_held rfl rfl (absurd · Bool.false_ne_true)
    · exact hs
  | sysRstNAssert => exact ⟨_, fun _ => rfl, fun _ d => sysRstNAssert_sound d⟩
  | sysRstNRelease => exact ⟨_, fun _ => rfl, fun _ d => sysRstNRelease_sound d⟩
  | internalResetRelease => exact ⟨_, fun _ => rfl, fun _ d => internalResetRelease_sound d⟩
  | bootStageEnd obs => exact ⟨_, fun _ => rfl, fun c d => (bootStage_startsNothing obs c d).sound⟩
  | bootStageLimitExpiry obs tie =>
    exact ⟨_, fun _ => rfl, fun c d => (StartsNothing.ite (.ite (.refl c) (.refl c)) (bootLimit_startsNothing obs c d)).sound⟩
  | jtagUnlockResp signature => exact ⟨_, fun _ => rfl, fun c d => (StartsNothing.ite (.refl c) (.ite {} {})).sound⟩
  | registerWrite | registerLowHalfWrite => exact ⟨_, fun _ => rfl, fun c d => (regWrite_butTables _ _ _ _ c d).startsNothing.sound⟩
  | ptLockSet port => exact ⟨_, fun _ => rfl, fun c d => (ptWrite_butTables setPtLock_butTables _ _ _ c d).startsNothing.sound⟩
  | ptEntryWrite port cls index high value => exact ⟨_, fun _ => rfl, fun c d => (ptWrite_butTables (setPt_butTables _ high value) _ _ _ c d).startsNothing.sound⟩
  | perstN0Assert => exact ⟨_, fun _ => rfl, fun c d => (StartsNothing.ite {} (.refl c)).sound⟩
  | perstN0Release | pwrbrkNAssert | brakeEnd | refclkLoss | pllUnlock | ethRefclkLoss | ethRefclkReturn | jtagTrst =>
    exact ⟨_, fun _ => rfl, fun c d => StartsNothing.sound {}⟩
  | oscSwitchover => exact ⟨_, fun _ => rfl, fun c d => (StartsNothing.ite_ctl (.refl c) {}).sound⟩
  | thermtripAssert => exact ⟨_, fun _ => rfl, fun c d => (StartsNothing.ite_ctl {} (.refl c)).sound⟩
  | jtagInstructionUpdate instr => exact ⟨_, fun _ => rfl, fun c d => (StartsNothing.ite_ctl (.refl c) {}).sound⟩

/-- A command keeps the control part sound, whichever it is. -/
theorem exec_keepsSound {i : Instr} {s t : State} (hs : s.ctl.Sound) (h : exec i s = .next t) : t.ctl.Sound := by
  rcases exec_device_or_actsOnCtl i s with ⟨d, hd⟩ | hctl
  · obtain rfl : _ = t := Host.Outcome.next.inj (hd.symm.trans h)
    exact hs
  · obtain ⟨f, hf, hkeeps⟩ := hctl.keepsSound
    obtain rfl : _ = t := Host.Outcome.next.inj ((hf s).symm.trans h)
    exact hkeeps _ _ hs

theorem ctlTick_startsNothing (c : Ctl) : StartsNothing c c.tick := .ite_ctl {} (.refl c)

theorem countHeartbeat_ctl (s : State) : (countHeartbeat s).ctl = s.ctl := by
  unfold countHeartbeat
  split
  · rfl
  · rfl

/-- R504: a tick moves the timebase alone of the control part. -/
theorem tick_ctl (s : State) : s.tick.ctl = s.ctl.tick := by
  have hheartbeat : (countHeartbeat { s with ctl := s.ctl.tick }).ctl = s.ctl.tick := countHeartbeat_ctl _
  unfold State.tick
  dsimp only
  split
  · split
    · exact hheartbeat
    · exact hheartbeat
  · split
    · exact hheartbeat
    · exact hheartbeat

end Sys2Proof.Machine

open Sys2Proof Sys2Proof.Machine

/-- Settles O14: of the commands, those of resets set what soundness asks for, and every other starts nothing (`StartsNothing`); a tick of the
timebase starts nothing either. -/
theorem stepsKeepControlSound : Obligations.StepsKeepControlSound := by
  intro s t hs hstep
  unfold step at hstep
  split at hstep
  · obtain rfl := Host.Outcome.next.inj hstep
    exact tick_ctl s ▸ (ctlTick_startsNothing s.ctl).sound hs
  · next i rest _ => exact exec_keepsSound (s := { s with pending := rest }) hs hstep

end

section
/-! SUPPORT. The commands of the blocks that the safe state stops act by `onWork`, those of a bench's engines by `onEngine`. -/

namespace Sys2Proof.Machine

open Sys2Proof

theorem onEngine_safe (i : Nat) (f : Ctl → Dev → Dev) (s : State) (h : s.dev.fc.entering = true) : onEngine i f s = .next s := onWork_safe _ s h

/-- R460: of the commands, those of the stopped blocks leave the state as it is. -/
theorem exec_stoppedWhenSafe {i : Instr} {s : State} (hstops : StoppedWhenSafe i) (h : s.dev.fc.entering = true) : exec i s = .next s := by
  unfold exec
  cases i with
  | wakeRequest | wakeAdmit | wakeRampStep | spadOwnerWrite | spadOwnerSetWrite | spadPairWrite | spadStatOwnerWrite | spadHandoverEnd | spadAccess
  | spadAccessAccept | spadWaitLimitExpiry | spadWindowAccess | strmSubmitWrite | nop | jigMx | jigVec | jigRow | jigDma | handover | stager | gate
  | phase | loop | release | coll | endRec | jigRecordComplete | jigWaitTimeoutExpiry | jigPhaseBoundaryPass | jigHoistIssue | streamFillStart
  | streamBlockArrival | streamSlotFull | streamWatchdogExpiry | get | put | segmentSeal | stagerDescComplete | farRepairFetchDone
  | farSegmentRewriteDone | pagePromoteStart | pagePromoteDone | pageDemoteStart | pageDemoteDone | strmEpochEnd | nearCeWriteback
  | writeQueueAgeExpiry | refreshDue | scrubRead | softPprStart | softPprDone | pcStagingDone | pcRetrainDone | pcRestoreDone | pcRetirementStart
  | pcSacrificedRangeEmpty | pcRetirementCopyDone | planeUpdateStart | planeCommit | sealPutDone | write | readReq | readResp | atomicAdd | fetchAdd
  | cmpSwap | atomicResp | signal | panelAdd | mirror | mirrorCredit | twinDone | ack | status | rnr | heartbeat | flowOpen | rawFrameReceive
  | pfcFrameReceive | frameLossTimeout | ackDelayExpiry | ccPeriodTick | flowOpenResend | heartbeatSend | peerLossExpiry | pathPenaltyExpiry
  | rnrRetransmit | rawTxPoll | fabricWindowAccess | ethLaneFail | ethPortRetrainDone | ethPortLinkUp | gradSend | reduceScatter | allGather
  | allReduce | broadcast | barrier | clamp | dovetail | collData | barrierUp | barrierDown | dovePull | doveWaveBarrierDone | collOpComplete
  | clampRecordReady | clampWaitExpiry | clampPart | clampChildDeadline | clampResult | clampAck | clampQuery | clampNone | clampResultWaitExpiry
  | coreLoad | coreStore | cacheReplacement | retryBackoffExpiry | memclnevct | snpinv | snpdata | snpcur | snoopResponse | grant | grantack | wback
  | retry | cohSnoopTimeoutExpiry | biconflict | hostH2dSnoop | collectivePartTimeout | hostCompletion => exact onWork_safe _ s h
  | mxTaskIssue | mxPartialWaitRelease | mxTaskComplete | load | store | statSave | statLoad | dmaDescComplete | copy | fill | bcast | add | sub | mul
  | fma | min | max | abs | neg | colAdd | rowMul | cmpGt | select | div | recip | sqrt | rsqrt | log | func | dfunc | rowSum | rowMax | rowTopk
  | compress | expand | gather | vecTaskComplete | lnFwd | rmsFwd | smFin | lnBwd | rmsBwd | smBwd | rowTaskComplete => exact onEngine_safe _ _ s h
  | _ => exact False.elim hstops

end Sys2Proof.Machine

open Sys2Proof Sys2Proof.Machine

/-- Settles O59: each command of the list acts by `onWork` or `onEngine`, which the entry into the safe state stops. -/
theorem safeStateStopsTheBlocks : Obligations.SafeStateStopsTheBlocks := fun _ _ hstops h => exec_stoppedWhenSafe hstops h

/-- Settles O57: step takes the command at the front, and with none waiting a tick of the timebase passes; the table spells no command. -/
theorem stepRunsTheFrontCommand : Obligations.StepRunsTheFrontCommand :=
  ⟨fun _ _ _ => rfl, fun s hnone => by simp [step, hnone, idle], fun _ _ => rfl, fun _ _ _ => rfl⟩

end

section
/-! SUPPORT. How the collector books a raise (R448): the source, the log, and that pin and notifications come after both. -/

namespace Sys2Proof.Machine

open Sys2Proof

/-- Sources and log, but not the pin and the notifications. -/
structure SameBooks (f g : Collector) : Prop where
  srcs : g.srcs = f.srcs := by rfl
  log : g.log = f.log := by rfl
  seq : g.seq = f.seq := by rfl

theorem SameBooks.trans {f g h : Collector} (hf : SameBooks f g) (hg : SameBooks g h) : SameBooks f h :=
  ⟨hg.srcs.trans hf.srcs, hg.log.trans hf.log, hg.seq.trans hf.seq⟩

theorem SameBooks.ite {f g h : Collector} {p : Prop} [Decidable p] (hg : SameBooks f g) (hh : SameBooks f h) : SameBooks f (if p then g else h) := by
  split
  · exact hg
  · exact hh

theorem setNotify_sameBooks (f : Collector) (msix : Bool) : SameBooks f (f.setNotify msix) := .ite {} {}

/-- A source as a raise books it. -/
def bookRaise (eff n : Nat) (x : Src) : Src :=
  { x with pending := true, pendSev := BitVec.ofNat 2 (max x.pendSev.toNat eff), count := cntAdd x.count n }

/-- Does a raise of a source make a log entry (R445, R448)? -/
def makesEntry (eff : Nat) (x : Src) : Bool :=
  (!x.pending && (eff != 0 || !x.noLog)) || (x.pending && (decide (2 ≤ eff) || (decide (x.pendSev.toNat < eff) && (eff != 0 || !x.noLog))))

/-- The collector once the source of a raise is booked. -/
def sourceBooked (fc : Collector) (src eff n : Nat) : Collector :=
  { fc.setSrc src (bookRaise eff n (fc.src src)) with raiseCnt := cntAdd fc.raiseCnt n, gddrUe := fc.gddrUe || src == Fs.gddrUe }

/-- The log entry of a raise, its SEQ aside (R451). -/
def raiseEntry (now : Nat) (life : StepLife) (src floor info eff : Nat) (x : Src) : LogEntry :=
  { time := BitVec.ofNat 64 now, src := BitVec.ofNat 9 src, sev := BitVec.ofNat 2 eff, floor := decide (x.sev.toNat < floor), rep := x.pending,
    epoch := life.epoch, step := BitVec.ofNat 32 life.step.toNat, info := BitVec.ofNat 64 info, seq := 0 }

theorem src_setSrc_same (fc : Collector) (n : Nat) (x : Src) : (fc.setSrc n x).src n = x := tabGet_set_same _ _ _ _

theorem tabFind_set_ne {α : Type} [DecidableEq α] (d : α) (t : Tab α) {k q : Nat} (v : α) (h : q ≠ k) : tabFind (tabSet d t k v) q = tabFind t q := by
  unfold tabSet
  split
  · exact tabFind_del_ne t h
  · exact tabFind_put_ne t v h

theorem src_setSrc_ne (fc : Collector) {n k : Nat} (h : k ≠ n) (x : Src) : (fc.setSrc n x).src k = fc.src k := by
  simp only [Collector.src, Collector.setSrc, tabGet, tabFind_set_ne _ _ _ h]

theorem SameBooks.src {f g : Collector} (h : SameBooks f g) (n : Nat) : g.src n = f.src n := by rw [Collector.src, Collector.src, h.srcs]

theorem addLog_srcs (fc : Collector) (e : LogEntry) : (fc.addLog e).srcs = fc.srcs := by
  unfold Collector.addLog
  dsimp only
  split
  · rfl
  · rfl

/-- R451: an entry that has a slot stands in it with the next SEQ. -/
theorem addLog_entry {fc : Collector} {i : Nat} (h : fc.logSlot = some i) (e : LogEntry) :
    tabFind (fc.addLog e).log i = some { e with seq := fc.seq } := by
  simp [Collector.addLog, h]

section
variable (fc : Collector) (now : Nat) (life : StepLife) (msix : Bool) (src floor info n : Nat)

/-- R448: a raise books its source, and then its entry where it makes one. -/
theorem raise1_sameBooks {eff : Nat} (heff : max (fc.src src).sev.toNat floor = eff) :
    SameBooks (if makesEntry eff (fc.src src) then (sourceBooked fc src eff n).addLog (raiseEntry now life src floor info eff (fc.src src))
      else sourceBooked fc src eff n) (fc.raise1 now life msix src floor info n).1 := by
  subst heff
  have told (f : Collector) (p : Prop) [Decidable p] : SameBooks f (if p then f.setNotify msix else f) := .ite (setNotify_sameBooks f msix) {}
  have owed (f : Collector) (p : Prop) [Decidable p] : SameBooks f (if p then { f with owedI3c := true } else f) := .ite {} {}
  exact (told _ _).trans ((owed _ _).trans {})

/-- A raise changes the sources as it books its own, entry or not. -/
theorem raise1_src {eff : Nat} (heff : max (fc.src src).sev.toNat floor = eff) (k : Nat) :
    ((fc.raise1 now life msix src floor info n).1).src k = (fc.setSrc src (bookRaise eff n (fc.src src))).src k := by
  have hbooks := (raise1_sameBooks fc now life msix src floor info n heff).src k
  split at hbooks
  · exact hbooks.trans (congrArg (tabGet (srcReset k) · k) (addLog_srcs _ _))
  · exact hbooks

end

/-- A severity, or an event floor, fits the field that holds it. -/
theorem toNat_severity {eff : Nat} (h : eff < 4) : (BitVec.ofNat 2 eff).toNat = eff := Nat.mod_eq_of_lt h

/-- R448: a 1 written to PENDING clears it with PEND_SEV and COUNT, whatever else the write does. -/
theorem writeSeverity_clears (lock : Bool) (n : Nat) {v : Nat} (hone : bitAt v 8 = true) (f : Collector) :
    ∃ x, (writeSeverity lock n v f).src n = clearPending x := by
  refine ⟨_, (src_setSrc_same f n _).trans (if_pos hone)⟩

end Sys2Proof.Machine

open Sys2Proof Sys2Proof.Machine

/-- Settles O8: what a raise leaves of the sources is `raise1_src`, and its entry, where `makesEntry` has it make one, is `addLog_entry`. -/
theorem raiseIsBooked : Obligations.RaiseIsBooked := by
  intro fc now life msix src floor info x eff r
  have hsrc (k : Nat) : r.src k = (fc.setSrc src.val (bookRaise eff 1 x)).src k := raise1_src fc now life msix src.val floor.val info 1 rfl k
  have hself : r.src src.val = bookRaise eff 1 x := (hsrc _).trans (src_setSrc_same _ _ _)
  have hbooks := raise1_sameBooks fc now life msix src.val floor.val info 1 (rfl : _ = eff)
  have heff : eff < 4 := Nat.max_lt.2 ⟨x.sev.isLt, floor.isLt⟩
  refine ⟨?_, ?_, ?_, fun k hk => (hsrc k).trans (src_setSrc_ne fc hk _), fun hpend hlow hbelow => ?_, fun hpend hhigh i hslot => ?_, fun lock v hone => ?_⟩
  · rw [hself]; rfl
  · rw [hself]
    exact toNat_severity (Nat.max_lt.2 ⟨x.pendSev.isLt, heff⟩)
  · rw [hself]
    simp only [bookRaise, cntAdd, BitVec.toNat_ofNat]
    omega
  · have hnone : makesEntry eff x = false := by simp [makesEntry, hpend]; omega
    rw [if_neg (Bool.eq_false_iff.1 hnone)] at hbooks
    exact ⟨hbooks.log, hbooks.seq⟩
  · have hmakes : makesEntry eff x = true := by
      rcases hhigh with h2 | ⟨habove, hlog⟩
      · simp [makesEntry, hpend, h2]
      · simp [makesEntry, hpend, habove, hlog]
    rw [if_pos hmakes] at hbooks
    have hentry := addLog_entry (fc := sourceBooked fc src.val eff 1) hslot (raiseEntry now life src.val floor.val info eff x)
    refine ⟨_, hbooks.log ▸ hentry, hpend, ?_, toNat_severity heff, rfl⟩
    exact Nat.mod_eq_of_lt (by have := src.isLt; omega)
  · obtain ⟨y, hy⟩ := writeSeverity_clears lock src.val hone fc
    rw [hy]
    exact ⟨rfl, rfl, rfl⟩

end

section
/-! SUPPORT. The collector's own events, each in the state it acts in (R446, R455, R458, R459, R461). -/

namespace Sys2Proof.Machine

open Sys2Proof

section
variable {c : Ctl} {d : Dev}

theorem devSafeComplete_completes (h : d.fc.entering = true) (refreshOnly : Bool) : devSafeComplete refreshOnly c d =
    { d with near := { d.near with selfRefresh := true }, fc := if refreshOnly then d.fc else { d.fc with safe := true } } := by
  cases refreshOnly <;> simp [devSafeComplete, h, Dev.modNear, Dev.modFc]

/-- R446: an owed MSI-X notification goes out on vector 16, where that is not masked. -/
theorem devDeliver_msix (howed : d.fc.owedMsix = true) (hnotify : d.fc.notify = true) (hpath : d.msixPath = true)
    (hopen : bitAt d.silkai.msixMask.toNat 16 = false) :
    devDeliver 0 c d = (d.modFc (fun f => { f with owedMsix := false })).emit (.msix 16) := by
  have hpath' : (d.modFc (fun f => { f with owedMsix := false })).msixPath = true := hpath
  simp [devDeliver, howed, hnotify, hpath, Dev.sendMsix, hpath', hopen]

theorem devDeliver_ibi (howed : d.fc.owedI3c = true) (hdue : d.fc.notify = true ∨ d.fc.entering = true) :
    devDeliver 1 c d = (d.modFc (fun f => { f with owedI3c := false })).emit .ibi := by
  have hwhy : (d.fc.notify || d.fc.entering) = true := Bool.or_eq_true_iff.2 hdue
  simp [devDeliver, howed, hwhy]

/-- R459: a failed self-check is recorded, and the safe state entered, in which nothing is recorded any more. -/
theorem selfFail_fc (kind : Bool) (off : BitVec 20) : (selfFail kind off c d).fc.selfErr = true ∧ (selfFail kind off c d).fc.entering = true ∧
    (selfFail kind off c d).fc.safeSrc = 0x1FF ∧ (selfFail kind off c d).fc.selfOff = off ∧ (selfFail kind off c d).fc.deaf = true := by
  unfold selfFail
  dsimp only
  split
  · next hentered => exact ⟨rfl, hentered, rfl, rfl, rfl⟩
  · exact ⟨rfl, rfl, rfl, rfl, rfl⟩

theorem devSweep_fails (h : d.fc.deaf = false) (ces : Nat) (x : Bool × BitVec 20) :
    devSweep ces (some x) c d = selfFail x.1 x.2 c (d.modFc (fun f => { f with logCeCnt := cntAdd f.logCeCnt ces })) := by
  simp [devSweep, h]

theorem devHeartbeatExpiry_lost (h : d.fc.fresh = true) : devHeartbeatExpiry false c d =
    raise c (d.modFc (fun f => { f with fresh := false, mode := 1, pulse := false, fallback := true })) Fs.heartbeatLost 0 := by
  simp [devHeartbeatExpiry, h]

theorem devPulseEnd_ends (h : d.fc.pulse = true) : devPulseEnd false c d = d.modFc (fun f => { f with pulse := false }) := by
  simp [devPulseEnd, h]

theorem devPulseEnd_tie (h : d.fc.pulse = true) : devPulseEnd true c d = d.modFc (fun f => { f with tieCnt := cntInc f.tieCnt }) := by
  simp [devPulseEnd, h]

end

end Sys2Proof.Machine

open Sys2Proof Sys2Proof.Machine

/-- Settles O10: each event is its function, of which the lemmas above say what it leaves of the collector. -/
theorem collectorEventsAct : Obligations.CollectorEventsAct := by
  intro s hlive
  refine ⟨fun hentering => ⟨onDev_eq hlive (devSafeComplete_completes (d := s.here) hentering false), onDev_eq hlive (devSafeComplete_completes (d := s.here) hentering true)⟩,
    fun howed hnotify hpath hopen => onDev_eq hlive (devDeliver_msix (d := s.here) howed hnotify hpath hopen),
    fun howed hdue => onDev_eq hlive (devDeliver_ibi (d := s.here) howed hdue), fun ce => onDev_eq hlive rfl, fun ce kind off hhears => ?_,
    fun hfresh => onDev_eq hlive (devHeartbeatExpiry_lost (d := s.here) hfresh), onDev_eq hlive rfl,
    fun hpulse => ⟨onDev_eq hlive (devPulseEnd_ends (d := s.here) hpulse), onDev_eq hlive (devPulseEnd_tie (d := s.here) hpulse)⟩⟩
  exact ⟨_, onDev_eq hlive (devSweep_fails (d := s.here) hhears ce.length (kind, off)), rfl, selfFail_fc kind off⟩

end

section
/-! SUPPORT. Writes of the collector's registers (R448, R450, R457, R458): whose reach the block, and what one that does changes. -/

namespace Sys2Proof.Machine

open Sys2Proof

theorem ofNat_bits {w : Nat} (v : BitVec w) (lo n : Nat) : BitVec.ofNat n (bits v.toNat lo n) = v.extractLsb' lo n := by
  apply BitVec.eq_of_toNat_eq
  simp [bits, BitVec.extractLsb'_toNat]

section
variable {s : State} {port a n : Nat} (hlive : s.Live)
include hlive

theorem guardedDev_open (h : s.CsrOpen port a n) (f : Ctl → Dev → Dev) : onDev (guardCsr port a n f) s = .next (s.withDev (f s.ctl s.here)) :=
  onDev_eq hlive (guardCsr_open (d := s.here) h.1 h.2)

theorem guardedDev_shut (h : s.CsrShut port a n) (f : Ctl → Dev → Dev) :
    onDev (guardCsr port a n f) s = .next (s.withDev (dropWrite a port s.ctl s.here)) :=
  onDev_eq hlive (guardCsr_shut (d := s.here) h.1 h.2)

end

/-- R450: of the requesters whose writes reach a register block, all may write the collector. -/
theorem fcWriter_of_open {s : State} {port a n : Nat} (h : s.CsrOpen port a n) : fcWriter port = true := by
  obtain ⟨-, hreach⟩ := h
  simp only [reachesCsr, Bool.or_eq_true, Bool.and_eq_true] at hreach
  rcases hreach with hsilkai | ⟨hcore, -⟩
  · simp [fcWriter, hsilkai]
  · simp [fcWriter, hcore]

theorem not_lockedOut {c : Ctl} {port : Nat} (h : port = 15 ∨ c.cfg.faultCfgLock = false) : ¬(port ≠ 15 ∧ c.cfg.faultCfgLock = true) :=
  fun ⟨hne, hlock⟩ => h.elim hne fun hopen => absurd (hopen.symm.trans hlock) Bool.false_ne_true

/-! ### FC_PIN_CFG (R457, R458) -/

/-- The fields that a write of FC_PIN_CFG sets, the mode aside. -/
def pinFields (v : Nat) (f : Collector) : Collector := { f with threshold := BitVec.ofNat 2 (bits v 0 2), pulseMinUs := BitVec.ofNat 14 (bits v 16 14) }

section
variable {c : Ctl} {d : Dev} {port : Nat} (hwriter : fcWriter port = true) (hmay : port = 15 ∨ c.cfg.faultCfgLock = false) (v : Nat)
include hwriter hmay

theorem devPinCfg_late (hstage : 5 ≤ c.boot.stage.toNat) : devPinCfg port v c d = d.modFc (fun f => setPinMode (!bitAt v 2) (pinFields v f)) := by
  simp only [devPinCfg, hwriter, not_lockedOut hmay, Nat.not_lt.2 hstage]
  rfl

theorem devPinCfg_early (hstage : c.boot.stage.toNat < 5) : devPinCfg port v c d = d := by
  simp only [devPinCfg, hwriter, not_lockedOut hmay, hstage]
  rfl

end

/-- R458: with no fresh heartbeat the fallback keeps the mode, and the return is refused. -/
theorem setPinMode_refused {f : Collector} (hback : f.fallback = true) (hstale : f.fresh = false) :
    setPinMode true f = { f with refusedCnt := cntInc f.refusedCnt } := by simp [setPinMode, hback, hstale]

theorem setPinMode_pulse {f : Collector} (h : f.fallback = false ∨ f.fresh = true) : setPinMode true f = { f with mode := 0, fallback := false } := by
  rcases h with h | h <;> simp [setPinMode, h]

/-- A change of mode leaves the other fields of the register. -/
theorem setPinMode_leaves (pulseMode : Bool) (f : Collector) :
    (setPinMode pulseMode f).threshold = f.threshold ∧ (setPinMode pulseMode f).pulseMinUs = f.pulseMinUs := by
  unfold setPinMode
  split
  · split
    · exact ⟨rfl, rfl⟩
    · exact ⟨rfl, rfl⟩
  · exact ⟨rfl, rfl⟩

/-! ### FC_SEVERITY (R448, R450) -/

/-- Is the severity of a write refused (R450)? -/
def refusesSev (lockedOut : Bool) (n v : Nat) (f : Collector) : Bool := lockedOut || (f.src n).lock || (sevFixed n && decide (bits v 0 2 < 3))

theorem writeSeverity_refusedCnt (lockedOut : Bool) (n v : Nat) (f : Collector) :
    (writeSeverity lockedOut n v f).refusedCnt = cntIf (refusesSev lockedOut n v f) f.refusedCnt := rfl

theorem writeSeverity_sev (lockedOut : Bool) (n v : Nat) (f : Collector) :
    ((writeSeverity lockedOut n v f).src n).sev = if refusesSev lockedOut n v f then (f.src n).sev else BitVec.ofNat 2 (bits v 0 2) := by
  have hsrc : ((writeSeverity lockedOut n v f).src n) = _ := src_setSrc_same f n _
  have clearPending_sev (b : Bool) (x : Src) : (if b then clearPending x else x).sev = x.sev := by cases b <;> rfl
  have actions_sev (b : Bool) (x y : Src) (h : y.sev = x.sev) : (if b then x else y).sev = x.sev := by cases b <;> [exact h; rfl]
  rw [hsrc, clearPending_sev, actions_sev]
  · exact apply_ite Src.sev _ _ _
  · rfl

theorem writeSeverity_ne (lockedOut : Bool) {n k : Nat} (h : k ≠ n) (v : Nat) (f : Collector) : (writeSeverity lockedOut n v f).src k = f.src k :=
  src_setSrc_ne f h _

end Sys2Proof.Machine

open Sys2Proof Sys2Proof.Machine

/-- Settles O11: a write let through is the function of its register, of which the lemmas above say what it changes; any other is dropped. -/
theorem collectorRegistersTakeWrites : Obligations.CollectorRegistersTakeWrites := by
  intro s hlive
  have nat_port {port : Fin 16} {p : Prop} (h : port = 15 ∨ p) : port.val = 15 ∨ p := h.imp (congrArg Fin.val) id
  refine ⟨fun tie => guardedDev_open hlive ⟨rfl, rfl⟩ _, fun port tie hne harr => ?_,
    fun port v hopen hmay hstage => (guardedDev_open hlive hopen _).trans (by rw [devPinCfg_early (fcWriter_of_open hopen) (nat_port hmay) _ hstage]),
    fun port v hshut => guardedDev_shut hlive hshut _, fun port v hopen hmay hstage => ?_, fun port n v hopen => ?_, fun port n v hshut => guardedDev_shut hlive hshut _⟩
  · have hport : port.val ≠ 15 := fun h => hne (Fin.ext h)
    rcases Bool.eq_false_or_eq_true (reachesCsr s.ctl port.val 2 0x3F0001000018 4) with hreach | hreach
    · exact (guardedDev_open hlive ⟨harr, hreach⟩ _).trans (by rw [devHeartbeat, if_neg hport])
    · exact guardedDev_shut hlive ⟨harr, hreach⟩ _
  · refine ⟨_, (guardedDev_open hlive hopen _).trans (by rw [devPinCfg_late (fcWriter_of_open hopen) (nat_port hmay) _ hstage]; rfl),
      (setPinMode_leaves _ _).1.trans (ofNat_bits v 0 2), (setPinMode_leaves _ _).2.trans (ofNat_bits v 16 14), fun hstatic => ?_, fun hpulse hback hstale => ?_, fun hpulse hfresh => ?_⟩
    · rw [hstatic]
      exact ⟨rfl, rfl⟩
    · rw [hpulse]
      have hrefused := setPinMode_refused (f := pinFields v.toNat s.dev.fc) hback hstale
      exact ⟨(congrArg Collector.mode hrefused :), (congrArg Collector.refusedCnt hrefused :)⟩
    · rw [hpulse]
      have hback := setPinMode_pulse (f := pinFields v.toNat s.dev.fc) hfresh
      exact ⟨(congrArg Collector.mode hback :), (congrArg Collector.fallback hback :)⟩
  · refine ⟨_, (guardedDev_open hlive hopen _).trans (by rw [devSeverity, fcWriter_of_open hopen]; rfl), fun k hk => writeSeverity_ne _ hk _ _,
      fun hlocked => ?_, fun hfixed hbelow => ?_, fun hunlocked hport hfree => ?_⟩
    · have hno : refusesSev (port.val != 15 && s.ctl.cfg.faultCfgLock) n.val v.toNat s.dev.fc = true := by
        rcases hlocked with hlock | ⟨hne, hlock⟩
        · simp [refusesSev, hlock]
        · simp [refusesSev, hlock, show port.val ≠ 15 from fun h => hne (Fin.ext h)]
      exact ⟨(writeSeverity_sev _ _ _ _).trans (if_pos hno), (writeSeverity_refusedCnt _ _ _ _).trans (by rw [hno]; rfl)⟩
    · have hbits : bits v.toNat 0 2 < 3 := by
        have hlt : bits v.toNat 0 2 < 4 := Nat.mod_lt _ (by decide)
        have hne : bits v.toNat 0 2 ≠ 3 := fun h => hbelow ((ofNat_bits v 0 2).symm.trans (by rw [h]))
        omega
      exact (writeSeverity_sev _ _ _ _).trans (if_pos (by simp [refusesSev, hfixed, hbits]))
    · have hyes : refusesSev (port.val != 15 && s.ctl.cfg.faultCfgLock) n.val v.toNat s.dev.fc = false := by
        subst hport
        simp [refusesSev, hunlocked, hfree]
      exact ⟨(writeSeverity_sev _ _ _ _).trans ((if_neg (Bool.eq_false_iff.1 hyes)).trans (ofNat_bits v 0 2)), (writeSeverity_refusedCnt _ _ _ _).trans (by rw [hyes]; rfl)⟩

end

section
/-! SUPPORT. The events of the power and reset pins, each where it acts (R430, R500 to R502, R504). -/

namespace Sys2Proof.Machine

open Sys2Proof

/-- Boot runs from here on. -/
def bootBegun (c : Ctl) : Ctl := { c with live := true, boot := { c.boot with running := true } }

section
variable {was c : Ctl} (hheld : c.live = false)
include hheld

/-- R430, R515: boot begins with the last of what it waits for, and with PWRBRK_N low the brake is in force. -/
theorem beginBoot_begins (hpwr : c.pins.pwrOk = true) (hcounts : c.clk.counting = true) (hrst : c.pins.sysRstN = true) (d : Dev) (hwas : was.live = false) :
    beginBoot was c d = (bootBegun c, if c.pins.pwrbrkN then d else devBrake (bootBegun c) d) := by
  have hbegin : c.begin = bootBegun c := if_pos (by simp [hpwr, hcounts, hrst, hheld])
  unfold beginBoot
  rw [hbegin, hwas]
  cases hbrk : c.pins.pwrbrkN <;> simp [bootBegun, hbrk]

theorem beginBoot_waits (hrst : c.pins.sysRstN = false) (d : Dev) : beginBoot was c d = (c, d) := by
  have hbegin : c.begin = c := if_neg (by simp [hrst])
  simp [beginBoot, hbegin, hheld]

end

/-- The control part once the timebase starts (R500, R504). -/
def clocksStarted (c : Ctl) : Ctl :=
  { c with clk := { c.clk with pllLock := true, refclkOk := true, ethRefclkOk := true, counting := true, timebase := 0 } }

/-- The control part in a warm reset (R430). -/
def warmCtl (c : Ctl) : Ctl :=
  { c with pins := { c.pins with sysRstN := false }, boot := { cold := false }, cfg := {}, live := false, clk := { c.clk with onOsc := false } }

section
variable {s : State}

theorem exec_pwrOkRise (h : s.ctl.pins.pwrOk = false) : exec .pwrOkRise s = .next (s.withBoth
    { fuses := s.ctl.fuses, pins := { s.ctl.pins with pwrOk := true, perst := 0, perst0Open := true },
      jtag := { trst := s.ctl.jtag.trst, nonce := (Config.nonce s.dev.free).toNat } } { coldDev s.here with free := s.dev.free + 1 }) := by
  change execPwrOkRise s = _
  unfold execPwrOkRise
  refine onAll_eq ?_
  exact if_neg (Bool.eq_false_iff.1 h)

theorem exec_pwrOkFall (h : s.ctl.pins.pwrOk = true) : exec .pwrOkFall s = .next (s.withBoth
    { fuses := s.ctl.fuses, pins := { s.ctl.pins with pwrOk := false, perst := 0, thermtrip := false }, jtag := { trst := s.ctl.jtag.trst } }
    (coldDev s.here)) := by
  change execPwrOkFall s = _
  unfold execPwrOkFall
  refine onAll_eq ?_
  exact if_pos h

theorem exec_sysRstNAssert (hpwr : s.ctl.pins.pwrOk = true) (hcounts : s.ctl.clk.counting = true) :
    exec .sysRstNAssert s = .next (s.withBoth (warmCtl s.ctl) (warmDev s.here)) := by
  change execSysRstNAssert s = _
  unfold execSysRstNAssert
  refine onAll_eq ?_
  exact if_pos (by rw [hpwr, hcounts]; rfl)

theorem exec_sysRstNRelease (hpwr : s.ctl.pins.pwrOk = true) (hcounts : s.ctl.clk.counting = true) (hheld : s.ctl.live = false) {c : Ctl}
    (hc : c = { s.ctl with pins := { s.ctl.pins with sysRstN := true } }) :
    exec .sysRstNRelease s = .next (s.withBoth (bootBegun c) (if s.ctl.pins.pwrbrkN then s.here else devBrake (bootBegun c) s.here)) := by
  subst hc
  change execSysRstNRelease s = _
  unfold execSysRstNRelease
  refine onAll_eq ?_
  exact (beginBoot_begins (was := s.ctl) (c := { s.ctl with pins := { s.ctl.pins with sysRstN := true } }) hheld hpwr hcounts rfl s.here hheld :)

theorem exec_internalResetRelease (hpwr : s.ctl.pins.pwrOk = true) (hstands : s.ctl.clk.counting = false) {c : Ctl} {d : Dev}
    (h : beginBoot s.ctl (clocksStarted s.ctl) s.here = (c, d)) : exec .internalResetRelease s = .next (s.withBoth c d) := by
  change execInternalResetRelease s = _
  unfold execInternalResetRelease
  refine onAll_eq ?_
  exact (if_pos (by rw [hpwr, hstands]; rfl)).trans h

end

end Sys2Proof.Machine

open Sys2Proof Sys2Proof.Machine

/-- Settles O1: each event is its row's equation above; the internal release begins boot where SYS_RST_N is high already, and else leaves it to wait. -/
theorem resetPinsAct : Obligations.ResetPinsAct := by
  intro s
  refine ⟨exec_pwrOkRise, exec_pwrOkFall, fun hpwr hcounts => ?_, fun hpwr hcounts hheld => ?_, fun hpwr hstands hheld => ?_⟩
  · exact ⟨_, exec_sysRstNAssert hpwr hcounts, rfl, rfl, rfl, rfl, rfl, rfl, rfl, rfl, rfl, rfl, rfl, rfl, fun hself => if_pos hself,
      fun hself => if_neg (Bool.eq_false_iff.1 hself)⟩
  · exact ⟨_, exec_sysRstNRelease hpwr hcounts hheld rfl, rfl, rfl, rfl⟩
  · cases hrst : s.ctl.pins.sysRstN with
    | true =>
      refine ⟨_, exec_internalResetRelease hpwr hstands (beginBoot_begins (was := s.ctl) (c := clocksStarted s.ctl) hheld hpwr rfl hrst s.here hheld),
        rfl, rfl, rfl, rfl, rfl, rfl, rfl, ?_, rfl⟩
      cases hbrk : s.ctl.pins.pwrbrkN with
      | true => exact if_pos hbrk
      | false => exact if_neg (Bool.eq_false_iff.1 hbrk)
    | false => exact ⟨_, exec_internalResetRelease hpwr hstands (beginBoot_waits (was := s.ctl) (c := clocksStarted s.ctl) hheld hrst s.here),
        rfl, rfl, rfl, hheld, rfl, rfl, rfl, rfl, rfl⟩

end

section
/-! SUPPORT. The stages of boot, each where it is in progress (R430, R431, R438). -/

namespace Sys2Proof.Machine

open Sys2Proof

section
variable {c : Ctl} {d : Dev} {obs : BootObs} (hrun : c.boot.running = true) (hworks : d.fc.entering = false)
include hrun hworks

theorem bootStage_one (h : c.boot.stage = 1) : bootStage obs c d = (c.stageDone, setRails c d) := by simp [bootStage, hrun, hworks, h]
theorem bootStage_two (h : c.boot.stage = 2) : bootStage obs c d = (c.stageDone, d) := by simp [bootStage, hrun, hworks, h]
theorem bootStage_three (h : c.boot.stage = 3) : bootStage obs c d = stage3 false obs c d := by simp [bootStage, hrun, hworks, h]
theorem bootStage_four (h : c.boot.stage = 4) : bootStage obs c d = stage4 false obs c d := by simp [bootStage, hrun, hworks, h]
theorem bootStage_five (h : c.boot.stage = 5) : bootStage obs c d = stage5 c d := by simp [bootStage, hrun, hworks, h]
theorem bootStage_six (h : c.boot.stage = 6) : bootStage obs c d = stage6 obs c d := by simp [bootStage, hrun, hworks, h]
theorem bootStage_seven (h : c.boot.stage = 7) : bootStage obs c d = stage7 obs c d := by simp [bootStage, hrun, hworks, h]
theorem bootStage_eight (h : c.boot.stage = 8) : bootStage obs c d = stage8 obs c d := by simp [bootStage, hrun, hworks, h]

theorem bootLimit_one (h : c.boot.stage = 1) : bootLimit obs c d = halt 1 c d := by simp [bootLimit, hrun, hworks, h]
theorem bootLimit_two (h : c.boot.stage = 2) : bootLimit obs c d = halt 2 c d := by simp [bootLimit, hrun, hworks, h]
theorem bootLimit_three (h : c.boot.stage = 3) : bootLimit obs c d = stage3 true obs c d := by simp [bootLimit, hrun, hworks, h]
theorem bootLimit_four (h : c.boot.stage = 4) : bootLimit obs c d = stage4 true obs c d := by simp [bootLimit, hrun, hworks, h]

end

/-- What every step of a fold leaves, the fold leaves. -/
theorem foldRange_keeps {σ α : Type} {f : Nat → σ → σ} (get : σ → α) (h : ∀ i s, get (f i s) = get s) (n : Nat) (s : σ) :
    get (foldRange n s f) = get s := by
  induction n with
  | zero => rfl
  | succ n ih => rw [foldRange_succ, h, ih]

theorem foldl_emit_onlyEmits (vs : List (Nat × Nat)) {d e : Dev} (h : OnlyEmits d e) : OnlyEmits d (vs.foldl (fun x v => x.emit (.vout v.2 v.1)) e) := by
  induction vs generalizing e with
  | nil => exact h
  | cons v vs ih => exact ih (e := e.emit (.vout v.2 v.1)) h

/-- R498: stage 1 sets the rails from the fuses, and what it changes besides goes out. -/
theorem setRails_onlyEmits (c : Ctl) (d : Dev) :
    OnlyEmits (d.modPwr (fun p => { p with vout := (List.range 5).map (fun r => c.fuses.vout.getD r 0) })) (setRails c d) :=
  foldl_emit_onlyEmits _ rfl

theorem setRails_vout (c : Ctl) (d : Dev) : (setRails c d).pwr.vout = (List.range 5).map (fun r => c.fuses.vout.getD r 0) := by
  have hemits := setRails_onlyEmits c d
  generalize setRails c d = e at hemits ⊢
  exact (congrArg (·.pwr.vout) hemits :)

theorem setRails_leaves (c : Ctl) (d : Dev) : { setRails c d with pwr := d.pwr, out := d.out } = d := by
  have hemits := setRails_onlyEmits c d
  generalize setRails c d = e at hemits ⊢
  exact (congrArg (fun e => { e with pwr := d.pwr }) hemits :)

section
variable {c : Ctl} {d : Dev} {obs : BootObs}

theorem stage3_active (h : imageOk c.fuses (slotImage d.flash (activeSlot d.flash)) = true) :
    stage3 false obs c d = (bootSlot (activeSlot d.flash) c d, d) := by
  simp [stage3, h]

/-- R434: past its limit the active slot gives way to the other, where that authenticates in time. -/
theorem stage3_other (hintime : obs.otherLate = false) (h : imageOk c.fuses (slotImage d.flash (1 - activeSlot d.flash)) = true) : stage3 true obs c d =
    (bootSlot (1 - activeSlot d.flash) { c with boot := { c.boot with fwFallback := true } } d, raise c d Fs.fwFallback 0) := by
  simp [stage3, hintime, h]

theorem stage3_halts (h : obs.otherLate = true ∨ imageOk c.fuses (slotImage d.flash (1 - activeSlot d.flash)) = false) : stage3 true obs c d = halt 3 c d := by
  rcases h with h | h <;> simp [stage3, h]

theorem loadPorts_mem (cfg : Cfg) (d : Dev) : (loadPorts cfg d).mem = d.mem := by
  simp only [loadPorts, Dev.modFc_mem, Dev.modFab_mem]
  exact foldRange_keeps Dev.mem (fun _ _ => rfl) 4 d

theorem stage4_mem (h : cfgValid d.flash.config = true) : (stage4 false obs c d).2.mem = d.mem := by
  simp [stage4, h, loadPorts_mem]

/-- R430: the end of a stage is recorded under its number. -/
theorem stage4_time (force : Bool) (h : c.boot.stage = 4) : tabGet 0 (stage4 force obs c d).1.boot.stageTime 4 = c.clk.timebase := by
  rw [show (4 : Nat) = c.boot.stage.toNat by rw [h]; rfl]
  exact tabGet_set_same _ _ _ _

theorem stage7_time (h : c.boot.stage = 7) : tabGet 0 (stage7 obs c d).1.boot.stageTime 7 = c.clk.timebase := by
  rw [show (7 : Nat) = c.boot.stage.toNat by rw [h]; rfl]
  exact tabGet_set_same _ _ _ _

/-- R438: tables that are not locked are taken from a valid image and locked; locked ones stay. -/
theorem stage5_open (hopen : c.ptLock = false) (hvalid : c.boot.cfgDefaulted = false) :
    stage5 c d = ({ c.stageDone with pt := ptOfImage d.flash.config, ptLock := true }, d) := by
  simp [stage5, hopen, hvalid, Ctl.stageDone]

theorem stage5_locked (hlocked : c.ptLock = true) : ∃ stale, stage5 c d = (({ c with boot := { c.boot with ptStale := stale } } : Ctl).stageDone, d) := by
  rw [stage5, hlocked]
  exact ⟨_, rfl⟩

/-- R166, R175: with nothing logged and nothing failed, only the spares of a cold reset are replaced. -/
theorem stage6_clean (hpcs : obs.pcs = []) (hlog : d.flash.log = []) :
    stage6 obs c d = (c.stageDone, { d with active := if c.boot.cold then benchesBySpare c.fuses else d.active }) := by
  cases hcold : c.boot.cold <;> simp [stage6, hpcs, hlog, hcold]

theorem mbx_foldRange_modMbx (f : Mailbox → Mailbox) (n k : Nat) (d : Dev) :
    (foldRange n d (fun k x => x.modMbx k f)).mbx k = if k < n then f (d.mbx k) else d.mbx k := by
  induction n with
  | zero => rfl
  | succ n ih =>
    rw [foldRange_succ]
    by_cases hk : k = n
    · subst hk
      rw [Dev.mbx_modMbx_same, ih, if_neg (Nat.lt_irrefl k), if_pos (Nat.lt_succ_self k)]
    · rw [Dev.mbx_modMbx_ne _ _ hk, ih]
      exact if_congr (by omega) rfl rfl

/-- The control part at READY (R430, R432). -/
def readyCtl (c : Ctl) (d : Dev) : Ctl :=
  { c.stageDone with
    boot := { c.stageDone.boot with stage := 9, ready := true, running := false, readyTime := c.clk.timebase, stageTime := tabSet 0 c.stageDone.boot.stageTime 9 c.clk.timebase },
    fuses := { c.fuses with svn := max c.fuses.svn (leAt (slotImage d.flash c.boot.fwSlot.toNat) 8 2) } }

/-- R432: at READY, with the loader sound or not wanted, every mailbox is IDLE. -/
theorem stage8_ready (h : c.cfg.puwellStart = false ∨ imageOk c.fuses d.flash.loader = true) :
    (stage8 obs c d).1 = readyCtl c d ∧ ∀ k < 16, ((stage8 obs c d).2.mbx k).st = .idle := by
  have puwellRun_mbx (e : Dev) (k : Nat) : (e.modSilkai (fun m => { m with puwellRun := true })).mbx k = e.mbx k := rfl
  cases hstart : c.cfg.puwellStart with
  | false =>
    simp only [stage8, hstart, Bool.not_false, if_true]
    exact ⟨rfl, fun k hk => by rw [mbx_foldRange_modMbx, if_pos hk]⟩
  | true =>
    have hsound : imageOk c.fuses d.flash.loader = true := h.resolve_left (by simp [hstart])
    simp only [stage8, hstart, hsound, Bool.not_true, Bool.false_eq_true, if_false, if_true]
    exact ⟨rfl, fun k hk => by rw [puwellRun_mbx, mbx_foldRange_modMbx, if_pos hk]⟩

end

theorem exec_bootStageEnd {s : State} {obs : BootObs} {r : Ctl × Dev} (h : bootStage obs s.ctl s.here = r) :
    exec (.bootStageEnd obs) s = .next (s.withBoth r.1 r.2) := by
  subst h
  change execBootStageEnd obs s = _
  unfold execBootStageEnd
  exact onAll_eq rfl

theorem exec_bootStageLimitExpiry {s : State} {obs : BootObs} {r : Ctl × Dev} (h : bootLimit obs s.ctl s.here = r) :
    exec (.bootStageLimitExpiry obs false) s = .next (s.withBoth r.1 r.2) := by
  subst h
  change execBootStageLimitExpiry obs s false = _
  unfold execBootStageLimitExpiry
  exact onAll_eq rfl

/-- R24, R463: the stage that ends in the cycle of its limit is counted. -/
theorem exec_bootStageLimitExpiry_tie {s : State} {obs : BootObs} (hrun : s.ctl.boot.running = true) (hworks : s.dev.fc.entering = false) :
    exec (.bootStageLimitExpiry obs true) s = .next (s.withDev (s.here.modFc (fun f => { f with tieCnt := cntInc f.tieCnt }))) := by
  change execBootStageLimitExpiry obs s true = _
  unfold execBootStageLimitExpiry
  refine onAll_eq (c := s.ctl) ?_
  simp [hrun, State.here, hworks]

end Sys2Proof.Machine

open Sys2Proof Sys2Proof.Machine

/-- Settles O2: the stage in progress is the function of its number, of which the lemmas above say what it leaves; a halt is `halt`. -/
theorem bootStagesRun : Obligations.BootStagesRun := by
  intro s obs hrun hworks
  replace hworks : s.here.fc.entering = false := hworks
  have next_stage {n m : BitVec 4} (h : s.ctl.boot.stage = n) (hm : n + 1 = m) : s.ctl.boot.stage + 1 = m := h ▸ hm
  refine ⟨fun i hi => ?_, fun i hi => ?_, fun n c d => ⟨rfl, rfl, rfl⟩⟩
  · obtain rfl := List.mem_singleton.1 hi
    refine ⟨fun h => ?_, fun h => exec_bootStageEnd (bootStage_two hrun hworks h), fun h => ?_, fun h => ?_, fun h hopen hvalid => ?_, fun h hlocked => ?_,
      fun h hpcs hlog => ?_, fun h => ?_, fun h hsound => ?_⟩
    · exact ⟨_, exec_bootStageEnd (bootStage_one hrun hworks h), rfl, setRails_vout s.ctl s.here, setRails_leaves s.ctl s.here⟩
    · by_cases hok : imageOk s.ctl.fuses (slotImage s.dev.flash (activeSlot s.dev.flash)) = true
      · exact ⟨_, exec_bootStageEnd ((bootStage_three hrun hworks h).trans (stage3_active (c := s.ctl) (d := s.here) hok)), fun _ => ⟨next_stage h rfl, rfl, rfl, rfl⟩⟩
      · exact ⟨_, exec_bootStageEnd (bootStage_three hrun hworks h), fun h => absurd h hok⟩
    · refine ⟨_, exec_bootStageEnd (bootStage_four hrun hworks h), next_stage h rfl, stage4_time (obs := obs) false h, rfl, fun hok => ⟨if_pos hok, stage4_mem hok⟩, fun hbad => if_neg (Bool.eq_false_iff.1 hbad)⟩
    · exact ⟨_, exec_bootStageEnd ((bootStage_five hrun hworks h).trans (stage5_open (c := s.ctl) (d := s.here) hopen hvalid)), next_stage h rfl, rfl, congrArg ptOfImage (Eq.refl s.dev.flash.config), rfl⟩
    · obtain ⟨stale, hstage⟩ := stage5_locked (c := s.ctl) (d := s.here) hlocked
      exact ⟨_, exec_bootStageEnd ((bootStage_five hrun hworks h).trans hstage), next_stage h rfl, hlocked, rfl, rfl⟩
    · exact ⟨_, exec_bootStageEnd ((bootStage_six hrun hworks h).trans (stage6_clean hpcs hlog)), rfl, rfl⟩
    · exact ⟨_, exec_bootStageEnd (bootStage_seven hrun hworks h), next_stage h rfl, rfl, stage7_time (d := s.here) (obs := obs) h⟩
    · obtain ⟨hctl, hidle⟩ := stage8_ready (c := s.ctl) (d := s.here) (obs := obs) hsound
      exact ⟨_, exec_bootStageEnd (bootStage_eight hrun hworks h), (congrArg (·.boot.ready) hctl :), (congrArg (·.boot.stage) hctl :),
        (congrArg (·.boot.readyTime) hctl :), (congrArg (·.boot.running) hctl :), hidle⟩
  · obtain rfl := List.mem_singleton.1 hi
    refine ⟨fun h => exec_bootStageLimitExpiry (bootLimit_one hrun hworks h), fun h => exec_bootStageLimitExpiry (bootLimit_two hrun hworks h), fun h hlate => ?_,
      fun h hintime hok => ?_, fun h => ?_, exec_bootStageLimitExpiry_tie hrun hworks⟩
    · exact exec_bootStageLimitExpiry ((bootLimit_three hrun hworks h).trans (stage3_halts (c := s.ctl) (d := s.here) hlate))
    · exact ⟨_, exec_bootStageLimitExpiry ((bootLimit_three hrun hworks h).trans (stage3_other (c := s.ctl) (d := s.here) hintime hok)), next_stage h rfl, rfl, rfl⟩
    · exact ⟨_, exec_bootStageLimitExpiry (bootLimit_four hrun hworks h), rfl, rfl, rfl⟩

end

section
/-! SUPPORT. The division of a bay is the slowest asked of it (R508). -/

namespace Sys2Proof.Machine

open Sys2Proof

/-- A bay at the slowest of its demands. -/
def divided (p : Power) (y : BayPower) : BayPower := { y with div := demand p y }

/-- One bay takes the slowest of its demands. -/
def divideBay (b : Nat) (d : Dev) : Dev := d.modBay b (divided d.pwr)

theorem redivide_eq (d : Dev) : d.redivide = foldRange 4 d divideBay := rfl

/-- What is asked of a bay besides its own demands is the brake's part. -/
theorem divided_congr {p q : Power} (hbrake : p.brake = q.brake) (hdiv : p.brakeDiv = q.brakeDiv) (y : BayPower) : divided p y = divided q y := by
  simp only [divided, demand, hbrake, hdiv]

theorem foldRange_divideBay_bay (d : Dev) (b n : Nat) :
    (foldRange n d divideBay).bay b = if b < n then divided d.pwr (d.bay b) else d.bay b := by
  induction n with
  | zero => simp [foldRange]
  | succ n ih =>
    have hbrake := foldRange_keeps (f := divideBay) (fun x : Dev => x.pwr.brake) (fun _ _ => rfl) n d
    have hdiv := foldRange_keeps (f := divideBay) (fun x : Dev => x.pwr.brakeDiv) (fun _ _ => rfl) n d
    rw [foldRange_succ]
    by_cases hb : b = n
    · subst hb
      rw [divideBay, Dev.bay_modBay_same, ih, if_neg (Nat.lt_irrefl b), if_pos (Nat.lt_succ_self b)]
      exact divided_congr hbrake hdiv _
    · rw [divideBay, Dev.bay_modBay_ne _ _ hb, ih]
      exact if_congr (by omega) rfl rfl

/-- R508: each of the four bays runs at the slowest division asked of it. -/
theorem redivide_bay (d : Dev) {b : Nat} (hb : b < 4) : (d.redivide).bay b = divided d.pwr (d.bay b) := by
  rw [redivide_eq, foldRange_divideBay_bay, if_pos hb]

theorem redivide_brake (d : Dev) : d.redivide.pwr.brake = d.pwr.brake :=
  foldRange_keeps (f := divideBay) (fun x : Dev => x.pwr.brake) (fun _ _ => rfl) 4 d
theorem redivide_brakeDiv (d : Dev) : d.redivide.pwr.brakeDiv = d.pwr.brakeDiv :=
  foldRange_keeps (f := divideBay) (fun x : Dev => x.pwr.brakeDiv) (fun _ _ => rfl) 4 d

end Sys2Proof.Machine
end

section
/-! SUPPORT. A raise leaves the power controller as it is, whatever it stops (R447, R460). -/

namespace Sys2Proof.Machine

open Sys2Proof

/-- `e` holds the power controller of `d`. -/
structure SamePower (d e : Dev) : Prop where
  pwr : e.pwr = d.pwr

namespace SamePower

theorem refl (d : Dev) : SamePower d d := ⟨rfl⟩

theorem trans {d e g : Dev} (h : SamePower d e) (h' : SamePower e g) : SamePower d g := ⟨h'.pwr.trans h.pwr⟩

theorem ite {p : Prop} [Decidable p] {d e g : Dev} (h : SamePower d e) (h' : SamePower d g) : SamePower d (if p then e else g) := by
  split
  · exact h
  · exact h'

theorem foldl {α : Type} {f : Dev → α → Dev} (h : ∀ d x, SamePower d (f d x)) (l : List α) (d : Dev) : SamePower d (l.foldl f d) :=
  List.foldlRecOn (motive := SamePower d) l f (refl d) fun e he x _ => he.trans (h e x)

theorem foldRange {f : Nat → Dev → Dev} (h : ∀ i d, SamePower d (f i d)) (n : Nat) (d : Dev) : SamePower d (foldRange n d f) :=
  ⟨foldRange_keeps Dev.pwr (fun i d => (h i d).pwr) n d⟩

end SamePower

theorem OnlyWrites.samePower {d e : Dev} (h : OnlyWrites d e) : SamePower d e := ⟨(congrArg Dev.pwr h :)⟩

/-! ### Engines, stagers and planes stop (R87, R242, R252) -/

theorem pokeAny_samePower (d : Dev) (a : Nat) (bs : List Byte) : SamePower d (d.pokeAny a bs) := .ite ⟨rfl⟩ (poke_onlyWrites d a bs).samePower

theorem unlandLines_samePower (d : Dev) (p : Nat × List Byte) : SamePower d (d.unlandLines p) :=
  .foldl (fun e _ => .ite (.refl e) (pokeAny_samePower e _ _)) _ d

theorem storeTags_samePower (t : Task) (x : DmaDesc) (d : Dev) : SamePower d (d.storeTags t x) :=
  .foldRange (fun _ e => (setTag_onlyWrites e _ _).samePower) _ d

theorem abandonTask_samePower (d : Dev) (i eng : Nat) (t : Task) : SamePower d (d.abandonTask i eng t) := by
  have horphans : SamePower d (if eng = 0 then d.orphanAccs i else d) := .ite ⟨rfl⟩ ⟨rfl⟩
  refine .ite (.ite (.ite (horphans.trans (storeTags_samePower t _ _)) horphans) (horphans.trans ?_)) (.refl d)
  exact ⟨(SamePower.foldl unlandLines_samePower t.old _).pwr⟩

theorem countRan_samePower (d : Dev) (i eng : Nat) (t : Task) : SamePower d (d.countRan i eng t) := .ite ⟨rfl⟩ (.refl d)

theorem abandonEng_samePower (i : Nat) (d : Dev) (eng : Nat) : SamePower d (d.abandonEng i eng) := by
  unfold Dev.abandonEng
  split
  · exact .refl d
  · next t _ _ => exact ⟨((abandonTask_samePower d i eng t).trans (countRan_samePower _ i eng t)).pwr⟩

theorem abandonBench_samePower (d : Dev) (i : Nat) : SamePower d (d.abandonBench i) :=
  SamePower.trans (SamePower.foldl (abandonEng_samePower i) [0, 1, 2, 3] d) ⟨rfl⟩

theorem abandonAll_samePower (d : Dev) : SamePower d d.abandonAll := .foldl abandonBench_samePower _ d

theorem signal_samePower (d : Dev) (s : Nat × Nat × Nat) : SamePower d (d.signal s.1 s.2.1 s.2.2) := ⟨rfl⟩

theorem applyOwn_samePower (d : Dev) : SamePower d d.applyOwn := by
  unfold Dev.applyOwn
  exact .foldl (fun e s => signal_samePower e s) _ d

theorem landWord_samePower (d : Dev) (a v : Nat) : SamePower d (d.landWord a v) := by
  unfold Dev.landWord
  split
  · exact .refl d
  · exact .ite (poke_onlyWrites d a _).samePower (.refl d)

theorem endColl_samePower (d : Dev) (o : CollOp) : SamePower d (d.endColl o) := landWord_samePower d _ _

theorem stopStager_samePower (d : Dev) (b : Nat) : SamePower d (d.stopStager b) := by
  have hfreed : SamePower (d.orphanFill b) ((d.stager b).filling.foldl Dev.freeSeg (d.orphanFill b)) :=
    .foldl (fun e id => (OnlyWrites.freeSeg id e).samePower) _ _
  unfold Dev.stopStager
  dsimp only
  split
  · exact ⟨(hfreed.trans (landWord_samePower _ _ _)).pwr⟩
  · exact ⟨hfreed.pwr⟩

theorem stopStagers_samePower (d : Dev) (now : Nat) : SamePower d (d.stopStagers now) :=
  SamePower.trans (e := (tabKeys d.stagers).foldl Dev.stopStager d) (.foldl stopStager_samePower _ d) ⟨rfl⟩

theorem stopJigs_samePower (stay : Queue → Issued → Bool) (d : Dev) : SamePower d (d.stopJigs stay) := ⟨rfl⟩
theorem stopPlanes_samePower (d : Dev) : SamePower d d.stopPlanes := ⟨rfl⟩
theorem stopsPlanes_samePower (d : Dev) : SamePower d d.stopsPlanes := .ite ⟨rfl⟩ ⟨rfl⟩
theorem stopDone_samePower (d : Dev) : SamePower d d.stopDone := .ite ⟨rfl⟩ ⟨rfl⟩
theorem stopUpdates_samePower (d : Dev) : SamePower d d.stopUpdates := ⟨rfl⟩
theorem applyEarly_samePower (d : Dev) : SamePower d d.applyEarly := ⟨rfl⟩
theorem modLife_samePower (f : StepLife → StepLife) (d : Dev) : SamePower d (d.modLife f) := ⟨rfl⟩
theorem modColl_samePower (f : Coll → Coll) (d : Dev) : SamePower d (d.modColl f) := ⟨rfl⟩

theorem abortStep_samePower (d : Dev) (now : Nat) : SamePower d (d.abortStep now) := by
  have hstopped := ((((abandonAll_samePower d).trans (applyOwn_samePower _)).trans (stopJigs_samePower Dev.owesRemote _)).trans
    (stopStagers_samePower _ now)).trans (stopsPlanes_samePower _)
  unfold Dev.abortStep
  dsimp only
  generalize Dev.stopsPlanes _ = e at hstopped ⊢
  generalize hended : List.foldl Dev.endColl _ _ = x
  have hx : SamePower e x := hended ▸ SamePower.trans (modColl_samePower _ e) (.foldl endColl_samePower _ _)
  generalize hdone : x.modLife _ = y
  have hy : SamePower x y := hdone ▸ modLife_samePower _ x
  exact hstopped.trans (hx.trans (hy.trans ((SamePower.ite (stopDone_samePower y) (.refl y)).trans (applyEarly_samePower _))))

/-! ### Containment, the safe state, and the raise itself (R447, R449, R460) -/

theorem contain_samePower (d : Dev) (now : Nat) : SamePower d (d.contain now) := by
  unfold Dev.contain
  split
  · exact abortStep_samePower d now
  · exact abortStep_samePower d now
  · exact .ite (.ite (stopPlanes_samePower d) (((stopPlanes_samePower d).trans (modLife_samePower _ _)).trans (stopDone_samePower _)))
      (abortStep_samePower d now)
  · exact .refl d
  · exact .ite (stopUpdates_samePower d) (.refl d)

theorem modBench_samePower (d : Dev) (i : Nat) (f : Bench → Bench) : SamePower d (d.modBench i f) := ⟨rfl⟩

theorem gateBenches_samePower (n : Nat) (d : Dev) :
    SamePower d (foldRange n d (fun i x => if x.benchActive i then x.modBench i (fun b => { b with gated := true }) else x)) :=
  .foldRange (fun i e => .ite (modBench_samePower e i _) (.refl e)) n d

theorem enterSafe_samePower (d : Dev) (now src : Nat) : SamePower d (d.enterSafe now src) := by
  have hstopped := (abandonAll_samePower d).trans (stopPlanes_samePower _)
  unfold Dev.enterSafe
  dsimp only
  generalize Dev.stopPlanes _ = e at hstopped ⊢
  generalize hgated : foldRange 132 _ _ = x
  have hx : SamePower { e with homes := tabMap {} e.homes Dev.safeHome } x := hgated ▸ gateBenches_samePower 132 _
  exact ⟨hx.pwr.trans hstopped.pwr⟩

theorem modMbx_samePower (d : Dev) (k : Nat) (f : Mailbox → Mailbox) : SamePower d (d.modMbx k f) := ⟨rfl⟩

theorem holdSilkai_samePower (d : Dev) : SamePower d d.holdSilkai :=
  ⟨(SamePower.foldRange (fun k e => modMbx_samePower e k _) 16 (d.modSilkai (fun m => { m with heldReset := true }))).pwr⟩

theorem raiseOnce_samePower (c : Ctl) (d : Dev) (rs : List (Nat × Nat × Nat)) : SamePower d (raiseOnce c d rs) := by
  have hacts (e : Dev) (src : Option Nat) (eff : Nat) : SamePower e (match src with
      | some s => e.enterSafe c.now s
      | none => if eff = 2 then e.contain c.now else e) := by
    split
    · exact enterSafe_samePower e _ _
    · exact .ite (contain_samePower e _) (.refl e)
  unfold raiseOnce
  dsimp only
  generalize List.foldl _ _ (mergeRaises rs) = r
  have hacted : SamePower d _ := SamePower.trans (e := { d with fc := r.1 }) ⟨rfl⟩ (.ite (p := d.fc.entering = true) (.refl _) (hacts _ r.2.2 r.2.1))
  exact .ite (.refl d) (.ite (hacted.trans (holdSilkai_samePower _)) hacted)

theorem noteCuts_samePower (c : Ctl) (d e : Dev) : SamePower e (noteCuts c d e) := .foldl (fun x r => raiseOnce_samePower c x [r]) _ e

/-- R447: the power controller keeps its state through a raise. -/
theorem raise_samePower (c : Ctl) (d : Dev) (src info : Nat) : SamePower d (raise c d src info) :=
  .ite (raiseOnce_samePower c d _) ((raiseOnce_samePower c d _).trans (noteCuts_samePower c d _))

/-! ### The brake over a slower demand (R508, R515) -/

/-- PWRBRK_N, where the blocks run, leaves what `devBrake` leaves. -/
theorem exec_pwrbrkNAssert {s : State} (hlive : s.Live) :
    exec .pwrbrkNAssert s = .next (s.withBoth { s.ctl with pins := { s.ctl.pins with pwrbrkN := false } } (devBrake s.ctl s.here)) := by
  change execPwrbrkNAssert s = _
  unfold execPwrbrkNAssert
  exact onAll_eq (congrArg (Prod.mk _) (if_pos hlive))

/-- The device on which the brake's fault is raised (R515). -/
def braked (d : Dev) : Dev := (d.modPwr (fun p => { p with brake := true, brakeDiv := 10, brakeCnt := cntInc p.brakeCnt })).redivide

theorem devBrake_eq {c : Ctl} {d : Dev} (h : d.pwr.brake = false) : devBrake c d = raise c (braked d) Fs.pwrBrake 0 :=
  if_neg (Bool.eq_false_iff.1 h)

/-- Whatever device is named for the result of PWRBRK_N, it is this one under its raise. -/
theorem dev_of_exec_pwrbrkNAssert {s : State} {c : Ctl} {e : Dev} (hlive : s.Live) (hbrake : s.here.pwr.brake = false)
    (h : exec .pwrbrkNAssert s = .next (s.withBoth c e)) : raise s.ctl (braked s.here) Fs.pwrBrake 0 = e := by
  have hstate := Host.Outcome.next.inj ((exec_pwrbrkNAssert hlive).symm.trans h)
  exact (devBrake_eq hbrake).symm.trans (congrArg State.dev hstate :)

/-- What the devices under one and the same raise are differs in no bay's division: the raise hides none. -/
theorem bay_div_of_raise_eq {c c' : Ctl} {d e : Dev} {src info : Nat} (h : raise c d src info = raise c' e src info) (b : Nat) :
    (d.bay b).div = (e.bay b).div := by
  have hpwr : d.pwr = e.pwr := (raise_samePower c d src info).pwr.symm.trans ((congrArg Dev.pwr h).trans (raise_samePower c' e src info).pwr)
  rw [Dev.bay, Dev.bay, hpwr]

/-- A running part whose bay 0 the limit loop holds to ÷11, slower than the brake's ÷10. -/
def overDivided : State := { ctl := { live := true }, dev := ({} : Dev).modBay 0 (fun y => { y with limitDiv := 11 }) }

/-- Bay 0 of that part runs at ÷11 under the brake too: every bay takes the slowest of its demands. -/
theorem overDivided_braked : ((braked overDivided.here).bay 0).div = 11 := by
  rw [braked, redivide_bay _ (by omega)]
  decide

end Sys2Proof.Machine

open Sys2Proof Sys2Proof.Machine

/-- Refutes O3: the clause of PWRBRK_N has every bay at ÷10, for every state. In a state whose limit loop asks ÷11 of a bay, which no step
brings about, the bay runs at ÷11 (R508), and the raise hides none of that. -/
theorem not_clockAndPinEventsAct : ¬ Obligations.ClockAndPinEventsAct := by
  intro h
  obtain ⟨-, -, -, -, -, hbrake, -⟩ := h overDivided
  obtain ⟨d, hexec, -, -, hdiv⟩ := hbrake rfl rfl
  have hsame := bay_div_of_raise_eq (dev_of_exec_pwrbrkNAssert (s := overDivided) rfl rfl hexec) 0
  rw [overDivided_braked, hdiv 0 (by omega)] at hsame
  exact absurd hsame (by decide)

end

section
/-! SUPPORT. The thermal loop moves a bay by its own units (R516); the power limit where it moves none (R509). -/

namespace Sys2Proof.Machine

open Sys2Proof

/-- R508: a bay at the slowest of its demands still asks for what it asked. -/
theorem divided_div (d : Dev) {b : Nat} (hb : b < 4) : (d.redivide.bay b).div = demand d.redivide.pwr (d.redivide.bay b) := by
  rw [redivide_bay d hb]
  exact (congrArg BayPower.div (divided_congr (redivide_brake d) (redivide_brakeDiv d) (d.bay b)) : _).symm

/-- A change of the power controller that names no bay leaves the bays. -/
theorem bay_modPwr {d : Dev} {f : Power → Power} (h : (f d.pwr).bays = d.pwr.bays) (k : Nat) : (d.modPwr f).bay k = d.bay k := by
  rw [Dev.bay, Dev.modPwr_pwr, h, Dev.bay]

/-- A row that acts on the device alone leaves the control part and the queue. -/
theorem withDev_ctl (s : State) (d : Dev) : (s.withDev d).ctl = s.ctl := rfl
theorem withDev_pending (s : State) (d : Dev) : (s.withDev d).pending = s.pending := rfl

/-! ### A recovery step after the brake (R515) -/

section
variable {d : Dev} (c : Ctl) (h : d.pwr.brake = false)
include h

theorem devBrakeStep_eq : devBrakeStep c d = (d.modPwr (fun p => { p with brakeDiv := faster p.brakeDiv })).redivide := if_neg (Bool.eq_false_iff.1 h)

theorem devBrakeStep_brakeDiv : (devBrakeStep c d).pwr.brakeDiv = faster d.pwr.brakeDiv := by
  rw [devBrakeStep_eq c h, redivide_brakeDiv, Dev.modPwr_pwr]

theorem devBrakeStep_div {b : Nat} (hb : b < 4) :
    ((devBrakeStep c d).bay b).div = max (max (d.bay b).limitDiv (d.bay b).thermDiv) (faster d.pwr.brakeDiv) := by
  rw [devBrakeStep_eq c h, redivide_bay _ hb, bay_modPwr (f := fun p => { p with brakeDiv := faster p.brakeDiv }) rfl b, divided, demand, Dev.modPwr_pwr]
  exact congrArg (max _) (if_neg (Bool.eq_false_iff.1 h))

end

/-! ### One bay at the thermal loop's tick (R516) -/

section
variable {d : Dev} {b : Nat}

/-- What a bay's turn makes of the bay: a demand of the thermal loop, or nothing. -/
def thermTurn (b : Nat) (d : Dev) (y : BayPower) : BayPower :=
  if bayHot d.pwr b then (if y.div = 10 then y else { y with thermDiv := slower y.div })
  else if bayWarm d.pwr b || y.thermDiv = 5 then y
  else if 10 ≤ d.pwr.coolMs.getD b 0 + 1 then { y with thermDiv := faster y.thermDiv } else y

theorem thermBay_bay : (thermBay b d).bay b = thermTurn b d (d.bay b) := by
  unfold thermBay thermTurn
  dsimp only
  split_ifs
  · rfl
  · exact (bay_modPwr rfl b).trans (Dev.bay_modBay_same d b _)
  · rfl
  · exact (bay_modPwr rfl b).trans (Dev.bay_modBay_same d b _)
  · rfl

theorem thermBay_bay_ne {k : Nat} (h : k ≠ b) : (thermBay b d).bay k = d.bay k := by
  unfold thermBay
  dsimp only
  split_ifs
  · rfl
  · exact (bay_modPwr rfl k).trans (Dev.bay_modBay_ne d _ h)
  · rfl
  · exact (bay_modPwr rfl k).trans (Dev.bay_modBay_ne d _ h)
  · rfl

/-- A bay's turn leaves what the turns of the others look at: temperatures and warnings. -/
theorem thermBay_readings : ((thermBay b d).pwr.temps, (thermBay b d).pwr.warm) = (d.pwr.temps, d.pwr.warm) := by
  unfold thermBay
  dsimp only
  split_ifs <;> rfl

theorem thermTurn_limitDiv (y : BayPower) : (thermTurn b d y).limitDiv = y.limitDiv := by unfold thermTurn; split_ifs <;> rfl

theorem thermTurn_hot (h : bayHot d.pwr b = true) {y : BayPower} (hdiv : y.div ≠ 10) : (thermTurn b d y).thermDiv = slower y.div := by
  rw [thermTurn, if_pos h, if_neg hdiv]

theorem thermTurn_slowest (h : bayHot d.pwr b = true) {y : BayPower} (hdiv : y.div = 10) : thermTurn b d y = y := by
  rw [thermTurn, if_pos h, if_pos hdiv]

theorem thermTurn_warm (h : bayHot d.pwr b = false) (hwarm : bayWarm d.pwr b = true) (y : BayPower) : thermTurn b d y = y := by
  rw [thermTurn, h, hwarm]
  rfl

end

/-! ### The turns of the four bays -/

theorem foldRange_thermBay_readings (n : Nat) (d : Dev) :
    ((foldRange n d thermBay).pwr.temps, (foldRange n d thermBay).pwr.warm) = (d.pwr.temps, d.pwr.warm) :=
  foldRange_keeps (fun x : Dev => (x.pwr.temps, x.pwr.warm)) (fun _ _ => thermBay_readings) n d

theorem foldRange_thermBay_hot (n b : Nat) (d : Dev) : bayHot (foldRange n d thermBay).pwr b = bayHot d.pwr b := by
  unfold bayHot
  rw [(Prod.mk.inj (foldRange_thermBay_readings n d)).1]

theorem foldRange_thermBay_warm (n b : Nat) (d : Dev) : bayWarm (foldRange n d thermBay).pwr b = bayWarm d.pwr b := by
  unfold bayWarm
  rw [(Prod.mk.inj (foldRange_thermBay_readings n d)).2]

theorem foldRange_thermBay_ahead {n b : Nat} (h : n ≤ b) (d : Dev) : (foldRange n d thermBay).bay b = d.bay b := by
  induction n with
  | zero => rfl
  | succ n ih => rw [foldRange_succ, thermBay_bay_ne (by omega), ih (by omega)]

/-- After the turns each bay is what its own turn made of it. -/
theorem foldRange_thermBay_bay {n b : Nat} (h : b < n) (d : Dev) : (foldRange n d thermBay).bay b = thermTurn b (foldRange b d thermBay) (d.bay b) := by
  induction n with
  | zero => omega
  | succ n ih =>
    rw [foldRange_succ]
    by_cases hb : b = n
    · rw [hb, thermBay_bay, foldRange_thermBay_ahead (Nat.le_refl n)]
    · rw [thermBay_bay_ne hb, ih (by omega)]

/-- R516: the tick moves each bay by its own units. -/
theorem devThermalTick_moves (c : Ctl) (d : Dev) {b : Nat} (hb : b < 4) :
    ((devThermalTick c d).bay b).div = demand (devThermalTick c d).pwr ((devThermalTick c d).bay b) ∧
    ((devThermalTick c d).bay b).limitDiv = (d.bay b).limitDiv ∧
    (bayHot d.pwr b = true → (d.bay b).div ≠ 10 → ((devThermalTick c d).bay b).thermDiv = slower (d.bay b).div) ∧
    (bayHot d.pwr b = true → (d.bay b).div = 10 → ((devThermalTick c d).bay b).thermDiv = (d.bay b).thermDiv) ∧
    (bayHot d.pwr b = false → bayWarm d.pwr b = true → ((devThermalTick c d).bay b).thermDiv = (d.bay b).thermDiv) := by
  have hhot := foldRange_thermBay_hot b b d
  have hwarm := foldRange_thermBay_warm b b d
  have hslowest := divided_div (foldRange 4 d thermBay) hb
  have hturn := redivide_bay (foldRange 4 d thermBay) hb
  rw [foldRange_thermBay_bay hb] at hturn
  unfold devThermalTick
  generalize (foldRange 4 d thermBay).redivide = e at hslowest hturn ⊢
  refine ⟨hslowest, ?_, fun h hdiv => ?_, fun h hdiv => ?_, fun h hw => ?_⟩ <;> rw [hturn, divided]
  · exact thermTurn_limitDiv (d.bay b)
  · exact thermTurn_hot (hhot.trans h) hdiv
  · exact (congrArg BayPower.thermDiv (thermTurn_slowest (hhot.trans h) hdiv) :)
  · exact (congrArg BayPower.thermDiv (thermTurn_warm (hhot.trans h) (hwarm.trans hw) (d.bay b)) :)

/-! ### The power limit (R509) -/

/-- With every bay at ÷10 there is none to slow. -/
theorem limitSlow_none {d : Dev} (h : ∀ b < 4, (d.bay b).div = 10) (ps : List Nat) : limitSlow d ps = none := by
  have hnone : (List.range 4).filter (fun b => (d.bay b).div != 10) = [] := List.filter_eq_nil_iff.2 (by
    intro b hb
    rw [h b (List.mem_range.1 hb)]
    decide)
  rw [limitSlow, hnone]
  rfl

theorem devPowerEval_misses {d : Dev} {c : Ctl} {mw : W32} {ps : List Nat} (hover : d.pwr.limit.toNat * 1000 < mw.toNat)
    (h : ∀ b < 4, (d.bay b).div = 10) : devPowerEval mw ps c d = { d with pwr := { d.pwr with inputMw := mw, belowMs := 0, limitMiss := true } } := by
  unfold devPowerEval
  dsimp only
  rw [if_pos hover]
  split
  · rfl
  · next hsome => exact nomatch (limitSlow_none h ps).symm.trans hsome

theorem devPowerEval_between {d : Dev} {c : Ctl} {mw : W32} {ps : List Nat} (hunder : mw.toNat ≤ d.pwr.limit.toNat * 1000)
    (hnear : d.pwr.limit.toNat * 1000 * 95 ≤ mw.toNat * 100) :
    devPowerEval mw ps c d = { d with pwr := { d.pwr with inputMw := mw, belowMs := 0 } } := by
  unfold devPowerEval
  dsimp only
  rw [if_neg (Nat.not_lt.2 hunder), if_neg (Nat.not_lt.2 hnear)]
  rfl

end Sys2Proof.Machine

open Sys2Proof Sys2Proof.Machine

/-- Settles O4: each bay is the slowest of its demands after every move, and the thermal loop's turn of a bay looks at that bay's units alone. -/
theorem divisionLoopsMove : Obligations.DivisionLoopsMove := by
  intro s hlive
  refine ⟨fun hbrake => ?_, ?_, fun mw p0 p1 p2 p3 => ?_⟩
  · exact ⟨_, onDev_eq hlive rfl, withDev_ctl _ _, withDev_pending _ _, devBrakeStep_brakeDiv (d := s.here) s.ctl hbrake, fun b hb => devBrakeStep_div (d := s.here) s.ctl hbrake hb⟩
  · exact ⟨_, onDev_eq hlive rfl, withDev_ctl _ _, withDev_pending _ _, fun b hb => devThermalTick_moves s.ctl s.here hb⟩
  · exact ⟨_, onDev_eq hlive rfl, withDev_ctl _ _, withDev_pending _ _, fun hover h => devPowerEval_misses (d := s.here) hover h,
      fun hunder hnear => devPowerEval_between (d := s.here) hunder hnear⟩

end

section
/-! SUPPORT. What a tick of the timebase counts needs a timebase that counts (R504, R513). -/

namespace Sys2Proof.Machine

open Sys2Proof

/-- R504: where the timebase stands, no wait for a wake is counted. -/
theorem tick_standing {s : State} (hstands : s.ctl.clk.counting = false) (hempty : s.dev.fab.ports = []) :
    s.tick = { s with ctl := s.ctl.tick } := by
  have hcounts : s.ctl.tick.clk.counting = false := by rw [Ctl.tick, if_neg (Bool.eq_false_iff.1 hstands), hstands]
  have hheartbeat : countHeartbeat { s with ctl := s.ctl.tick } = { s with ctl := s.ctl.tick } := if_neg (by simp [hcounts])
  simp only [State.tick, hheartbeat, hstands, hempty, Bool.and_false, Bool.false_and, Bool.false_eq_true, if_false, List.any_nil]

/-- Blocks that run while the timebase stands, and one request for a wake that waits in bay 0. -/
def waitsUncounted : State := { ctl := { live := true }, dev := ({} : Dev).modBay 0 (fun y => { y with queue := [(0, 0)] }) }

end Sys2Proof.Machine

open Sys2Proof Sys2Proof.Machine

/-- Refutes O6: the clause of the tick asks for the count wherever the blocks work. In a state whose blocks run with the timebase standing,
which soundness of the control part shuts out (R504), the tick counts nothing for the request that waits. -/
theorem not_wakesAreAdmitted : ¬ Obligations.WakesAreAdmitted := by
  intro h
  obtain ⟨-, -, -, -, hcounts⟩ := h waitsUncounted
  obtain ⟨t, hstep, -, hcnt, -⟩ := hcounts ⟨rfl, rfl⟩ rfl
  have ht : waitsUncounted.tick = t := Host.Outcome.next.inj hstep
  rw [← ht, tick_standing rfl rfl] at hcnt
  exact absurd hcnt (by decide)

end

section
/-! SUPPORT. Silkai's mailboxes: their registers, the take, and the ends of commands that wait (R402 to R411, R440). -/

namespace Sys2Proof.Machine

open Sys2Proof

/-! ### Writes of the owning class (R402, R403, R405, R407) -/

section
variable {s : State} {k : Nat} (hlive : s.Live) {p : Nat} (harrives : arrives s.dev p = true) (howner : mbxOwner s.ctl k p = true)
include hlive harrives howner

theorem mbxWrite_owned {off : Nat} {f : Ctl → Dev → Dev} {d : Dev} (h : f s.ctl s.here = d) : mbxWrite k p off f s = .next (s.withDev d) := by
  refine onDev_eq hlive ?_
  rw [arrives_here, harrives, howner]
  exact h

end

/-- A change of a mailbox is known by what it makes of the mailbox as it is. -/
theorem modMbx_congr {d : Dev} {k : Nat} {f g : Mailbox → Mailbox} (h : f (d.mbx k) = g (d.mbx k)) : d.modMbx k f = d.modMbx k g :=
  congrArg (fun x => d.modSilkai (fun m => { m with mbx := tabSet {} m.mbx k x })) h

section
variable {d : Dev} {k : Nat} (c : Ctl)

/-- R405: what a write leaves at each offset, with the bytes beyond the area dropped. -/
theorem putArea_read {off : Nat} (hoff : off < 4096) (bs : List Byte) (m : Mailbox) (i : Nat) : tabGet 0 (putArea off bs m).area i =
    if off ≤ i ∧ i < 4096 ∧ i < off + bs.length then bs.getD (i - off) 0 else tabGet 0 m.area i := by
  rw [putArea_get, List.length_take]
  exact if_congr (by omega) rfl rfl

/-- R405: bytes written into a mailbox with no command in hand. -/
theorem devMbxCmd_free (h : inHand (d.mbx k) = false) (off : Nat) (bs : List Byte) : devMbxCmd k off bs c d = d.modMbx k (putArea off bs) :=
  modMbx_congr (if_neg (Bool.eq_false_iff.1 h))

/-- R407: the write is counted while a command is in hand. -/
theorem devMbxCmd_inHand (h : inHand (d.mbx k) = true) (off : Nat) (bs : List Byte) :
    devMbxCmd k off bs c d = d.modMbx k (fun m => { m with writeDropCnt := cntInc m.writeDropCnt }) := modMbx_congr (if_pos h)

section
variable {v : Nat} (hring : bitAt v 0 = true) (hready : (d.mbx k).st ≠ .notReady)
include hring hready

theorem ringMbx_free (h : inHand (d.mbx k) = false) : d.modMbx k (ringMbx v) = d.modMbx k (fun m => { m with st := .pending }) :=
  modMbx_congr ((if_neg (by simp [hring, hready])).trans (if_neg (Bool.eq_false_iff.1 h)))

theorem ringMbx_inHand (h : inHand (d.mbx k) = true) :
    d.modMbx k (ringMbx v) = d.modMbx k (fun m => { m with doorbellDropCnt := cntInc m.doorbellDropCnt }) :=
  modMbx_congr ((if_neg (by simp [hring, hready])).trans (if_pos h))

end

section
variable (hready : (d.mbx k).st ≠ .notReady) (step : W64)
include hready

/-- R403: with something else waiting the start is decided at its take. -/
theorem devJigGo_waits (hgo : (d.mbx k).goPending = false) (hothers : (List.range 32).any (waitingAt d) = true) :
    devJigGo k step c d = d.modMbx k (fun m => { m with goPending := true, goStep := step }) := by
  simp only [devJigGo, hready, hgo, hothers, Bool.not_true, Bool.false_eq_true, if_false]

theorem devJigGo_pending (hgo : (d.mbx k).goPending = true) :
    devJigGo k step c d = d.modMbx k (fun m => { m with doorbellDropCnt := cntInc m.doorbellDropCnt }) := by
  simp only [devJigGo, hready, hgo, if_true, if_false]

end

/-! ### The take (R410) -/

/-- Where one position of the 32 alone waits, the rotating pointer finds it, wherever it stands. -/
theorem find_alone {p : Nat → Bool} {j : Nat} (hj : j < 32) (h : ∀ i ∈ List.range 32, p i = decide (i = j)) (ptr : Nat) :
    ((List.range 32).map (fun i => (ptr + i) % 32)).find? p = some j := by
  have hlt {i : Nat} (hi : i ∈ (List.range 32).map (fun i => (ptr + i) % 32)) : i < 32 := by
    obtain ⟨n, -, rfl⟩ := List.mem_map.1 hi
    exact Nat.mod_lt _ (by omega)
  have hmem : j ∈ (List.range 32).map (fun i => (ptr + i) % 32) :=
    List.mem_map.2 ⟨(j + (32 - ptr % 32)) % 32, List.mem_range.2 (Nat.mod_lt _ (by omega)), by omega⟩
  have hpj : p j = true := by rw [h j (List.mem_range.2 hj)]; exact decide_eq_true rfl
  obtain ⟨i, hi⟩ := Option.isSome_iff_exists.1 (List.find?_isSome.2 ⟨j, hmem, hpj⟩)
  have hpi := List.find?_some hi
  rw [h i (List.mem_range.2 (hlt (List.mem_of_find?_eq_some hi))), decide_eq_true_eq] at hpi
  exact hi.trans (congrArg some hpi)

theorem devTake_mailbox (hruns : firmwareRuns c d = true) (hk : k < 16) (h : ∀ i ∈ List.range 32, waitingAt d i = decide (i = 2 * k)) (fl : FlashRun) :
    devTake fl c d = takeMailbox fl k c (d.modSilkai (fun m => { m with ptr := BitVec.ofNat 5 (2 * k + 1) })) := by
  simp only [devTake, hruns, find_alone (by omega : 2 * k < 32) h, Bool.not_true, Bool.false_eq_true, if_false, Nat.mul_mod_right, if_true,
    Nat.mul_div_cancel_left k (by decide : 0 < 2)]

/-! ### Commands that wait (R411, R439) -/

section
variable {w : Waiting} (hwaiting : (d.mbx k).waiting = some w)
include hwaiting

theorem devWaitEnd_ends {r : Nat × List Byte × Dev} (hend : waitEnds w d = some r) (fl : FlashRun) :
    devWaitEnd fl k c d = endCommand k (d.mbx k).waitOp.toNat (d.mbx k).waitSeq.toNat r.1 r.2.1 c r.2.2 := by
  unfold devWaitEnd
  dsimp only
  rw [hwaiting]
  cases w with
  | fwUpdate cfg img => exact nomatch hend
  | _ => simp only [hend]

theorem devWaitLimit_tie (hupdate : ∀ cfg img, w ≠ .fwUpdate cfg img) :
    devWaitLimit k true c d = d.modSilkai (fun m => { m with tieCnt := cntInc m.tieCnt }) := by
  unfold devWaitLimit
  dsimp only
  rw [hwaiting]
  cases w with
  | fwUpdate cfg img => exact absurd rfl (hupdate cfg img)
  | _ => rfl

end

theorem devWaitLimit_flowClose {f : Nat} (hwaiting : (d.mbx k).waiting = some (.flowClose f)) (hopen : (d.flow f).state ≠ .closed) :
    devWaitLimit k false c d = endCommand k (d.mbx k).waitOp.toNat (d.mbx k).waitSeq.toNat 8 [] c d := by
  have hpending : waitEnds (.flowClose f) d = none := if_neg hopen
  simp only [devWaitLimit, hwaiting, hpending, waitGivenUp, Option.isSome_none, Bool.false_eq_true, if_false]

section
variable {cfg : Bool} {img : List Byte} (hwaiting : (d.mbx k).waiting = some (.fwUpdate cfg img))
include hwaiting

theorem devWaitEnd_update (fl : FlashRun) : devWaitEnd fl k c d = updateEnd k fl cfg img c d := by simp only [devWaitEnd, hwaiting]

theorem devWaitLimit_update (tie : Bool) : devWaitLimit k tie c d = d := by simp only [devWaitLimit, hwaiting]

end

end

/-! ### The management bus (R431, R440) -/

theorem busServed_of_firmwareRuns {c : Ctl} {d : Dev} (h : firmwareRuns c d = true) : busServed c d = true := by
  simp only [firmwareRuns, Bool.and_eq_true] at h
  obtain ⟨⟨hstage, -⟩, hheld⟩ := h
  rw [busServed, hstage, hheld]
  rfl

/-- The device after an answer: it goes out, and GET_VERSION leaves the responder past its start. -/
def answered (code : BitVec 8) (answer : List Byte) (d : Dev) : Dev :=
  { d with out := d.out ++ [.mgmt answer], free := d.free + 3, silkai := { d.silkai with spdmVersion := d.silkai.spdmVersion || code == 0x84 } }

theorem answered_frame (code : BitVec 8) (answer : List Byte) (d : Dev) :
    { answered code answer d with silkai := d.silkai, free := d.free, out := [] } = { d with out := [] } := rfl

/-- R440: a request that is served is answered. -/
theorem devSpdm_served {c : Ctl} {d : Dev} (h : busServed c d = true) (code : BitVec 8) (p1 p2 : Nat) (bs : List Byte) :
    devSpdm code.toNat p1 p2 bs c d = answered code (spdmAnswer code.toNat p1 p2 bs c d) d := by
  have hcode : (code.toNat == 0x84) = (code == 0x84) := by
    rw [Bool.eq_iff_iff, beq_iff_eq, beq_iff_eq, BitVec.toNat_eq]
    rfl
  rw [devSpdm, h, hcode]
  rfl

theorem devPrivateRead_served {c : Ctl} (d : Dev) (h : 4 ≤ c.boot.stage.toNat ∨ c.boot.failed = true) :
    devPrivateRead c d = { d.emit (.mgmt (privateView c d)) with free := d.free + 1 } :=
  if_pos (by simpa using h)

/-- A row of Silkai's firmware, where it runs. -/
theorem onFirmware_eq {s : State} {f : Ctl → Dev → Dev} {d : Dev} (hlive : s.Live) (hruns : firmwareRuns s.ctl s.dev = true) (h : f s.ctl s.here = d) :
    onDev (fun c d => if firmwareRuns c d then f c d else d) s = .next (s.withDev d) :=
  onDev_eq hlive ((if_pos hruns).trans h)

end Sys2Proof.Machine

open Sys2Proof Sys2Proof.Machine

/-- Settles O52: each register write, take, end of a wait and answer is its equation above. -/
theorem mailboxEventsAct : Obligations.MailboxEventsAct := by
  intro s k hlive
  refine ⟨fun p harrives howner => ⟨fun off bs hfree => ?_, fun off bs hhand => ?_, fun v hring hready => ⟨fun hfree => ?_, fun hhand => ?_⟩,
    fun step hready hgo hothers => ?_, fun step hgo hready => ?_⟩, fun hruns => ⟨fun halone => ?_, fun w r hwaiting hend => ?_, fun f hwaiting hopen => ?_,
    fun cfg img hwaiting => ⟨?_, ?_, ?_, fun tie => ?_⟩, fun w hwaiting hupdate => ?_, ?_, fun code p1 p2 bs => ?_⟩, fun code p1 p2 bs hserved => ?_⟩
  · refine ⟨_, mbxWrite_owned hlive harrives howner (devMbxCmd_free (d := s.here) s.ctl hfree off bs), rfl, fun i => ?_, fun j hj => ?_, ?_, rfl⟩
    · exact (congrArg (fun m : Mailbox => tabGet 0 m.area i) (Dev.mbx_modMbx_same s.here k.val (putArea off.val bs)) :).trans (putArea_read off.isLt _ _ _)
    · exact Dev.mbx_modMbx_ne _ _ hj
    · exact (congrArg Mailbox.st (Dev.mbx_modMbx_same s.here k.val (putArea off.val bs)) :)
  · exact mbxWrite_owned hlive harrives howner (devMbxCmd_inHand (d := s.here) s.ctl hhand off bs)
  · exact mbxWrite_owned hlive harrives howner (f := fun _ d => d.modMbx k.val (ringMbx v.toNat)) (ringMbx_free (d := s.here) hring hready hfree)
  · exact mbxWrite_owned hlive harrives howner (f := fun _ d => d.modMbx k.val (ringMbx v.toNat)) (ringMbx_inHand (d := s.here) hring hready hhand)
  · exact mbxWrite_owned hlive harrives howner (devJigGo_waits (d := s.here) s.ctl hready step hgo hothers)
  · exact mbxWrite_owned hlive harrives howner (devJigGo_pending (d := s.here) s.ctl hready step hgo)
  · exact onDev_eq hlive (devTake_mailbox (d := s.here) s.ctl hruns k.isLt halone .done)
  · exact onFirmware_eq hlive hruns (devWaitEnd_ends (d := s.here) s.ctl hwaiting hend .done)
  · exact onFirmware_eq hlive hruns (devWaitLimit_flowClose (d := s.here) s.ctl hwaiting hopen)
  · exact onFirmware_eq hlive hruns (devWaitEnd_update (d := s.here) s.ctl hwaiting .done)
  · exact onFirmware_eq hlive hruns (devWaitEnd_update (d := s.here) s.ctl hwaiting .fails)
  · exact onFirmware_eq hlive hruns (devWaitEnd_update (d := s.here) s.ctl hwaiting .runs)
  · exact onFirmware_eq hlive hruns (devWaitLimit_update (d := s.here) s.ctl hwaiting tie)
  · exact onFirmware_eq hlive hruns (devWaitLimit_tie (d := s.here) s.ctl hwaiting hupdate)
  · exact ⟨_, onFirmware_eq hlive hruns rfl, rfl, rfl, rfl, rfl, rfl, rfl, rfl⟩
  · exact ⟨_, onDev_eq hlive (devSpdm_served (d := s.here) (busServed_of_firmwareRuns hruns) code p1.toNat p2.toNat bs), rfl, rfl, answered_frame code _ s.here⟩
  · exact onDev_eq hlive (devPrivateRead_served s.here hserved)

end

section
/-! SUPPORT. A command given to a mailbox: its header, its take and its end (R405 to R410). -/

namespace Sys2Proof.Machine

open Sys2Proof

/-! ### The header of a command or reply (R405, R406) -/

section
variable (op seq st : Nat) (bs : List Byte)

theorem sealed_length : (sealed op seq st bs).length = 16 + bs.length := by
  simp only [sealed, List.length_append, natLE_length, List.length_cons, List.length_nil]
  omega

theorem sealed_drop : (sealed op seq st bs).drop 16 = bs := rfl

theorem sealed_op : leAt ((sealed op seq st bs).take 16) 0 2 = op % 65536 := leNat_natLE 2 op
theorem sealed_seq : leAt ((sealed op seq st bs).take 16) 2 2 = seq % 65536 := leNat_natLE 2 seq
theorem sealed_len : leAt ((sealed op seq st bs).take 16) 4 4 = bs.length % 2 ^ 32 := leNat_natLE 4 bs.length

/-- R406: the CRC in the header is that of header and payload, its own field read as zero. -/
theorem sealed_crc : crc32c (((sealed op seq st bs).take 16).take 8 ++ [0, 0, 0, 0] ++ ((sealed op seq st bs).take 16).drop 12 ++ bs) =
    leAt ((sealed op seq st bs).take 16) 8 4 := (leNat_natLE_of_lt (n := 4) (crc32c_lt _)).symm

end

/-! ### The end of a command (R406, R407) -/

section
variable (k : Nat) (c : Ctl) (d : Dev)

theorem mbxIrq_mbx (j : Nat) : (mbxIrq k c d).mbx j = d.mbx j := by
  unfold mbxIrq Dev.sendMsix
  split_ifs <;> rfl

/-- R407: the interrupt goes out, or waits in the pending bits. -/
theorem mbxIrq_frame (m : Silkai) (out : List OutEvent) : { mbxIrq k c d with silkai := m, out := out } = { d with silkai := m, out := out } := by
  unfold mbxIrq Dev.sendMsix
  split_ifs <;> rfl

/-- The mailbox of a command that has ended. -/
def endedMbx (op seq st : Nat) (reply : List Byte) (m : Mailbox) : Mailbox :=
  { putArea 0 (sealed op seq st reply) m with st := .done, result := BitVec.ofNat 4 st, irqPend := true, seq := BitVec.ofNat 16 seq, waiting := none }

variable (op seq st : Nat) (reply : List Byte)

theorem endCommand_mbx_same : (endCommand k op seq st reply c d).mbx k = endedMbx op seq st reply (d.mbx k) :=
  (mbxIrq_mbx k c _ k).trans (Dev.mbx_modMbx_same d k _)

theorem endCommand_mbx_ne {j : Nat} (h : j ≠ k) : (endCommand k op seq st reply c d).mbx j = d.mbx j :=
  (mbxIrq_mbx k c _ j).trans (Dev.mbx_modMbx_ne d _ h)

theorem endCommand_frame : { endCommand k op seq st reply c d with silkai := d.silkai, out := d.out } = d := by
  rw [endCommand, mbxIrq_frame]
  rfl

theorem endedMbx_area (h : reply.length ≤ 4080) (m : Mailbox) : areaBytes (endedMbx op seq st reply m) 0 (16 + reply.length) = sealed op seq st reply := by
  have hlen := sealed_length op seq st reply
  have hread : areaBytes (putArea 0 (sealed op seq st reply) m) 0 (16 + reply.length) = ((sealed op seq st reply).drop 0).take (16 + reply.length) :=
    areaBytes_putArea _ m 0 _ (by omega) (by omega)
  rw [List.drop_zero, ← hlen, List.take_length, hlen] at hread
  exact hread

/-- A command that ended or waits does not wait for its take. -/
theorem settleCommand_taken (r : CmdRun) : ((settleCommand k op seq r c).mbx k).st ≠ .pending := by
  unfold settleCommand
  split
  · rw [endCommand_mbx_same]
    exact nofun
  · rw [Dev.mbx_modMbx_same]
    exact nofun

end

/-! ### The take (R408, R410) -/

/-- A mailbox that holds a command with its CRC. -/
def givenMbx (op seq : Nat) (bs : List Byte) (m : Mailbox) : Mailbox := { putArea 0 (sealed op seq 0 bs) m with st := .pending }

section
variable {k op seq : Nat} {bs : List Byte} {c : Ctl} (fl : FlashRun)

theorem givenMbx_header (hlen : bs.length ≤ 4080) (m : Mailbox) : areaBytes (givenMbx op seq bs m) 0 16 = (sealed op seq 0 bs).take 16 := by
  have hsealed := sealed_length op seq 0 bs
  exact (areaBytes_putArea (sealed op seq 0 bs) m 0 16 (by omega) (by omega) :)

theorem givenMbx_payload (hlen : bs.length ≤ 4080) (m : Mailbox) : areaBytes (givenMbx op seq bs m) 16 bs.length = bs := by
  have hsealed := sealed_length op seq 0 bs
  have hread : areaBytes (givenMbx op seq bs m) 16 bs.length = _ := areaBytes_putArea (sealed op seq 0 bs) m 16 bs.length (by omega) (by omega)
  rw [sealed_drop, List.take_length] at hread
  exact hread

/-- R405, R406, R408: a command of the catalogue with its CRC and the next SEQ passes checks 1 to 5. -/
theorem takeMailbox_given {d : Dev} {m : Mailbox} (hm : d.mbx k = givenMbx op seq bs m) (hlen : bs.length ≤ 4080) (hop : op < 65536) (hseq : seq < 65536)
    (hnext : seq = ((d.mbx k).last.toNat + 1) % 65536) (hcat : catalogue.contains op = true) :
    takeMailbox fl k c d = settleCommand k op seq (runCommand fl k op bs c (settleHeld c (d.modMbx k (fun x => { x with last := BitVec.ofNat 16 seq })))) c := by
  have hhead : areaBytes (d.mbx k) 0 16 = (sealed op seq 0 bs).take 16 := by rw [hm, givenMbx_header hlen]
  have hpayload : areaBytes (d.mbx k) 16 bs.length = bs := by rw [hm, givenMbx_payload hlen]
  have hstatus : leAt ((sealed op seq 0 bs).take 16) 12 4 = 0 := rfl
  unfold takeMailbox
  dsimp only
  rw [hhead, sealed_op, sealed_seq, sealed_len, hstatus, Nat.mod_eq_of_lt hop, Nat.mod_eq_of_lt hseq, Nat.mod_eq_of_lt (by omega : bs.length < 2 ^ 32),
    Nat.min_eq_left hlen, hpayload, if_neg (Nat.not_lt.2 hlen), if_neg (not_not_intro (sealed_crc op seq 0 bs)), if_neg (not_not_intro hnext), hcat]
  rfl

end

/-! ### A command in its turn (R405, R408, R410) -/

section
variable {k : Nat} {c : Ctl} {d : Dev} (fl : FlashRun)

/-- Once the mailbox is taken nothing more is. -/
theorem takeUntil_taken {n : Nat} (hpending : (d.mbx k).st = .pending) (htaken : ((devTake fl c d).mbx k).st ≠ .pending) :
    takeUntil fl k c (n + 2) d = devTake fl c d := by rw [takeUntil, if_pos hpending, takeUntil, if_neg htaken]

/-- A command given to mailbox `k` waits there, and nothing else waits that did not. -/
theorem waitingAt_given_same {op seq i : Nat} {bs : List Byte} (h : i = 2 * k) : waitingAt (d.modMbx k (givenMbx op seq bs)) i = true := by
  rw [waitingAt, if_pos (by omega), h, Nat.mul_div_cancel_left k (by decide), Dev.mbx_modMbx_same]
  rfl

theorem waitingAt_given_ne {op seq i : Nat} {bs : List Byte} (h : i ≠ 2 * k) : waitingAt (d.modMbx k (givenMbx op seq bs)) i = waitingAt d i := by
  unfold waitingAt
  by_cases hi : i / 2 = k
  · rw [if_neg (by omega), if_neg (by omega), hi, Dev.mbx_modMbx_same]
    rfl
  · rw [Dev.mbx_modMbx_ne _ _ hi]

/-- No result waits for its outcome. -/
theorem settleHeld_settled (h : (d.life.held.isNone || !stepCut d) = true) : settleHeld c d = d := by
  unfold settleHeld
  split
  · next r hheld =>
    rw [hheld, Option.isNone_some, Bool.false_or, Bool.not_eq_true'] at h
    exact if_neg (Bool.eq_false_iff.1 h)
  · rfl

/-- R416: a command that the safe state permits, where it holds. -/
theorem permitted {op : Nat} (hsafe : d.fc.entering = true → op ∈ safeOps) : (d.fc.entering && !safeOps.contains op) = false := by
  cases h : d.fc.entering with
  | false => rfl
  | true => simpa using hsafe h

section
variable {op : Nat} {bs : List Byte} (hsafe : d.fc.entering = true → op ∈ safeOps) (hlayout : layoutCheck op bs = none)
include hsafe hlayout

/-- R408: with checks 6 to 8 passed the command may be refused by the package's state. -/
theorem runCommand_refused {st : Nat} (h : notAccepted op bs d = some st) : runCommand fl k op bs c d = fails st d := by
  rw [runCommand, permitted hsafe, hlayout, h]
  rfl

section
variable (haccepted : notAccepted op bs d = none)
include haccepted

/-- R412: or end without the host that it names. -/
theorem runCommand_hostLost (h : hostGone op bs d = true) : runCommand fl k op bs c d = fails 9 d := by
  rw [runCommand, permitted hsafe, hlayout, haccepted, h]
  rfl

/-- R408: or run. -/
theorem runCommand_runs (h : hostGone op bs d = false) : runCommand fl k op bs c d = runOpcode fl k op bs c d := by
  rw [runCommand, permitted hsafe, hlayout, haccepted, h]
  rfl

end

end

/-- A mailbox that is not free, or that Silkai's firmware does not serve, takes no command. -/
theorem devCommand_none {op : Nat} {bs : List Byte} (h : firmwareRuns c d = false ∨ inHand (d.mbx k) = true ∨ (d.mbx k).st = .notReady) :
    devCommand k op bs fl c d = d := if_pos (by simpa using h)

section
variable (hruns : firmwareRuns c d = true) (hfree : inHand (d.mbx k) = false) (hready : (d.mbx k).st ≠ .notReady)
include hruns hfree hready

theorem devCommand_given (op : Nat) (bs : List Byte) :
    devCommand k op bs fl c d = takeUntil fl k c 32 (d.modMbx k (givenMbx op (((d.mbx k).last.toNat + 1) % 65536) bs)) := if_neg (by simp [hruns, hfree, hready])

/-- R410: with nothing else waiting, the command given to a free mailbox is the one that the next take finds. -/
theorem devCommand_alone {op : Nat} {bs : List Byte} (hk : k < 16) (hcat : catalogue.contains op = true) (hop : op < 65536) (hlen : bs.length ≤ 4080)
    (halone : ∀ i ∈ List.range 32, i ≠ 2 * k → waitingAt d i = false) {seq : Nat} (hseq : seq = ((d.mbx k).last.toNat + 1) % 65536) {e : Dev}
    (he : e = ((d.modMbx k (givenMbx op seq bs)).modSilkai (fun m => { m with ptr := BitVec.ofNat 5 (2 * k + 1) })).modMbx k (fun m => { m with last := BitVec.ofNat 16 seq })) :
    devCommand k op bs fl c d = settleCommand k op seq (runCommand fl k op bs c (settleHeld c e)) c := by
  have hmbx : (d.modMbx k (givenMbx op seq bs)).mbx k = givenMbx op seq bs (d.mbx k) := Dev.mbx_modMbx_same d k _
  have hwaits : ∀ i ∈ List.range 32, waitingAt (d.modMbx k (givenMbx op seq bs)) i = decide (i = 2 * k) := by
    intro i hi
    by_cases h : i = 2 * k
    · rw [waitingAt_given_same h, decide_eq_true h]
    · rw [waitingAt_given_ne h, halone i hi h, decide_eq_false h]
  have hlast : (d.mbx k).last = ((d.modMbx k (givenMbx op seq bs)).mbx k).last := (congrArg Mailbox.last hmbx).symm
  have htake : devTake fl c (d.modMbx k (givenMbx op seq bs)) = settleCommand k op seq (runCommand fl k op bs c (settleHeld c e)) c := by
    rw [he, devTake_mailbox (d := d.modMbx k (givenMbx op seq bs)) c hruns hk hwaits fl]
    exact takeMailbox_given fl (m := d.mbx k) hmbx hlen hop (by omega) (hseq.trans (congrArg (fun v : BitVec 16 => (v.toNat + 1) % 65536) hlast)) hcat
  rw [devCommand_given fl hruns hfree hready, ← hseq, takeUntil_taken fl (n := 30) (congrArg Mailbox.st hmbx) (htake ▸ settleCommand_taken k c op seq _), htake]

end

end

/-! ### The rows of the Ndeler commands -/

section
variable {k : Fin 16} {p : List Byte} {r : Instr × Nat × List Byte} (hr : r ∈ ndRows k p)
include hr

/-- Each row gives its opcode and payload to its mailbox. -/
theorem exec_ndRow (s : State) : exec r.1 s = onDev (devCommand k.val r.2.1 r.2.2 .done) s := by
  have hrows : (ndRows k p).map (fun r => exec r.1 s) = (ndRows k p).map (fun r => onDev (devCommand k.val r.2.1 r.2.2 .done) s) := rfl
  exact List.map_inj_left.1 hrows r hr

/-- Each row's opcode is in the catalogue of R415. -/
theorem ndRow_catalogue : r.2.1 ∈ catalogue := by
  have hops : ∀ op ∈ (ndRows k p).map (fun r => r.2.1), op ∈ catalogue := by
    change ∀ op ∈ [0x0001, 0x0002, 0x0002, 0x0002, 0x0002, 0x0002, 0x0100, 0x0101, 0x0102, 0x0103, 0x0103, 0x0200, 0x0201, 0x0202, 0x0300, 0x0300, 0x0301, 0x0301, 0x0400, 0x0401,
      0x0402, 0x0403, 0x0404, 0x0404, 0x0405, 0x0405, 0x0405, 0x0500, 0x0500, 0x0501, 0x0502, 0x0600, 0x0600, 0x0601, 0x0601, 0x0601, 0x0602, 0x0602, 0x0602, 0x0602, 0x0700, 0x0701,
      0x0701, 0x0702, 0x0702, 0x0702], op ∈ catalogue
    decide
  exact hops r.2.1 (List.mem_map.2 ⟨r, hr, rfl⟩)

end

theorem lt_of_mem_catalogue {op : Nat} (h : op ∈ catalogue) : op < 65536 := (by decide : ∀ op ∈ catalogue, op < 65536) op h

/-- The device that holds the command as taken. -/
theorem taken_eq (s : State) (k op : Nat) (bs : List Byte) : taken s k op bs =
    ((s.here.modMbx k (givenMbx op (nextSeq s k) bs)).modSilkai (fun m => { m with ptr := BitVec.ofNat 5 (2 * k + 1) })).modMbx k
      (fun m => { m with last := BitVec.ofNat 16 (nextSeq s k) }) := rfl

theorem taken_life (s : State) (k op : Nat) (bs : List Byte) : (taken s k op bs).life = s.dev.life := by
  rw [taken_eq, Dev.modMbx_life, Dev.modSilkai_life, Dev.modMbx_life]
  rfl
theorem taken_fab (s : State) (k op : Nat) (bs : List Byte) : (taken s k op bs).fab = s.dev.fab := by
  rw [taken_eq, Dev.modMbx_fab, Dev.modSilkai_fab, Dev.modMbx_fab]
  rfl
theorem taken_coll (s : State) (k op : Nat) (bs : List Byte) : (taken s k op bs).coll = s.dev.coll := by
  rw [taken_eq, Dev.modMbx_coll, Dev.modSilkai_coll, Dev.modMbx_coll]
  rfl
theorem taken_fc (s : State) (k op : Nat) (bs : List Byte) : (taken s k op bs).fc = s.dev.fc := by
  rw [taken_eq, Dev.modMbx_fc, Dev.modSilkai_fc, Dev.modMbx_fc]
  rfl

theorem Takes.layout {s : State} {k op : Nat} {bs : List Byte} (ht : Takes s k op bs) : layoutCheck op bs = none := by
  obtain ⟨-, -, -, -, -, hlayout, -⟩ := ht
  exact hlayout

theorem Takes.safe {s : State} {k op : Nat} {bs : List Byte} (ht : Takes s k op bs) : (taken s k op bs).fc.entering = true → op ∈ safeOps := by
  obtain ⟨-, -, -, -, -, -, hsafe, -⟩ := ht
  rw [taken_fc]
  exact hsafe

section
variable {s : State} {k : Fin 16} {op : Nat} {bs : List Byte} (ht : Takes s k.val op bs) (hcat : op ∈ catalogue) (fl : FlashRun)
include ht hcat

/-- R408, R410: a command that is taken runs on the device that holds it as taken. -/
theorem command_taken : onDev (devCommand k.val op bs fl) s =
    .next (s.withDev (settleCommand k.val op (nextSeq s k.val) (runCommand fl k.val op bs s.ctl (taken s k.val op bs)) s.ctl)) := by
  obtain ⟨hlive, hruns, hfree, hready, hlen, -, -, halone, hheld⟩ := ht
  have hsettled : settleHeld s.ctl (taken s k.val op bs) = taken s k.val op bs := settleHeld_settled (by rw [stepCut, taken_life]; exact hheld)
  refine onDev_eq hlive ?_
  rw [devCommand_alone (c := s.ctl) (d := s.here) fl hruns hfree hready k.isLt (List.contains_iff_mem.2 hcat) (lt_of_mem_catalogue hcat) hlen halone
    (seq := nextSeq s k.val) rfl (taken_eq s k.val op bs), hsettled]

/-- A command that its state does not accept. -/
theorem command_refused {st : Nat} (h : notAccepted op bs (taken s k.val op bs) = some st) :
    onDev (devCommand k.val op bs fl) s = .next (s.withDev (endCommand k.val op (nextSeq s k.val) st [] s.ctl (taken s k.val op bs))) := by
  rw [command_taken ht hcat, runCommand_refused fl (Takes.safe ht) (Takes.layout ht) h]
  rfl

section
variable (haccepted : notAccepted op bs (taken s k.val op bs) = none)
include haccepted

/-- R412: a command that needs the host ends without it. -/
theorem command_hostLost (h : hostGone op bs (taken s k.val op bs) = true) :
    onDev (devCommand k.val op bs fl) s = .next (s.withDev (endCommand k.val op (nextSeq s k.val) 9 [] s.ctl (taken s k.val op bs))) := by
  rw [command_taken ht hcat, runCommand_hostLost fl (Takes.safe ht) (Takes.layout ht) haccepted h]
  rfl

theorem command_runs (h : hostGone op bs (taken s k.val op bs) = false) : onDev (devCommand k.val op bs fl) s =
    .next (s.withDev (settleCommand k.val op (nextSeq s k.val) (runOpcode fl k.val op bs s.ctl (taken s k.val op bs)) s.ctl)) := by
  rw [command_taken ht hcat, runCommand_runs fl (Takes.safe ht) (Takes.layout ht) haccepted h]

end

end

end Sys2Proof.Machine

open Sys2Proof Sys2Proof.Machine

/-- Settles O53: each row gives its command to its mailbox, the take finds it with checks 1 to 8 passed, and its end writes the mailbox alone. -/
theorem ndCommandsRun : Obligations.NdCommandsRun := by
  intro s k p
  refine ⟨fun r hr hlive => ⟨fun h => ?_, fun hruns hfree hready => ?_⟩, fun r hr ht => ⟨fun st hst => ?_, fun haccepted hgone => ?_, fun haccepted hhost => ?_⟩,
    fun op seq st reply d hlen => ?_⟩
  · exact (exec_ndRow hr s).trans (onDev_eq hlive (devCommand_none (d := s.here) .done h))
  · exact (exec_ndRow hr s).trans (onDev_eq hlive (devCommand_given (d := s.here) .done hruns hfree hready r.2.1 r.2.2))
  · exact (exec_ndRow hr s).trans (command_refused ht (ndRow_catalogue hr) .done hst)
  · exact (exec_ndRow hr s).trans (command_hostLost ht (ndRow_catalogue hr) .done haccepted hgone)
  · exact (exec_ndRow hr s).trans (command_runs ht (ndRow_catalogue hr) .done haccepted hhost)
  · have hmbx := endCommand_mbx_same k.val s.ctl d op seq st reply
    refine ⟨congrArg Mailbox.st hmbx, congrArg Mailbox.result hmbx, congrArg Mailbox.seq hmbx, congrArg Mailbox.irqPend hmbx, ?_,
      fun j hj => endCommand_mbx_ne k.val s.ctl d op seq st reply hj, endCommand_frame k.val s.ctl d op seq st reply⟩
    rw [hmbx]
    exact endedMbx_area op seq st reply hlen _

end

section
/-! SUPPORT. A row that ends with its command's own status and reply; what the device as taken shares with the one before (R408, R409). -/

namespace Sys2Proof.Machine

open Sys2Proof

/-! ### The device as taken -/

/-- The device with other mailboxes and another pointer, and nothing sent. -/
def withMbx (d : Dev) (mbx : Tab Mailbox) (ptr : BitVec 5) : Dev := { d with silkai := { d.silkai with mbx := mbx, ptr := ptr }, out := [] }

theorem here_withMbx (s : State) : s.here = withMbx s.dev s.dev.silkai.mbx s.dev.silkai.ptr := rfl

section
variable (d : Dev) (mbx : Tab Mailbox) (ptr : BitVec 5)

theorem withMbx_modMbx (k : Nat) (f : Mailbox → Mailbox) : (withMbx d mbx ptr).modMbx k f = withMbx d (tabMod {} mbx k f) ptr := rfl

theorem withMbx_modPtr (p : BitVec 5) : (withMbx d mbx ptr).modSilkai (fun m => { m with ptr := p }) = withMbx d mbx p := rfl

end

/-- A taken command changes mailboxes and pointer alone. -/
theorem taken_withMbx (s : State) (k op : Nat) (bs : List Byte) : ∃ mbx ptr, taken s k op bs = withMbx s.dev mbx ptr := by
  rw [taken_eq, here_withMbx, withMbx_modMbx, withMbx_modPtr, withMbx_modMbx]
  exact ⟨_, _, rfl⟩

/-! ### Checks that pass (R408) -/

theorem checked_passed {cs : List (Bool × Nat)} (h : ∀ x ∈ cs, x.1 = true) (d : Dev) (f : Dev → CmdRun) : checked cs d f = f d := by
  have hnone : firstFail cs = none := by
    rw [firstFail, List.find?_eq_none.2 (fun x hx => by rw [h x hx]; decide)]
    rfl
  rw [checked, hnone]

theorem checkedRead_passed {cs : List (Bool × Nat)} (h : ∀ x ∈ cs, x.1 = true) (c : Ctl) (spans : List (Nat × Nat)) (d : Dev) (f : Dev → CmdRun) :
    checkedRead c spans cs d f = f d := by
  have hnone : firstFail cs = none := by
    rw [firstFail, List.find?_eq_none.2 (fun x hx => by rw [h x hx]; decide)]
    rfl
  rw [checkedRead, hnone]

/-! ### The code in byte 0 -/

/-- A payload that its layout admits is not empty, and so byte 0 is the code given. -/
theorem code_withByte {op v : Nat} {p : List Byte} (hlayout : layoutCheck op (withByte 0 v p) = none) (hempty : layoutCheck op [] ≠ none) (hv : v < 256) :
    leAt (withByte 0 v p) 0 1 = v := by
  cases p with
  | nil => exact absurd hlayout hempty
  | cons b p =>
    change (BitVec.ofNat 8 v).toNat + 256 * 0 = v
    rw [BitVec.toNat_ofNat]
    omega

/-! ### A row that ends -/

section
variable {s : State} {k : Fin 16} {op : Nat} {bs : List Byte} {i : Instr} {fl : FlashRun} (hrow : exec i s = onDev (devCommand k.val op bs fl) s)
  (ht : Takes s k.val op bs) (hcat : op ∈ catalogue) (haccepted : notAccepted op bs (taken s k.val op bs) = none) (hhost : hostGone op bs (taken s k.val op bs) = false)
include hrow ht hcat haccepted hhost

/-- A row that runs leaves the device that the end of its command, or its wait, leaves. -/
theorem exec_runs {r : CmdRun} (hrun : runOpcode fl k.val op bs s.ctl (taken s k.val op bs) = r) :
    exec i s = .next (s.withDev (settleCommand k.val op (nextSeq s k.val) r s.ctl)) := by
  rw [hrow, command_runs ht hcat fl haccepted hhost, hrun]

/-- A row that runs to its end ends as its command says. -/
theorem ends_of_run {st : Nat} {reply : List Byte} {f : Dev → Dev} (hrun : runOpcode fl k.val op bs s.ctl (taken s k.val op bs) = (.done st reply, f (taken s k.val op bs))) :
    Ends s k i op bs st reply f := exec_runs hrow ht hcat haccepted hhost hrun

end

theorem hostGone_of_noSpans {op : Nat} {bs : List Byte} {d : Dev} (h : namedSpans op bs d = []) : hostGone op bs d = false := by
  rw [hostGone, h, List.any_nil, Bool.and_false]

/-- A row of a command that names no memory of the host's and that every state accepts. -/
theorem ends_of_okay {s : State} {k : Fin 16} {op : Nat} {bs : List Byte} {i : Instr} {fl : FlashRun} (hrow : exec i s = onDev (devCommand k.val op bs fl) s)
    (ht : Takes s k.val op bs) (hcat : op ∈ catalogue) (haccepted : ∀ d, notAccepted op bs d = none) (hspans : ∀ d, namedSpans op bs d = [])
    {st : Nat} {reply : List Byte} {f : Dev → Dev} (hrun : ∀ mbx ptr, runOpcode fl k.val op bs s.ctl (withMbx s.dev mbx ptr) = (.done st reply, f (withMbx s.dev mbx ptr))) :
    Ends s k i op bs st reply f := by
  obtain ⟨mbx, ptr, h⟩ := taken_withMbx s k.val op bs
  exact ends_of_run hrow ht hcat (haccepted _) (hostGone_of_noSpans (hspans _)) (by rw [h]; exact hrun mbx ptr)

end Sys2Proof.Machine
end

section
/-! SUPPORT. What the Ndeler commands of set-up, faults, repair and power do when their checks pass (R417 to R419, R426, R429). -/

namespace Sys2Proof.Machine

open Sys2Proof

/-! ### Identity (R417) -/

/-- The reply of ND_HELLO. -/
def helloReply (k : Nat) (c : Ctl) : List Byte :=
  payloadOf 32 [(0, 2, 0xC096), (2, 1, 0x10), (4, 1, 3), (5, 1, 2), (8, 4, c.boot.fwVersion.toNat), (12, 1, c.boot.fwSlot.toNat), (16, 8, c.fuses.serial.toNat), (24, 1, k)]

theorem helloReply_eq (k : Nat) (c : Ctl) : helloReply k c = natLE 2 0xC096 ++ [0x10, 0, 3, 2, 0, 0] ++ natLE 4 c.boot.fwVersion.toNat ++
    (natLE 1 c.boot.fwSlot.toNat ++ [0, 0, 0]) ++ natLE 8 c.fuses.serial.toNat ++ (natLE 1 k ++ [0, 0, 0, 0, 0, 0, 0]) := by
  simp only [helloReply, payloadOf, List.foldl, natLE]
  rfl

theorem helloReply_fields (k : Fin 16) (c : Ctl) : (helloReply k.val c).length = 32 ∧ leAt (helloReply k.val c) 0 2 = 0xC096 ∧ leAt (helloReply k.val c) 4 1 = 3 ∧
    leAt (helloReply k.val c) 5 1 = 2 ∧ leAt (helloReply k.val c) 8 4 = c.boot.fwVersion.toNat ∧ leAt (helloReply k.val c) 12 1 = c.boot.fwSlot.toNat ∧
    leAt (helloReply k.val c) 16 8 = c.fuses.serial.toNat ∧ leAt (helloReply k.val c) 24 1 = k.val := by
  have hversion := c.boot.fwVersion.isLt
  have hslot : c.boot.fwSlot.toNat < 256 ^ 1 := by omega
  have hserial := c.fuses.serial.isLt
  have hk : k.val < 256 ^ 1 := by omega
  rw [helloReply_eq]
  exact ⟨by simp, leNat_natLE_of_lt (n := 2) (by omega), rfl, rfl, leNat_natLE_of_lt (n := 4) (by omega), leNat_natLE_of_lt (n := 1) hslot, leNat_natLE_of_lt (n := 8) (by omega), leNat_natLE_of_lt (n := 1) hk⟩

section
variable {bs : List Byte} (c : Ctl) {d : Dev}

theorem ndHello_answers (k : Nat) (hmagic : leAt bs 0 1 = 3) (hminor : leAt bs 1 1 ≤ 2) : ndHello k bs c d = (.done 0 (helloReply k c), d) := by
  rw [ndHello, if_pos ⟨hmagic, hminor⟩]
  rfl

/-! ### Tiers, buffers and regions (R418) -/

theorem progRunning_unloaded (h : d.life.loaded = false) : progRunning d = false := by rw [progRunning, h, Bool.false_and]

theorem ndTierMode_sets (hallocs : d.silkai.allocs = []) (hunloaded : d.life.loaded = false) (hmode : leAt bs 0 1 < 2) (hpeers : leAt bs 1 1 ≤ 3) :
    ndTierMode bs c d = okay [] (d.modFar (fun f => { f with unified := leAt bs 0 1 == 1, peers := (List.range (leAt bs 1 1)).map (fun i => leAt bs (4 + 2 * i) 2) })) :=
  checked_passed (by simp [hallocs, progRunning_unloaded hunloaded, hmode, hpeers]) d _

theorem ndAlloc_near {h a : Nat} (hsize : leAt bs 0 8 ≠ 0) (htier : leAt bs 8 1 = 0) (hzero : leAt bs 9 1 = 0) (halign : leAt bs 10 1 ≤ 30) (hplaced : d.far.unified = false)
    (hhandle : freeHandle d = some h) (hplace : findPlace d.free 0 0x7FE0000000 (2 ^ max 12 (leAt bs 10 1)) (roundUp (leAt bs 0 8) 4096) (nearTaken d) = some a) :
    ndAlloc bs c d = okay (allocReply h a (roundUp (leAt bs 0 8) 4096) 0) (({ d with free := d.free + 2 } : Dev).modSilkai (fun m =>
      { m with allocs := tabPut m.allocs h { tier := 0, addr := a, size := roundUp (leAt bs 0 8) 4096, extent := roundUp (leAt bs 0 8) 4096 } })) := by
  unfold ndAlloc
  refine (checked_passed (by simp [htier, hzero, halign, hplaced]) d _).trans ?_
  simp only [hsize, hhandle, hplaced, htier, hzero, allocPlaced, hplace, allocDone, if_true, if_false, Bool.false_eq_true, Nat.zero_ne_one, Nat.reduceBEq]

theorem ndFree_frees {a : Alloc} (hfind : tabFind d.silkai.allocs (leAt bs 0 4) = some a) (htier : a.tier ≠ 1) (hplaced : a.addr < 0x200000000000)
    (hregions : d.silkai.regions.all (fun r => !overlaps a.addr a.extent r.2.base r.2.len) = true) :
    ndFree bs c d = okay [] (d.modSilkai (fun m => { m with allocs := tabDel m.allocs (leAt bs 0 4) })) := by
  have himage : (a.tier == 1) = false := beq_eq_false_iff_ne.2 htier
  have hspan : allocSpan a = (a.addr, a.extent) := congrArg (Prod.mk _) (if_neg (fun h => htier h.1))
  have hfree : (!d.silkai.regions.any (fun r => overlaps a.addr a.extent r.2.base r.2.len)) = true := by
    rw [List.not_any_eq_all_not]
    exact hregions
  simp only [ndFree, hfind, himage, hspan, Bool.false_and, Bool.false_eq_true, if_false, if_pos hplaced]
  exact checkedRead_passed (by simp [hfree]) c _ d _

theorem ndRegister_registers {i : Nat} (hflags : leAt bs 1 1 < 16) (hlen : leAt bs 16 8 ≠ 0) (hspan : registrable d (leAt bs 8 8) (leAt bs 16 8) = true)
    (hfree : findFree d.free 0 4096 (fun i => (tabFind d.silkai.regions i).isSome) = some i) {r : Region}
    (hr : r = { base := leAt bs 8 8, len := leAt bs 16 8, engine := bitAt (leAt bs 1 1) 0, fabRd := bitAt (leAt bs 1 1) 1, fabWr := bitAt (leAt bs 1 1) 2, fabAtom := bitAt (leAt bs 1 1) 3 }) :
    ndRegister bs c d = okay (payloadOf 8 [(0, 4, i)]) (({ d with free := d.free + 1 } : Dev).modSilkai (fun m => { m with regions := tabPut m.regions i r })) := by
  subst hr
  unfold ndRegister
  refine (checked_passed (by simp [hflags]) d _).trans ((if_neg hlen).trans ((checked_passed (by simp [hspan]) d _).trans ?_))
  rw [hfree]

theorem ndUnregister_drops (hflags : leAt bs 1 1 < 16) (hregion : (tabFind d.silkai.regions (leAt bs 4 4)).isSome = true) :
    ndUnregister bs c d = okay (payloadOf 8 []) (d.modSilkai (fun m => { m with regions := tabDel m.regions (leAt bs 4 4) })) := by
  unfold ndUnregister
  exact checked_passed (by simp [hflags, hregion]) d _

/-! ### Fabric and groups (R426) -/

theorem ndFabLeave_leaves (hflows : d.fab.flows = []) : ndFabLeave bs c d = okay [] (d.modFab (fun f => { f with joined := false, leaving := false })) := by
  have hclosed : allClosed (d.modFab (fun f => { f with leaving := true })) = true := by rw [allClosed, Dev.modFab_fab, hflows, List.all_nil]
  rw [ndFabLeave, hflows]
  exact if_pos hclosed

theorem ndFlowClose_failed (hstate : (d.flow (leAt bs 0 2)).state = .failed) : ndFlowClose bs c d = okay [] (d.modFlow (leAt bs 0 2) (fun x => { x with state := .closed })) := by
  have hclose : closeFlow (leAt bs 0 2) d = d.modFlow (leAt bs 0 2) (fun x => { x with state := .closed }) := by rw [closeFlow, hstate]
  rw [ndFlowClose, hclose, Dev.flow_modFlow_same]
  exact if_pos rfl

/-! ### Faults (R429, R450, R457, R458) -/

theorem ndCfgPin_sets (hlock : c.cfg.faultCfgLock = false) (hmode : leAt bs 4 1 = 1) (hthreshold : leAt bs 5 1 ≤ 3) (hmin : 20 ≤ leAt bs 8 4) (hmax : leAt bs 8 4 ≤ 10000) :
    ndCfgPin bs c d = okay [] (d.modFc (fun f => setPinMode false { f with threshold := BitVec.ofNat 2 (leAt bs 5 1), pulseMinUs := BitVec.ofNat 14 (leAt bs 8 4) })) := by
  unfold ndCfgPin
  refine (checked_passed (by simp [hlock, hmode, hthreshold, hmin, hmax]) d _).trans ?_
  rw [hmode]
  rfl

theorem ndCfgSource_sets (hlock : c.cfg.faultCfgLock = false) (hsource : leAt bs 2 2 < 480) (hopen : (d.fc.src (leAt bs 2 2)).lock = false) (hfixed : sevFixed (leAt bs 2 2) = false)
    (hsev : leAt bs 4 1 ≤ 3) (hactions : leAt bs 5 1 = 0) : ndCfgSource bs c d = okay [] (d.modFc (writeSeverity false (leAt bs 2 2) (leAt bs 4 1 + 256))) := by
  unfold ndCfgSource
  refine (checked_passed (by simp [hlock, hsource, hopen, hfixed, hsev, hactions]) d _).trans ?_
  rw [hactions]

theorem ndFaultLog_reads {log : Nat} (hcode : leAt bs 0 1 = log) (hlog : log ≤ 2) (hclear : leAt bs 12 1 = 0) (hcount : leAt bs 8 4 ≤ 4064 / (logEntries log d).1) :
    ndFaultLog bs c d = okay (entriesReply (logEntries log d).1 (leAt bs 4 4) (leAt bs 8 4) (logEntries log d).2.length (logEntries log d).2) d := by
  subst hcode
  unfold ndFaultLog
  refine (checked_passed (by simp [hlog, hclear, hcount]) d _).trans ?_
  rw [hclear]
  rfl

/-! ### Retirement, power, telemetry (R429, R510, R512) -/

theorem retrainPc_starts {n : Nat} (hn : n < 512) (hstate : (d.pc n).st = .active) (hstaged : d.near.pcs.any (fun p => pcStaged p.2) = false) :
    retrainPc n c d = okay [] (wantRetrain n d) := checked_passed (by simp only [hn, hstate, hstaged]; decide) d _

theorem retirePc_starts {n : Nat} (hn : n < 512) (hstate : (d.pc n).st ≠ .retired) (hstaged : d.near.pcs.any (fun p => pcStaged p.2) = false) :
    retirePc n c d = okay [] (degrade n d) := checked_passed (by simp [hn, hstate, hstaged]) d _

theorem retireLane_retires {l : Nat} (hl : l < 64) (hlane : bitAt d.fab.laneFail.toNat l = false) : retireLane l c d = okay [] (flashLog c 4 l 0 0 (failLane l c d)) :=
  checked_passed (by simp [hl, hlane]) d _

theorem ndPowerLimit_sets (hmin : 400 ≤ leAt bs 0 4) (hmax : leAt bs 0 4 ≤ 1600) (hslew : leAt bs 4 4 = 0) :
    ndPowerLimit bs c d = okay [] (d.modPwr (fun w => { w with limit := BitVec.ofNat 11 (leAt bs 0 4) })) := by
  have hgiven : leAt bs 0 4 ≠ 0 := by omega
  unfold ndPowerLimit
  rw [if_neg hgiven, hslew]
  exact checked_passed (by simp [hmin, hmax]) d _

theorem telPeriod_sets (hmin : 100 ≤ leAt bs 4 4) (hmax : leAt bs 4 4 ≤ 1000000) :
    telPeriod bs c d = okay [] (d.modSilkai (fun m => { m with period := BitVec.ofNat 32 (leAt bs 4 4) })) := by
  unfold telPeriod
  exact checked_passed (by simp [hmin, hmax]) d _

/-! ### Commands told by their code (R415) -/

theorem ndRegion_register (h : leAt bs 0 1 = 0) : ndRegion bs c d = ndRegister bs c d := by simp only [ndRegion, h]
theorem ndRegion_unregister (h : leAt bs 0 1 = 1) : ndRegion bs c d = ndUnregister bs c d := by simp only [ndRegion, h]
theorem ndCollGroup_delete (h : leAt bs 0 1 = 1) : ndCollGroup bs c d = groupDelete bs c d := by simp only [ndCollGroup, h]
theorem ndFaultCfg_source (h : leAt bs 0 1 = 0) : ndFaultCfg bs c d = ndCfgSource bs c d := by simp only [ndFaultCfg, h]
theorem ndFaultCfg_pin (h : leAt bs 0 1 = 1) : ndFaultCfg bs c d = ndCfgPin bs c d := by simp only [ndFaultCfg, h]
theorem ndRetire_retrain (h : leAt bs 0 1 = 1) : ndRetire bs c d = retrainPc (leAt bs 4 4) c d := by simp only [ndRetire, h]
theorem ndRetire_retire (h : leAt bs 0 1 = 2) : ndRetire bs c d = retirePc (leAt bs 4 4) c d := by simp only [ndRetire, h]
theorem ndRetire_lane (h : leAt bs 0 1 = 3) : ndRetire bs c d = retireLane (leAt bs 4 4) c d := by simp only [ndRetire, h]
theorem ndTelemetry_period (h : leAt bs 0 1 = 1) : ndTelemetry bs c d = telPeriod bs c d := by simp only [ndTelemetry, h]
theorem ndTelemetry_rewrite (h : leAt bs 0 1 = 2) : ndTelemetry bs c d = okay [] (rewriteTelemetry c d) := by simp only [ndTelemetry, h]

/-! ### A group deleted (R426) -/

theorem watchNodes_coll (now : Nat) (ms : List Nat) (d : Dev) : (watchNodes now ms d).coll = d.coll := by
  refine List.foldlRecOn (motive := fun e : Dev => e.coll = d.coll) ms _ rfl fun e he m _ => ?_
  split
  · exact he
  · exact he

/-- The device after a group goes: what it alone watched is watched no more. -/
def groupGone (now id : Nat) (d : Dev) : Dev :=
  let d1 := d.modColl (fun m => { m with groups := tabDel m.groups id })
  watchNodes now (groupWatched d1) (unwatch (groupWatched d1) d1)

theorem groupGone_groups (now id : Nat) (d : Dev) : (groupGone now id d).coll.groups = tabDel d.coll.groups id := congrArg Coll.groups (watchNodes_coll _ _ _)

theorem groupDelete_deletes {g : Group} (hflags : leAt bs 9 1 < 4) (hgroup : tabFind d.coll.groups (leAt bs 2 2) = some g) (hunloaded : d.life.loaded = false) :
    groupDelete bs c d = okay [] (groupGone c.now (leAt bs 2 2) d) := by
  have hnamed : groupNamed d (leAt bs 2 2) g = false := by rw [groupNamed, hunloaded, Bool.false_and]
  unfold groupDelete
  rw [if_neg (Nat.not_le.2 hflags), hgroup]
  exact checked_passed (by simp [hnamed]) d _

end

/-- The end of a command leaves all but mailbox and interrupt. -/
theorem endCommand_coll (k op seq st : Nat) (reply : List Byte) (c : Ctl) (d : Dev) : (endCommand k op seq st reply c d).coll = d.coll :=
  (congrArg Dev.coll (endCommand_frame k c d op seq st reply) :)

/-- R412: a group without members names no memory. -/
theorem hostGone_emptyGroup {bs : List Byte} {d : Dev} (h : leAt bs 4 4 = 0) : hostGone 0x0404 bs d = false := by
  have hspans : namedSpans 0x0404 bs d = (leAt bs 16 8, 4 * leAt bs 4 4) :: (if bitAt (leAt bs 9 1) 0 then [(leAt bs 24 8, 1024 * leAt bs 4 4)] else []) := rfl
  rw [hostGone, hspans, h]
  split <;> simp

end Sys2Proof.Machine

open Sys2Proof Sys2Proof.Machine

/-- Settles O54: each command's checks pass on the device that holds it as taken, and it does what its equation above says. -/
theorem ndSetupCommandsAct : Obligations.NdSetupCommandsAct := by
  intro s k p
  refine ⟨fun ht hmagic hminor => ?_, fun ht hallocs hunloaded hmode hpeers => ?_, fun h a ht hsize htier hzero halign hplaced hhandle hplace => ?_,
    fun a ht hfind htier hplaced hregions => ?_, fun i => fun ht hflags hlen hspan hfree => ?_, fun ht hflags hregion => ?_, fun ht hunloaded hflows => ?_,
    fun ht hstate => ?_, fun g => fun ht hjoined hempty hflags hgroup hunloaded => ?_, fun ht hlock hmode hthreshold hmin hmax => ?_,
    fun ht hlock hsource hopen hfixed hsev hactions => ?_, fun q hq => fun ht hclear hcount => ?_, fun ht hn hstate hstaged => ?_, fun ht hn hstate hstaged => ?_,
    fun ht hl hlane => ?_, fun ht hmin hmax hslew => ?_, fun ht hmin hmax => ?_, fun ht => ?_⟩
  · exact ⟨helloReply k.val s.ctl, ends_of_okay rfl ht (by decide) (fun _ => rfl) (fun _ => rfl) (fun _ _ => ndHello_answers s.ctl k.val hmagic hminor), helloReply_fields k s.ctl⟩
  · exact ends_of_okay rfl ht (by decide) (fun _ => rfl) (fun _ => rfl) (fun mbx ptr => ndTierMode_sets (d := withMbx s.dev mbx ptr) s.ctl hallocs hunloaded hmode hpeers)
  · exact ends_of_okay rfl ht (by decide) (fun _ => rfl) (fun _ => rfl)
      (fun mbx ptr => ndAlloc_near (d := withMbx s.dev mbx ptr) s.ctl hsize htier hzero halign hplaced hhandle hplace)
  · exact ends_of_okay rfl ht (by decide) (fun _ => rfl) (fun _ => rfl) (fun mbx ptr => ndFree_frees (d := withMbx s.dev mbx ptr) s.ctl hfind htier hplaced hregions)
  · have hcode := code_withByte (Takes.layout ht) (by decide) (by decide)
    exact ends_of_okay rfl ht (by decide) (fun _ => rfl) (fun _ => rfl)
      (fun mbx ptr => (ndRegion_register s.ctl hcode).trans (ndRegister_registers (d := withMbx s.dev mbx ptr) s.ctl hflags hlen hspan hfree rfl))
  · have hcode := code_withByte (Takes.layout ht) (by decide) (by decide)
    exact ends_of_okay rfl ht (by decide) (fun _ => rfl) (fun _ => rfl)
      (fun mbx ptr => (ndRegion_unregister s.ctl hcode).trans (ndUnregister_drops (d := withMbx s.dev mbx ptr) s.ctl hflags hregion))
  · refine ends_of_run (fl := .done) rfl ht (by decide) ?_ (hostGone_of_noSpans rfl) (ndFabLeave_leaves (bs := p) s.ctl ?_)
    · rw [notAccepted, taken_life, hunloaded]
      rfl
    · rw [taken_fab, hflows]
  · exact ends_of_okay rfl ht (by decide) (fun _ => rfl) (fun _ => rfl) (fun mbx ptr => ndFlowClose_failed (d := withMbx s.dev mbx ptr) s.ctl hstate)
  · have hcode := code_withByte (Takes.layout ht) (by decide) (by decide)
    have haccepted : notAccepted 0x0404 (withByte 0 1 p) (taken s k.val 0x0404 (withByte 0 1 p)) = none := by
      rw [notAccepted, taken_fab, hjoined]
      rfl
    have hrun : runOpcode .done k.val 0x0404 (withByte 0 1 p) s.ctl (taken s k.val 0x0404 (withByte 0 1 p)) = _ :=
      (ndCollGroup_delete s.ctl hcode).trans (groupDelete_deletes s.ctl hflags (by rw [taken_coll]; exact hgroup) (by rw [taken_life]; exact hunloaded))
    refine ⟨_, exec_runs rfl ht (by decide) haccepted (hostGone_emptyGroup hempty) hrun, ?_, congrArg Mailbox.st (endCommand_mbx_same _ _ _ _ _ _ _),
      congrArg Mailbox.result (endCommand_mbx_same _ _ _ _ _ _ _)⟩
    rw [← taken_coll s k.val 0x0404 (withByte 0 1 p)]
    exact (congrArg Coll.groups (endCommand_coll _ _ _ _ _ _ _)).trans (groupGone_groups _ _ _)
  · have hcode := code_withByte (Takes.layout ht) (by decide) (by decide)
    exact ends_of_okay rfl ht (by decide) (fun _ => rfl) (fun _ => rfl)
      (fun mbx ptr => (ndFaultCfg_pin s.ctl hcode).trans (ndCfgPin_sets (d := withMbx s.dev mbx ptr) s.ctl hlock hmode hthreshold hmin hmax))
  · have hcode := code_withByte (Takes.layout ht) (by decide) (by decide)
    exact ends_of_okay rfl ht (by decide) (fun _ => rfl) (fun _ => rfl)
      (fun mbx ptr => (ndFaultCfg_source s.ctl hcode).trans (ndCfgSource_sets (d := withMbx s.dev mbx ptr) s.ctl hlock hsource hopen hfixed hsev hactions))
  · have hlog : exec q.1 s = onDev (devCommand k.val 0x0601 (withByte 0 q.2 p) .done) s ∧ q.2 ≤ 2 := by
      simp only [List.mem_cons, List.not_mem_nil, or_false] at hq
      rcases hq with rfl | rfl | rfl <;> exact ⟨rfl, Nat.le_of_ble_eq_true rfl⟩
    have hcode := code_withByte (Takes.layout ht) (by decide) (by omega)
    exact ends_of_okay hlog.1 ht (by decide) (fun _ => rfl) (fun _ => rfl) (fun mbx ptr => ndFaultLog_reads (d := withMbx s.dev mbx ptr) s.ctl hcode hlog.2 hclear hcount)
  · have hcode := code_withByte (Takes.layout ht) (by decide) (by decide)
    exact ends_of_okay rfl ht (by decide) (fun _ => rfl) (fun _ => rfl)
      (fun mbx ptr => (ndRetire_retrain s.ctl hcode).trans (retrainPc_starts (d := withMbx s.dev mbx ptr) s.ctl hn hstate hstaged))
  · have hcode := code_withByte (Takes.layout ht) (by decide) (by decide)
    exact ends_of_okay rfl ht (by decide) (fun _ => rfl) (fun _ => rfl)
      (fun mbx ptr => (ndRetire_retire s.ctl hcode).trans (retirePc_starts (d := withMbx s.dev mbx ptr) s.ctl hn hstate hstaged))
  · have hcode := code_withByte (Takes.layout ht) (by decide) (by decide)
    exact ends_of_okay rfl ht (by decide) (fun _ => rfl) (fun _ => rfl)
      (fun mbx ptr => (ndRetire_lane s.ctl hcode).trans (retireLane_retires (d := withMbx s.dev mbx ptr) s.ctl hl hlane))
  · exact ends_of_okay rfl ht (by decide) (fun _ => rfl) (fun _ => rfl) (fun mbx ptr => ndPowerLimit_sets (d := withMbx s.dev mbx ptr) s.ctl hmin hmax hslew)
  · have hcode := code_withByte (Takes.layout ht) (by decide) (by decide)
    exact ends_of_okay rfl ht (by decide) (fun _ => rfl) (fun _ => rfl)
      (fun mbx ptr => (ndTelemetry_period s.ctl hcode).trans (telPeriod_sets (d := withMbx s.dev mbx ptr) s.ctl hmin hmax))
  · have hcode := code_withByte (Takes.layout ht) (by decide) (by decide)
    exact ends_of_okay rfl ht (by decide) (fun _ => rfl) (fun _ => rfl) (fun mbx ptr => ndTelemetry_rewrite (d := withMbx s.dev mbx ptr) s.ctl hcode)

end

section
/-! SUPPORT. A firmware update that a doubled key of the mailbox table hides is forgotten once that mailbox is given a command (R439). -/

namespace Sys2Proof.Machine

open Sys2Proof

/-- No mailbox of the table waits. -/
def NoneWaits (t : Tab Mailbox) : Prop := ∀ q ∈ t, q.2.waiting = none

theorem NoneWaits.tabMod {t : Tab Mailbox} {k : Nat} {f : Mailbox → Mailbox} (hrest : NoneWaits (tabDel t k)) (hf : (f (tabGet {} t k)).waiting = none) :
    NoneWaits (tabMod {} t k f) := by
  unfold Machine.tabMod tabSet
  split
  · exact hrest
  · intro q hq
    rcases mem_tabIns (tabDel t k) k _ q hq with rfl | hq
    · exact hf
    · exact hrest q hq

theorem NoneWaits.tabDel {t : Tab Mailbox} (h : NoneWaits t) (k : Nat) : NoneWaits (tabDel t k) := fun q hq => h q (List.mem_of_mem_filter hq)

theorem NoneWaits.tabGet {t : Tab Mailbox} (h : NoneWaits t) (k : Nat) : (tabGet {} t k).waiting = none := by
  unfold Machine.tabGet
  induction t with
  | nil => rfl
  | cons q t ih =>
    obtain ⟨a, m⟩ := q
    have ih := ih (fun x hx => h x (.tail _ hx))
    by_cases ha : a = k
    · simpa [tabFind, ha] using h (a, m) (.head _)
    · simpa [tabFind, ha] using ih

/-- With none waiting no update runs. -/
theorem updateRuns_of_noneWaits {d : Dev} (h : NoneWaits d.silkai.mbx) : updateRuns d = false := by
  refine List.any_eq_false.2 fun q hq => ?_
  rw [h q hq]
  exact Bool.false_ne_true

/-- A command given to the one mailbox that may wait, though it does not: then none does. -/
theorem taken_noneWaits {s : State} {k : Nat} (hrest : NoneWaits (tabDel s.dev.silkai.mbx k)) (hk : (s.dev.mbx k).waiting = none) (op : Nat) (bs : List Byte) :
    NoneWaits (taken s k op bs).silkai.mbx := by
  rw [taken_eq, here_withMbx, withMbx_modMbx, withMbx_modPtr, withMbx_modMbx]
  have hgiven : NoneWaits (tabMod {} s.dev.silkai.mbx k (givenMbx op (nextSeq s k) bs)) := .tabMod hrest hk
  exact .tabMod (f := fun m => { m with last := BitVec.ofNat 16 (nextSeq s k) }) (hgiven.tabDel k) (hgiven.tabGet k)

/-- A mailbox table that lists key 0 twice: the first entry is what mailbox 0 reads, the second holds an update that no mailbox shows. -/
def hiddenUpdate : State := { ctl := { live := true, boot := { stage := 9 } }, dev := { silkai := { mbx := [(0, { st := .idle }), (0, { waiting := some (.fwUpdate false []) })] } } }

/-- The payload of an update of no bytes. -/
def emptyUpdate : List Byte := List.replicate 24 0

theorem hiddenUpdate_takes : Takes hiddenUpdate 0 0x0701 (withByte 0 0 emptyUpdate) := by decide +kernel

theorem hiddenUpdate_forgotten : updateRuns (taken hiddenUpdate 0 0x0701 (withByte 0 0 emptyUpdate)) = false :=
  updateRuns_of_noneWaits (taken_noneWaits (s := hiddenUpdate) (k := 0) (fun q hq => nomatch (hq : q ∈ ([] : Tab Mailbox))) rfl _ _)

/-- R439: ND_FW_UPDATE is accepted in every state. -/
theorem notAccepted_fwUpdate (bs : List Byte) (d : Dev) : notAccepted 0x0701 bs d = none := rfl

/-- R412: an update of no bytes names no memory. -/
theorem hostGone_emptyUpdate {bs : List Byte} (hlen : leAt bs 16 4 = 0) (d : Dev) : hostGone 0x0701 bs d = false := by
  have hspans : namedSpans 0x0701 bs d = [(leAt bs 8 8, leAt bs 16 4)] := rfl
  rw [hostGone, hspans, hlen]
  simp

/-- R439: with no update running, one of no bytes has nothing to write. -/
theorem ndFwUpdate_empty {bs : List Byte} {c : Ctl} {d : Dev} (fl : FlashRun) (hcode : leAt bs 0 1 = 0) (hlen : leAt bs 16 4 = 0) (hlock : c.cfg.fwUpdateLock = false)
    (hruns : updateRuns d = false) : ndFwUpdate fl bs c d = okay [] d := by
  unfold ndFwUpdate
  refine (checked_passed ?_ d _).trans ?_
  · simp [hcode, hlen, hlock, hruns, Dev.engineSpan, Dev.inRegion]
  · rw [if_pos hlen, hcode]
    rfl

/-- R439: an update of no bytes, taken with none running, ends with OK. -/
theorem emptyUpdate_ends {s : State} {k : Fin 16} {p : List Byte} (ht : Takes s k.val 0x0701 (withByte 0 0 p)) (hcode : leAt (withByte 0 0 p) 0 1 = 0)
    (hlen : leAt (withByte 0 0 p) 16 4 = 0) (hlock : s.ctl.cfg.fwUpdateLock = false) (hruns : updateRuns (taken s k.val 0x0701 (withByte 0 0 p)) = false) :
    Ends s k (.ndFwUpdateFirmware k p .done) 0x0701 (withByte 0 0 p) 0 [] id :=
  ends_of_run (fl := .done) rfl ht (by decide) (notAccepted_fwUpdate _ _) (hostGone_emptyUpdate hlen _) (ndFwUpdate_empty .done hcode hlen hlock hruns)

theorem hiddenUpdate_ends : Ends hiddenUpdate 0 (.ndFwUpdateFirmware 0 emptyUpdate .done) 0x0701 (withByte 0 0 emptyUpdate) 0 [] id :=
  emptyUpdate_ends hiddenUpdate_takes (by decide) (by decide) rfl hiddenUpdate_forgotten

/-- A command does not end with two statuses. -/
theorem Ends.status_unique {s : State} {k : Fin 16} {i : Instr} {op : Nat} {bs : List Byte} {st st' : Nat} {reply reply' : List Byte} {f f' : Dev → Dev}
    (h : Ends s k i op bs st reply f) (h' : Ends s k i op bs st' reply' f') : BitVec.ofNat 4 st = BitVec.ofNat 4 st' := by
  have hdev := congrArg State.dev (Host.Outcome.next.inj (Eq.trans (Eq.symm h) h'))
  have hmbx := congrArg (fun d : Dev => (d.mbx k.val).result) hdev
  exact ((congrArg Mailbox.result (endCommand_mbx_same k.val s.ctl _ op _ st reply)).symm.trans hmbx).trans
    (congrArg Mailbox.result (endCommand_mbx_same k.val s.ctl _ op _ st' reply'))

end Sys2Proof.Machine

open Sys2Proof Sys2Proof.Machine

/-- Refutes O55: the clause of a second update reads `updateRuns` off the whole mailbox table, for every table. In one that lists a key twice, which
no table in canonical form does, the update stands behind the entry that is read; the given command replaces both, and ends with OK and not
with BUSY. -/
theorem not_ndJobCommandsAct : ¬ Obligations.NdJobCommandsAct := by
  intro h
  obtain ⟨-, -, -, -, -, -, -, -, -, -, -, hupdate⟩ := h hiddenUpdate 0 emptyUpdate
  obtain ⟨hbusy, -⟩ := hupdate .done (.ndFwUpdateFirmware 0 emptyUpdate .done, false) (.head _) hiddenUpdate_takes rfl
  exact absurd (Ends.status_unique hiddenUpdate_ends (hbusy rfl (by decide))) (by decide)

end
